-- ==== Sys2Proof/Word.lean ====
section
/-! DEFINITION. The plain types of the model: bytes, byte strings, memories and finite maps. Their operations stand in
Sys2Proof/Machine/Data.lean. -/

namespace Sys2Proof

/-- One byte. -/
abbrev Byte := BitVec 8

/-- A byte string, the byte at offset 0 first. -/
abbrev Bytes := List (BitVec 8)

/-- A memory: address and byte pairs, addresses rising, no entry equal to what an unlisted address reads as (zero). -/
abbrev Memory := List Host.Cell

/-- A finite map from numbers, keys rising; an absent key has the default its reader names. -/
abbrev FMap (α : Type) := List (Nat × α)

end Sys2Proof
end

