-- ==== Sys2Proof/Syntax.lean ====
section
/-! DEFINITION. The commands of the block: one constructor per row of spec/opcode_table.json. A command's operands
are what the outside gives it (register addresses, host data, queue entries) and, for an event of the hardware, what the
event measures or finds (a time in microseconds, the verdict of a decoder). -/

namespace Sys2Proof

/-- Name of a command fetched from a submission queue: the function's FIX (R55), the queue identifier and the command
identifier. -/
structure CmdRef where
  /-- function index -/
  fix : Nat
  /-- submission queue identifier -/
  qid : Nat
  /-- command identifier -/
  cid : Nat
  deriving DecidableEq, Repr

/-- Kinds of SGL descriptor, as R83 and R475 tell them apart. -/
inductive SglKind where
  | data | bitBucket | segment | lastSegment | keyed | reserved
  deriving DecidableEq, Repr

/-- An SGL descriptor: its kind and its length. -/
structure SglDesc where
  /-- kind -/
  kind : SglKind
  /-- length in bytes -/
  len : Nat
  deriving DecidableEq, Repr

/-- A segment of an SGL: whether its read from host memory succeeds, and its descriptors. -/
structure SglSeg where
  /-- the read over the link succeeds -/
  fetched : Bool
  /-- descriptors in order -/
  descs : List SglDesc
  deriving DecidableEq, Repr

/-- A data or metadata pointer of a command: PRP entries or a single buffer, which always hold the declared length, or an
SGL, the descriptor in the command being the first segment. -/
inductive DataPtr where
  | prp
  | sgl (segs : List SglSeg)
  deriving DecidableEq, Repr

/-- The keys of a reservation command: its data pointer, and what the transfer brings (none: it fails on the link). -/
structure KeyData where
  /-- pointer -/
  ptr : DataPtr
  /-- the current key, and the new one or the one to preempt -/
  keys : Option (Nat × Nat)
  deriving DecidableEq, Repr

/-- Where the ladder of R126 stops for a codeword: at its first read, at a rung of step 2, at step 3 with its soft decoder,
the soft-bit levels used and whether the last one succeeds, or at a read that times out (R150). -/
inductive Found where
  | first
  | rung (n : Nat)
  | soft (decoder levels : Nat) (ok : Bool)
  | timeout
  deriving DecidableEq, Repr

/-- A die profile of a firmware image (R142, R146, R147): what the device knows of a type of die. The values of a profile that
states nothing else are those of the reference die, profile 0x0001. Times are in microseconds. -/
structure DieProfile where
  /-- profile number -/
  number : Nat := 1
  /-- cell: 1 TLC, 2 QLC -/
  cell : Nat := 2
  /-- density in Tbit -/
  tbit : Nat := 4
  /-- planes -/
  planes : Nat := 4
  /-- main and spare bytes of a page -/
  pageBytes : Nat := 18432
  /-- LUNs of a volume, the L of R143 -/
  luns : Nat := 1
  /-- wordlines of a block -/
  wordlines : Nat := 384
  /-- multi-plane blocks -/
  blocks : Nat := 4416
  /-- spare block numbers -/
  spares : List Nat := (List.range 96).map (· + 4320)
  /-- typical time of a pSLC program -/
  usPslc : Nat := 120
  /-- typical time of a one-shot program -/
  usProgram : Nat := 8500
  /-- typical time of an erase -/
  usErase : Nat := 10000
  /-- ODT and output drive strength of R140, as the feature values that set them -/
  odt : Nat := 0
  drive : Nat := 0
  /-- spacing of soft-bit reads in DAC steps (R157) -/
  softStep : Nat := 0
  deriving DecidableEq, Repr

/-- Whether the device supports dies of a profile (R145, R146). -/
def DieProfile.supported (p : DieProfile) : Bool :=
  decide (p.cell = 1 ∨ p.cell = 2) && decide (1 ≤ p.tbit ∧ p.tbit ≤ 4) && decide (p.planes ∈ [2, 4, 6]) &&
    decide (18432 ≤ p.pageBytes) && decide (p.luns ∈ [1, 2, 4]) && decide (0 < p.wordlines ∧ p.wordlines ≤ 65536 ∧ p.blocks ≤ 8160)

/-- A sample codeword of a patrol: its die and block, the bits corrected at step 1, and where the ladder stops. -/
structure PatrolRead where
  /-- die -/
  die : Nat
  /-- block -/
  block : Nat
  /-- bits corrected at step 1 -/
  bits : Nat
  /-- where the ladder stops -/
  found : Found
  deriving DecidableEq, Repr

/-- Capabilities of R52: those that functions present, and those that are absent. -/
inductive Capability where
  | powerManagement | pciExpress | msix | msi | aer | ari | sriov | secondaryPcie | physical16 | physical32 | physical64
  | physical128 | laneMargining | dataLinkFeature | flitLogging | serialNumber | ltr | l1Substates
  | linkBandwidthNotification | doe
  | ats | pri | pasid | ide | tph | acs | ptm | resizableBar | multicast
  deriving DecidableEq, Repr

/-- Fields of a function's configuration space (R2, R49, R50, R52, R53, R55, R57, R85, R471): the Revision ID, the BARs and
the expansion ROM, MSI-X, MSI and INTx, the SR-IOV capability of a PF with its VF BARs, the routing ID that the host gives,
Device Control, and whether a capability is there. -/
inductive ConfigField where
  | msixEnable | functionMask | msiEnable | msiAddress | msiData | interruptDisable | numVfs
  | revisionId | bar (n : Nat) | expansionRom | vfBar (n : Nat) | systemPageSize | supportedPageSizes | firstVfOffset | vfStride
  | totalVfs | initialVfs | vfEnable | routingId | maxPayload | maxPayloadSupported | maxReadRequest | relaxedOrdering
  | powerState | noSoftReset | flrCapable | flitSupported | msixTableSize | deviceSerial | capability (c : Capability)
  deriving DecidableEq, Repr

/-- Where a register access comes from and what its address counts in: the NVMe registers in BAR0 of a function, the MSI-X
table in its BAR4, a field of its configuration space, the set-up window of a port's PF (R25), the block windows as a core
sees them (R29), or the head of a direction of the register bridge (R19). -/
inductive RegSpace where
  | nvme (fix : Nat)
  | msix (fix : Nat)
  | config (fix : Nat) (field : ConfigField)
  | bar2 (port : Nat)
  | core (core : Nat)
  | bridge (dir : Nat)
  deriving DecidableEq, Repr

/-- A direct read: its address and whether it is one of 64 bits. -/
structure ReadAt where
  /-- offset in the space, or internal address -/
  addr : Nat
  /-- 64 bits, else 32 -/
  wide : Bool
  deriving DecidableEq, Repr

/-- The source of an access on the register bridge (R19): a core, which may run journal firmware (R29), or BAR2 of a port. -/
inductive Source where
  | core (core : Nat) (journal : Bool)
  | bar2 (port : Nat)
  deriving DecidableEq, Repr

/-- Who waits for units of a pool (R60): the holder of the request. -/
inductive Waiter where
  | cmd (c : CmdRef)
  | waybill (id : Nat)
  | job (caller : Nat)
  | wgran (id : Nat)
  | rgran (id : Nat)
  | thread (n : Nat)
  | search (unit caller : Nat)
  deriving DecidableEq, Repr

/-- The block's commands. -/
inductive Instr where
  /-- REGISTER_WRITE (R10): A write to a register field that has no row of its own takes effect according to its field type (RW, W1C, W1S, WO or ST). The address is an offset in BAR0, BAR4 or BAR2 or an internal address; a 64-bit access or a 32-bit one. Of the bridge, the head of the direction is taken, and of configuration space the field's value. -/
  | registerWrite (space : RegSpace) (addr : Nat) (wide : Bool) (value : Nat)
  /-- RC_COUNTER_READ (R12): A read of a read-clear counter returns its value and clears it; an event in the same cycle is held in the counter afterwards. A 32-bit read. -/
  | rcCounterRead (space : RegSpace) (addr : Nat)
  /-- UPPER_WORD_LATCH (R9): A read of the lower word of a 64-bit register latches the upper word so that the next read of it returns a coherent pair. Every direct read that clears nothing: 32 bits of a lower word, of the upper word after it or of a register of one word, or 64 bits. A read of another plane's window goes to the bridge. -/
  | upperWordLatch (space : RegSpace) (spot : ReadAt)
  /-- STAGED_COMMIT (R13): A write to a block's COMMIT register moves its whole staged set into the active set at once. The window of R20 by its offset / 64 KiB. -/
  | stagedCommit (window : Nat)
  /-- BAR2_WRITE_DISCARDED (R26): A BAR2 write to a class V or class N window is discarded; the first such write in each accounting epoch is logged as event 0x0101. The writing PF and the offset. -/
  | bar2WriteDiscarded (fix offset : Nat) (wide : Bool)
  /-- BAR2_UNSUPPORTED_ACCESS (R27): A BAR2 access that is not an aligned 32-bit or 64-bit access completes with Unsupported Request and has no effect. The PF, the offset and the length in bytes. -/
  | bar2UnsupportedAccess (fix offset len : Nat)
  /-- CORE_BUS_ERROR (R30): A core access to a reserved address, without the needed right, or to the host aperture by load or store returns a bus error and logs the address. Core 0 to 47, or 48 for the management core; 0 read, 1 write, 2 instruction fetch, 3 DMA descriptor; whether it is journal firmware. -/
  | coreBusError (core addr kind : Nat) (journal : Bool)
  /-- MAILBOX_SEND (R17): A sender claims a slot of a mailbox ring (one unit of pool 15), writes the message and rings the plane doorbell. The ring by the order of R367. -/
  | mailboxSend (ring ty : Nat) (urgent : Bool) (unit : Nat) (payload : List (BitVec 8))
  /-- MAILBOX_SLOT_GRANTED (R17): A sending plane stalled on a full ring is granted a slot when one is released. -/
  | mailboxSlotGranted (ring : Nat)
  /-- MAILBOX_RECEIVE (R17): The receiving plane takes a message from its ring, urgent messages first, and releases the slot to pool 15. -/
  | mailboxReceive (ring : Nat)
  /-- HANDOFF_BUFFER_PASS (R18): Ownership of a hand-off buffer passes between the data and control planes with a plane doorbell. What the owner wrote into a buffer of firmware. -/
  | handoffBufferPass (buffer : Nat) (data : List (BitVec 8))
  /-- HANDOFF_FOREIGN_ACCESS (R18): An access to a hand-off buffer by the plane that does not own it returns a bus error and changes nothing. By a core of the control plane, or (none) by the data plane. -/
  | handoffForeignAccess (buffer offset : Nat) (core : Option Nat)
  /-- BRIDGE_ACCESS (R19): An access to another plane's register window or MRAM is queued on the register bridge; a write is posted, and the source stalls if the queue is full. The direction by the order of R367; the source; the internal address. -/
  | bridgeAccess (dir : Nat) (source : Source) (addr : Nat) (wide isWrite : Bool) (value : Nat)
  /-- BRIDGE_READ_RETURN (R19): A read carried by the register bridge returns its data, or the target's bus error. -/
  | bridgeReadReturn (dir : Nat)
  /-- ACCOUNTING_EPOCH_BOUNDARY (R38): The Ember accumulator ends an accounting epoch after 32 or 33 ticks of the 32.768 kHz clock, and every allocator and holder latches its counts. The highest die sensor reading now and its sensor, the highest of the epoch, and the lowest margin code of each Hearth. -/
  | accountingEpochBoundary (tj : Int) (sensor : Nat) (top : Int) (margins : List Nat)
  /-- TOL_VIOLATED_CLEAR (R42): Writing 1 to a TOL_VIOLATED bit clears it, together with the pool's VIOLATED flag and FIRST_VIOLATION. -/
  | tolViolatedClear (mask : Nat)
  /-- SHARE_UNITS_ISSUED (R60): A waiting request for n units of an E pool is issued all n units once they fit under its share and are free, in round robin by FIX. The holder takes the units up by its own row: a command run again, a credit by CREDIT_GRANT, an engine job at its context's placement or next segment. -/
  | shareUnitsIssued (pool : Nat)
  /-- LINK_TRAINING (R47): A port trains to the highest common rate that passes equalisation, capped by MAX_RATE, at the widest working width. The partner's greatest rate, the rates that pass equalisation, the working lanes of the port and whether the partner has FLIT mode. -/
  | linkTraining (port partnerMax : Nat) (passing lanes : List Nat) (flit : Bool)
  /-- LINK_RECOVERY_ENTRY (R47): A port enters Recovery, and HLK_Pn_RECOVERY counts the entry. The time of the entry in microseconds. -/
  | linkRecoveryEntry (port us : Nat)
  /-- FEC_UNCORRECTABLE_FLIT (R47): A port logs an FEC-uncorrectable flit in HLK_Pn_FEC_UNCORR. The time of the flit in microseconds. -/
  | fecUncorrectableFlit (port us : Nat)
  /-- LINK_RATE_DOWNGRADE (R47): More than 8 Recovery entries or 16 uncorrectable flits within 1 s retrain the port at the next lower rate and set DOWNGRADED. -/
  | linkRateDowngrade (port : Nat)
  /-- RETRAIN_LINK (R47): The host sets Retrain Link, and the port retrains toward its Target Link Speed. The Target Link Speed, encoded as MAX_RATE. -/
  | retrainLink (port target : Nat)
  /-- L0P_WIDTH_CHANGE (R48): The device accepts an L0p width change requested by the partner in FLIT mode. -/
  | l0pWidthChange (port width : Nat)
  /-- LINK_POWER_STATE_CHANGE (R53): A port enters or leaves L1, L1.1, L1.2 or L2/L3 Ready. The state: 0 L0, 1 L1, 2 L1.1, 3 L1.2, 4 L2/L3 Ready. -/
  | linkPowerStateChange (port state : Nat)
  /-- FUNCTION_POWER_STATE_WRITE (R53): A function moves between D0, D3hot and D3cold; on return to D0 with the vector unmasked, pending MSI-X messages are sent. -/
  | functionPowerStateWrite (fix : Nat) (d0 : Bool)
  /-- MSIX_VECTOR_UNMASK (R89): Unmasking an MSI-X vector whose PBA bit is set sends its message at once. -/
  | msixVectorUnmask (fix vec : Nat)
  /-- PERST_ASSERT (R63): PERSTn_N asserts, which resets the port's functions, and in mode 0 is a device reset. Units that fail their test, should it be a device reset. -/
  | perstAssert (port : Nat) (failed : List Nat)
  /-- PERST_DEASSERT (R54): PERSTn_N deasserts, which releases the port and wakes the device from Dormant or Deep. -/
  | perstDeassert (port : Nat)
  /-- HOT_RESET (R63): A hot reset on a port is a conventional reset of its functions, and in mode 0 is a device reset. -/
  | hotReset (port : Nat) (failed : List Nat)
  /-- LINK_DOWN (R68): A port's link goes down, which resets its functions and quiesces its Manifest unit with reason LINK_DOWN. -/
  | linkDown (port : Nat) (failed : List Nat)
  /-- PORT_LINK_UP (R68): A port reaches L0, and its Manifest unit returns to alive. -/
  | portLinkUp (port : Nat)
  /-- VF_ENABLE_WRITE (R55): A write that sets or clears VF Enable creates the port's VFs or resets them all. -/
  | vfEnableWrite (port : Nat) (enable : Bool)
  /-- FUNCTION_LEVEL_RESET (R63): An FLR resets one function, and for a PF also clears VF Enable. -/
  | functionLevelReset (fix : Nat)
  /-- CONTROLLER_ENABLE (R473): CC.EN set to 1 checks the configuration, setting CSTS.CFS on failure, and otherwise starts the controller's initialisation. The fields of CC beside EN. -/
  | controllerEnable (fix css ams mps : Nat)
  /-- CONTROLLER_DISABLE (R63): CC.EN going from 1 to 0 resets the controller's function. -/
  | controllerDisable (fix : Nat)
  /-- EPOCH_ITEM_SQUASH (R65): An old-epoch work item takes a unit of pool 31 and is squashed at its next 64 KiB segment boundary. The item by its kind; a job by 16 × instance + context, 1,000 more for DGE, 2,000 more for AEE. -/
  | epochItemSquash (fix : Nat) (item : Waiter)
  /-- FUNCTION_RESET_COMPLETE (R65): Once all pool 31 units and transient E-pool units of the function are returned, the reset is reported complete. The duration of the reset in microseconds. -/
  | functionResetComplete (fix us : Nat)
  /-- NVM_SUBSYSTEM_RESET (R427): An NVM Subsystem Reset starts a device reset. -/
  | nvmSubsystemReset (failed : List Nat)
  /-- SQ_TAIL_DOORBELL (R78): A submission queue tail doorbell write is taken into the doorbell array and sets the queue's ready bit, or is ignored and reported as invalid. -/
  | sqTailDoorbell (fix qid value : Nat)
  /-- CQ_HEAD_DOORBELL (R78): A completion queue head doorbell write is taken, or is ignored and reported as invalid. -/
  | cqHeadDoorbell (fix qid value : Nat)
  /-- SUBMISSION_FETCH (R79): The fetch engine takes a submission entry by deficit round robin once the function can be issued a unit of pool 0. The command identifier of the entry that the fetch engine finds at the head it has chosen, whether its PSDT selects SGLs and whether it is fused. -/
  | submissionFetch (cid : Nat) (sgl fused : Bool)
  /-- MODERATION_TIMER_EXPIRY (R86): A vector's moderation time T expires, and the device sends its message, exiting L1 if needed, or sets the PBA bit. -/
  | moderationTimerExpiry (fix vec : Nat)
  /-- CONTROLLER_SHUTDOWN_NORMAL (R472): CC.SHN = 01b stops fetch on the controller, ends compute instances and lets fetched commands complete. -/
  | controllerShutdownNormal (fix : Nat)
  /-- CONTROLLER_SHUTDOWN_ABRUPT (R472): CC.SHN = 10b stops fetch and aborts unstarted fetched commands with Command Abort Requested. -/
  | controllerShutdownAbrupt (fix : Nat)
  /-- SHUTDOWN_COMPLETE (R472): Once every fetched command has its completion, CSTS.SHST becomes 10b. -/
  | shutdownComplete (fix : Nat)
  /-- UNSUPPORTED_COMMAND (R73): An absent opcode, or a PF-only command from a VF, completes with Invalid Command Opcode. -/
  | unsupportedCommand (ref : CmdRef)
  /-- CREATE_IO_SQ (R76): Create I/O Submission Queue creates an SQ or completes with the error of R76. `entries` counts from 1. -/
  | createIoSq (ref : CmdRef) (contiguous : Bool) (qid entries base cqid : Nat)
  /-- CREATE_IO_CQ (R76): Create I/O Completion Queue creates a CQ or completes with the error of R76. `entries` counts from 1; `ien` is Interrupts Enabled. -/
  | createIoCq (ref : CmdRef) (contiguous ien : Bool) (qid entries base vector : Nat)
  /-- DELETE_IO_SQ (R79): Delete I/O Submission Queue deletes the SQ, aborting its fetched but unstarted entries. -/
  | deleteIoSq (ref : CmdRef) (qid : Nat)
  /-- DELETE_IO_CQ (R73): Delete I/O Completion Queue deletes a CQ. -/
  | deleteIoCq (ref : CmdRef) (qid : Nat)
  /-- GET_LOG_PAGE (R75): Get Log Page returns a supported log page, or completes with Invalid Field in Command. Offset and length in bytes; `capture` is Create Telemetry Host-Initiated Data. -/
  | getLogPage (ref : CmdRef) (lid offset len : Nat) (rae capture : Bool)
  /-- IDENTIFY (R72): Identify returns the controller or namespace data with the fixed values of R72. -/
  | identify (ref : CmdRef) (cns nsid cntid : Nat)
  /-- ABORT (R82): Abort ends an unstarted command with Command Abort Requested, terminates a running Compute Submit, or has no effect. -/
  | abort (ref : CmdRef) (sqid cid : Nat)
  /-- SET_FEATURES (R75): Set Features changes a supported feature, applying moderation changes under R86. `value` is Command Dword 11; no data: the transfer failed on the link. -/
  | setFeatures (ref : CmdRef) (fid : Nat) (save : Bool) (nsid value : Nat) (data : Option Bytes)
  /-- GET_FEATURES (R75): Get Features returns a supported feature value. -/
  | getFeatures (ref : CmdRef) (fid sel nsid value : Nat)
  /-- ASYNCHRONOUS_EVENT_REQUEST (R443): An Asynchronous Event Request is held outstanding until an event is posted to it. -/
  | asynchronousEventRequest (ref : CmdRef)
  /-- NAMESPACE_CREATE (R476): Namespace Management create records NAMESPACE action 0, then writes the table record and completes, or is refused. The fields of the create data, and whether their transfer succeeded. -/
  | namespaceCreate (ref : CmdRef) (nsze ncap lbaf : Nat) (extended kpio shared sent : Bool)
  /-- NAMESPACE_DELETE (R476): Namespace Management delete clears the namespace under R188, records action 1 and frees its record and root entries. 0xFFFFFFFF names all namespaces. -/
  | namespaceDelete (ref : CmdRef) (nsid : Nat)
  /-- NAMESPACE_ATTACH (R73): Namespace Attachment attaches a namespace to controllers. The controller list; none: its transfer failed. -/
  | namespaceAttach (ref : CmdRef) (nsid : Nat) (ctrls : Option (List Nat))
  /-- NAMESPACE_DETACH (R73): Namespace Attachment detaches a namespace from controllers. The controller list; none: its transfer failed. -/
  | namespaceDetach (ref : CmdRef) (nsid : Nat) (ctrls : Option (List Nat))
  /-- FIRMWARE_IMAGE_DOWNLOAD (R402): Firmware Image Download accumulates a piece in the shared DRAM buffer, or completes with Overlapping Range. Offset in bytes; no data: the transfer failed on the link. -/
  | firmwareImageDownload (ref : CmdRef) (offset : Nat) (data : Option Bytes)
  /-- FIRMWARE_COMMIT_REPLACE (R402): Firmware Commit action 0 checks the image and writes it to the slot without a boot record. Commit Action 0, or one that is not supported; FS; the public key of a signing certificate that chains to the root (none: it does not); the die profiles of the image's list. -/
  | firmwareCommitReplace (ref : CmdRef) (action fs : Nat) (cert : Option Bytes) (profiles : List DieProfile)
  /-- FIRMWARE_COMMIT_REPLACE_ACTIVATE (R402): Firmware Commit action 1 writes the slot and a trial boot record naming it. As FIRMWARE_COMMIT_REPLACE. -/
  | firmwareCommitReplaceActivate (ref : CmdRef) (fs : Nat) (cert : Option Bytes) (profiles : List DieProfile)
  /-- FIRMWARE_COMMIT_ACTIVATE (R402): Firmware Commit action 2 checks the stored image and writes a trial boot record naming it. -/
  | firmwareCommitActivate (ref : CmdRef) (fs : Nat)
  /-- FIRMWARE_COMMIT_ACTIVATE_NOW (R402): Firmware Commit action 3 writes the trial record and activates at once under R404, or requires an NVM Subsystem Reset. As FIRMWARE_COMMIT_REPLACE; run again for a commit whose activation has begun, with the pause in microseconds. -/
  | firmwareCommitActivateNow (ref : CmdRef) (fs us : Nat) (cert : Option Bytes) (profiles : List DieProfile)
  /-- FIRMWARE_SLOT_WRITTEN (R402): Writing the slot's 123 sectors and the read-back check end, and the boot record is then written. The verdict of the read-back check. -/
  | firmwareSlotWritten (ok : Bool)
  /-- DEVICE_SELF_TEST_SHORT (R73): Device Self-test starts a short self-test. -/
  | deviceSelfTestShort (ref : CmdRef)
  /-- DEVICE_SELF_TEST_EXTENDED (R73): Device Self-test starts an extended self-test. -/
  | deviceSelfTestExtended (ref : CmdRef)
  /-- FORMAT_NVM (R92): Format NVM sets FORMAT_PENDING, then clears one namespace by MAP_CLEAR records or all of them by CLEAR_ALL, with the chosen LBA format and secure erase. 0xFFFFFFFF names all namespaces; `pi` is the protection information field. -/
  | formatNvm (ref : CmdRef) (nsid lbaf ses : Nat) (extended : Bool) (pi : Nat)
  /-- FORMAT_CLEAR_COMPLETE (R188): The NAMESPACE action 3 record becomes durable and the Format NVM completes. -/
  | formatClearComplete (nsid : Nat)
  /-- SANITIZE_CRYPTO_ERASE (R91): Sanitize Crypto Erase completes started commands, aborts instances, replaces keys, and clears Tongs units and scratch. A command that waits for started ones is run again under the same name. -/
  | sanitizeCryptoErase (ref : CmdRef)
  /-- SANITIZE_BLOCK_ERASE (R91): Sanitize Block Erase performs the Crypto Erase and then erases every user and spare block. A command that waits for started ones is run again under the same name. -/
  | sanitizeBlockErase (ref : CmdRef)
  /-- SANITIZE_OVERWRITE (R91): Sanitize Overwrite completes with Invalid Field in Command. -/
  | sanitizeOverwrite (ref : CmdRef)
  /-- SANITIZE_COMPLETE (R91): The sanitize erase ends, and I/O commands are accepted again. -/
  | sanitizeComplete
  /-- FLUSH (R74): Flush completes successfully once fetched. -/
  | flush (ref : CmdRef) (nsid : Nat)
  /-- WRITE (R184): Write stages granules, merges partial granules, and completes once members, parity and map deltas are durable. LBAs counted from 1, the key tag if one is named, the pointers, and what the transfers from the host bring (none: a transfer failed). -/
  | write (ref : CmdRef) (nsid slba nlb : Nat) (tag : Option Nat) (dp mp : DataPtr) (data metadata : Option Bytes)
  /-- READ (R128): Read fetches granules through the read pipeline and transfers them only after their checks pass. -/
  | read (ref : CmdRef) (nsid slba nlb : Nat) (tag : Option Nat) (dp mp : DataPtr)
  /-- COMPARE (R74): Compare reads the range and compares it with host data. -/
  | compare (ref : CmdRef) (nsid slba nlb : Nat) (tag : Option Nat) (dp mp : DataPtr) (data metadata : Option Bytes)
  /-- WRITE_ZEROES (R187): Write Zeroes clears whole granules with MAP_CLEAR records and merges partly covered mapped granules. -/
  | writeZeroes (ref : CmdRef) (nsid slba nlb : Nat) (deallocate : Bool)
  /-- DATASET_MANAGEMENT (R187): Dataset Management deallocates ranges as R187 gives. Ranges as SLBA and LBAs; none: the transfer failed. -/
  | datasetManagement (ref : CmdRef) (nsid : Nat) (deallocate : Bool) (dp : DataPtr) (ranges : Option (List (Nat × Nat)))
  /-- VERIFY (R74): Verify reads and checks every granule, including XXH64, without host transfer. -/
  | verify (ref : CmdRef) (nsid slba nlb : Nat) (tag : Option Nat)
  /-- RESERVATION_REGISTER (R74): Reservation Register registers or unregisters a reservation key. Current and new key; none: the data transfer failed. -/
  | reservationRegister (ref : CmdRef) (nsid action : Nat) (iekey : Bool) (cptpl : Nat) (keys : KeyData)
  /-- RESERVATION_REPORT (R74): Reservation Report returns the reservation status. -/
  | reservationReport (ref : CmdRef) (nsid len : Nat) (extended : Bool) (ptr : DataPtr)
  /-- RESERVATION_ACQUIRE (R74): Reservation Acquire acquires or preempts a reservation. Current and preempted key; none: the data transfer failed. -/
  | reservationAcquire (ref : CmdRef) (nsid action : Nat) (iekey : Bool) (rtype : Nat) (keys : KeyData)
  /-- RESERVATION_RELEASE (R74): Reservation Release releases or clears a reservation. The current key; none: the data transfer failed. -/
  | reservationRelease (ref : CmdRef) (nsid action : Nat) (iekey : Bool) (rtype : Nat) (key : KeyData)
  /-- POLICY_TABLE_LOAD (R97): Policy Table Load checks the table in order and stores it in MRAM for activation at the next boundary. ACTION is 0, or a value that check 1 of R97 refuses. -/
  | policyTableLoad (ref : CmdRef) (table action len : Nat) (data : Option Bytes)
  /-- POLICY_TABLE_READ_ACTIVE (R96): Policy Table Load action 1 returns the first bytes of the active table and its LENGTH. -/
  | policyTableReadActive (ref : CmdRef) (table len : Nat)
  /-- POLICY_TABLE_READ_FACTORY (R96): Policy Table Load action 2 returns the first bytes of the factory default table and its LENGTH. -/
  | policyTableReadFactory (ref : CmdRef) (table len : Nat)
  /-- NOLOB_IMAGE_LOAD (R235): Nolob Image Load checks, signature-verifies and verifies the image, then takes a slot of pool 23 and returns its handle. CDW10, REQUIRE_SIGNATURE, the bytes transferred (none: the link fails), and where the image is laid. -/
  | nolobImageLoad (ref : CmdRef) (len : Nat) (mustSign : Bool) (data : Option Bytes) (col set grp : Nat)
  /-- NOLOB_IMAGE_UNLOAD (R99): Nolob Image Unload stops the image accepting Compute Submit at once. -/
  | nolobImageUnload (ref : CmdRef) (handle : Nat)
  /-- IMAGE_UNLOAD_COMPLETE (R99): When the last running instance of the image ends, the unload completes and returns the unit of pool 23, withdrawing a worn slot. -/
  | imageUnloadComplete (slot : Nat)
  /-- KEY_SLOT_IMPORT (R331): Key Slot Manage action 0 checks and unwraps a key blob into a new slot. CDW14, CDW15 and the blob (none: the link fails). -/
  | keySlotImport (ref : CmdRef) (len cdw15 : Nat) (data : Option Bytes)
  /-- KEY_SLOT_GENERATE (R332): Key Slot Manage action 1 generates a key in a new slot. CDW14 and CDW15. -/
  | keySlotGenerate (ref : CmdRef) (len cdw15 : Nat)
  /-- KEY_SLOT_DESTROY (R332): Key Slot Manage action 2 removes bindings, zeroises the slot and returns its unit of pool 28. CDW11. -/
  | keySlotDestroy (ref : CmdRef) (slot : Nat)
  /-- KEY_SLOT_QUERY (R325): Key Slot Manage action 3 returns the slot record. CDW11 and CDW14. -/
  | keySlotQuery (ref : CmdRef) (slot len : Nat)
  /-- KEY_SLOT_REKEY (R332): Key Slot Manage action 4 replaces the slot's key and resets its use count. CDW11, CDW14, CDW15 and the blob. -/
  | keySlotRekey (ref : CmdRef) (slot len cdw15 : Nat) (data : Option Bytes)
  /-- KEY_SLOT_BIND (R332): Key Slot Manage action 5 binds a (NSID, key tag) pair to an XTS_512 slot. CDW11, CDW12, CDW13. -/
  | keySlotBind (ref : CmdRef) (slot nsid tag : Nat)
  /-- KEY_SLOT_UNBIND (R332): Key Slot Manage action 6 unbinds a (NSID, key tag) pair. CDW11, CDW12, CDW13. -/
  | keySlotUnbind (ref : CmdRef) (slot nsid tag : Nat)
  /-- KEY_RELEASE_COMPLETE (R332): A destroy or unbind completes once every command that started with the key has ended. The destroy or unbind that waits. -/
  | keyReleaseComplete (ref : CmdRef)
  /-- CARTRIDGE_QUERY (R101): Cartridge Service action 0 returns the group's Manifest record. -/
  | cartridgeQuery (ref : CmdRef) (group : Nat)
  /-- CARTRIDGE_PREPARE_REMOVAL (R219): Cartridge Service action 1 quiesces the group, pads and seals its stripes, and powers the cartridge down. The Manifest generation quoted. -/
  | cartridgePrepareRemoval (ref : CmdRef) (group gen : Nat)
  /-- CARTRIDGE_ADMIT (R163): Cartridge Service action 2 admits an inserted cartridge and starts power-up and rebuild. The Manifest generation quoted. -/
  | cartridgeAdmit (ref : CmdRef) (group gen : Nat)
  /-- CARTRIDGE_CANCEL_REMOVAL (R217): Cartridge Service action 3 returns a prepared group to service from step 1 of R163. The Manifest generation quoted. -/
  | cartridgeCancelRemoval (ref : CmdRef) (group gen : Nat)
  /-- MANIFEST_QUERY (R102): Manifest Query returns Manifest records in ascending unit ID. -/
  | manifestQuery (ref : CmdRef) (first count len : Nat)
  /-- TOLLGATE_REPORT (R103): Tollgate Report returns the records of the selected pools and, from a PF with CLEAR set, clears their violations. -/
  | tollgateReport (ref : CmdRef) (mask : Nat) (clear : Bool) (len : Nat)
  /-- COMPUTE_SUBMIT (R105): Compute Submit reads and checks the Waybill and then requests a unit of pool 20. The 256 bytes of the Waybill (none: the read fails) and the walked output descriptor. -/
  | computeSubmit (ref : CmdRef) (addr : Nat) (waybill : Option Bytes) (out : DataPtr)
  /-- TONGS_INSERT_BY_PRIORITY (R289): Tongs Table Write mode 0 places each entry by priority, shifting and spilling entries across buckets. CDW10, CDW12, CDW14, the data pointer and the bytes transferred (none: the link fails). -/
  | tongsInsertByPriority (ref : CmdRef) (unit count len : Nat) (ptr : DataPtr) (data : Option Bytes)
  /-- TONGS_WRITE_AT (R291): Tongs Table Write mode 1 writes the entries at FIRST_ENTRY onward. CDW10, CDW11, CDW12, CDW14, the data pointer and the bytes. -/
  | tongsWriteAt (ref : CmdRef) (unit first count len : Nat) (ptr : DataPtr) (data : Option Bytes)
  /-- TONGS_DELETE (R291): Tongs Table Write mode 2 frees COUNT + 1 entries from FIRST_ENTRY. CDW10, CDW11, CDW12, CDW14. -/
  | tongsDelete (ref : CmdRef) (unit first count len : Nat)
  /-- TONGS_RELEASE_UNIT (R291): Tongs Table Write mode 3 is accepted, so that new searches of the unit return NO_UNIT. CDW10, CDW12, CDW14. -/
  | tongsReleaseUnit (ref : CmdRef) (unit count len : Nat)
  /-- TONGS_RELEASE_COMPLETE (R291): Once the unit's outstanding searches finish, every entry is freed, UPDATE_SEQ is set to 0 and the claim is released. -/
  | tongsReleaseComplete (unit : Nat)
  /-- TONGS_TABLE_READ (R295): Tongs Table Read copies entries one per slot and returns the UPDATE_SEQ at the first and last slot. CDW10, CDW11, CDW12, CDW14 and the data pointer. -/
  | tongsTableRead (ref : CmdRef) (unit first count len : Nat) (ptr : DataPtr)
  /-- LANE_GRANT (R114): A freed lane of stages 3 to 6 is granted a waiting granule by deficit round robin and readiness order. The kind: 0 compress, 1 encrypt, 2 decrypt, 3 decompress, 4 soft decode, 5 stripe reconstruction. -/
  | laneGrant (kind lane : Nat)
  /-- GRANULE_COMPRESS (R119): A compression lane ends a granule and writes it as COMPRESSED or STORED. -/
  | granuleCompress (lane : Nat)
  /-- GRANULE_LOCK_RELEASE (R116): When a granule's map delta is durable, the next write waiting on that granule takes the lock and merges. -/
  | granuleLockRelease (gtag : Nat)
  /-- XTS_LANE_COMPUTE (R122): An MXT lane ends a granule on two rails and releases it if the rails match. Whether the rails matched at each attempt; where an encrypted granule is laid. -/
  | xtsLaneCompute (lane : Nat) (first second : Bool) (col set grp : Nat)
  /-- QLC_COPY_COMPLETE (R123): A granule's copy into a QLC program buffer completes, and its credit of pool 2 is returned. The granule's number in the write pipeline. -/
  | qlcCopyComplete (id : Nat)
  /-- STRIPE_CLOSE_TIMER (R124): STRIPE_CLOSE_US expires on an open stripe, which is padded and its parity programmed. -/
  | stripeCloseTimer (col set pu : Nat)
  /-- CREDIT_GRANT (R132): A stage held for want of a credit receives it when one is returned. -/
  | creditGrant (pool id col set grp : Nat)
  /-- NAND_READ_COMPLETE (R139): A NAND page read completes, and its data is transferred for decoding. The granule's number in the read pipeline. -/
  | nandReadComplete (id : Nat)
  /-- CODEWORD_DECODE (R126): A hard decode of a codeword ends, either succeeding or climbing the ladder. The verdict of the hard decoder. -/
  | codewordDecode (id cw : Nat) (ok : Bool)
  /-- READ_RETRY_RUNG (R157): A read-retry rung rereads the page with its offsets and hard-decodes it. -/
  | readRetryRung (id cw : Nat) (ok : Bool)
  /-- SOFT_DECODE (R126): A soft decode with 1, 2 or 3 soft bits ends. -/
  | softDecode (id cw decoder : Nat) (ok : Bool)
  /-- STRIPE_RECONSTRUCT (R211): A missing or failed member's codeword is rebuilt from P, Q and the other members. By group, where the ladder stops for the codeword of another member; at its first read where none is named. -/
  | stripeReconstruct (id cw : Nat) (failed : List (Nat × Found))
  /-- GRANULE_DECOMPRESS (R127): A decompression lane ends a granule and checks header, frame, size and XXH64. The bytes of the clear part and of the encrypted region that arrive other than they were written: offset in that part, byte. -/
  | granuleDecompress (lane : Nat) (clear region : List (Nat × Byte))
  /-- HOST_DMA_COMPLETE (R131): Host DMA of a read granule completes, and its read staging credit is returned. -/
  | hostDmaComplete (id : Nat)
  /-- HANDOFF_DELIVERY (R129): A hand-off buffer of trimmed extent data is handed to the instance when it is full or the input ends. -/
  | handoffDelivery (wb : Nat)
  /-- CHECK_VERDICT_FINAL (R130): The verdict on a diverted granule becomes final, and a failing one taints or ends the instance. The Waybill and the granule's number in the read pipeline. -/
  | checkVerdictFinal (wb id : Nat)
  /-- CHANNEL_TRAINING (R141): A channel runs ZQ, duty-cycle, read DQ and write DQ training, stepping down its rate on failure. -/
  | channelTraining (chan : Nat) (passing : List Nat) (tj : Int)
  /-- ZQ_CALIBRATION_TIMER (R141): Every 128 ms, ZQ Calibration Short runs on every chip enable of an active channel. -/
  | zqCalibrationTimer (chan : Nat)
  /-- READ_DQ_RETRAIN (R141): Tj moving more than 10 °C since the last training retrains read DQ. -/
  | readDqRetrain (chan : Nat) (tj : Int)
  /-- NAND_PROGRAM_COMPLETE (R149): A program's status is read and the program verified; the MAP_SET is then issued or the failure handled. -/
  | nandProgramComplete (die : Nat) (pass verifyOk : Bool)
  /-- NAND_ERASE_COMPLETE (R150): An erase completes, and its block becomes FREE or RETIRED. -/
  | nandEraseComplete (die : Nat) (pass : Bool)
  /-- NAND_OPERATION_TIMEOUT (R150): An operation not ready after twice its profile maximum gets Reset LUN and fails, and repeated time-outs retire the die. The time in microseconds, and the read that timed out, or none for the running operation. -/
  | nandOperationTimeout (die us : Nat) (read : Option Nat)
  /-- ERASE_SUSPEND (R151): A waiting host or merge read causes an erase suspend when the conditions of R151 hold. The time since the erase began or was last resumed. -/
  | eraseSuspend (die us : Nat)
  /-- PROGRAM_SUSPEND (R151): A waiting host or merge read causes a QLC or TLC program suspend when the conditions of R151 hold. -/
  | programSuspend (die us : Nat)
  /-- SUSPEND_READY (R152): The die is ready in the suspended state and runs up to SUSP_MAX_READS reads. -/
  | suspendReady (die : Nat) (completed : Bool)
  /-- SUSPEND_RESUME (R152): After the last read's transfer, a resume is issued and the suspended operation continues. -/
  | suspendResume (die : Nat)
  /-- CART_PRESENCE_CHANGE (R162): CARTg_PRES_N changes level and starts debouncing. The level of CARTg_PRES_N: seated is low. -/
  | cartPresenceChange (group : Nat) (seated : Bool)
  /-- INSERTION_DEBOUNCED (R162): Presence has stayed low for DEBOUNCE_MS, and the insertion counts, with auto-admission if enabled. -/
  | insertionDebounced (group : Nat)
  /-- REMOVAL_COUNTED (R162): Presence has stayed high for 10 µs, and the removal counts. -/
  | removalCounted (group : Nat)
  /-- PGOOD_FALL (R165): CARTg_PGOOD falls while the cartridge is powered, and the group is fenced as for a surprise removal. -/
  | pgoodFall (group : Nat)
  /-- CARTRIDGE_ADMISSION (R163): An admitted group raises PWREN and begins its power-up steps. What identification finds: die, profile number, cell type. -/
  | cartridgeAdmission (group : Nat) (found : List (Nat × Nat × Nat))
  /-- PGOOD_RISE (R163): CARTg_PGOOD rises, and channel drivers are enabled and the dies reset. -/
  | pgoodRise (group : Nat)
  /-- PGOOD_TIMEOUT (R163): PGOOD is not high by the end of step 2, and the device drops PWREN and leaves the group absent with PGOOD_FAIL. -/
  | pgoodTimeout (group : Nat)
  /-- CARTRIDGE_POWER_UP_DONE (R163): Step 6 is reached, and the group becomes alive or degraded REBUILD. -/
  | cartridgePowerUpDone (group : Nat)
  /-- CARTRIDGE_POWER_DOWN (R164): After the group's last operation ends, its drivers go to high impedance and PWREN drops. -/
  | cartridgePowerDown (group : Nat)
  /-- CARTRIDGE_ATTN_ASSERT (R164): Once PGOOD reads low or 50 ms have passed, CARTg_ATTN_N is driven low. -/
  | cartridgeAttnAssert (group : Nat)
  /-- JOURNAL_RECORD_DURABLE (R180): A record's MRAM write completes, and what depends on it becomes durable. -/
  | journalRecordDurable
  /-- JOURNAL_CHECKPOINT (R181): Every CHECKPOINT_MS, the journal saves tracked sets, writes a superblock with HEAD_SEQ and frees ring pages. -/
  | journalCheckpoint
  /-- MAP_ITEM_LOAD (R174): A missing map item is read into the cache, its pending records are applied, and a clean leaf is evicted if needed. Kind 0 leaf, 1 directory, 2 block-table chunk. -/
  | mapItemLoad (kind index : Nat)
  /-- MAP_ITEM_FLUSH (R181): A dirty item is written to a map page and verified, and ITEM_FLUSHED is made durable. Kind 0 leaf, 1 directory, 2 block-table chunk, 3 an image that GC moves; where it is laid. -/
  | mapItemFlush (kind index col set grp : Nat)
  /-- GC_VICTIM_SELECT (R191): Below GC_START_BP, GC picks the FULL block with the least valid units and starts moving it. The class: 0 data, 1 map blocks, 2 image blocks. -/
  | gcVictimSelect (cls : Nat)
  /-- PSLC_FOLD_START (R191): When pSLC occupancy reaches FOLD_START_PCT, the oldest full pSLC block is folded into QLC. -/
  | pslcFoldStart
  /-- RECOVERY_START (R194): Recovery chooses the superblock and scans the journal ring, indexing pending records. The superblock copies (0 A, 1 B) and the journal slots whose CRC32C fails, as a write that a power loss cut off leaves them. -/
  | recoveryStart (copies torn : List Nat)
  /-- RECOVERY_BLOCK_TABLE_LOAD (R194): Once every present group has reached step 6 of R163, block-table chunks are loaded and pending records applied. -/
  | recoveryBlockTableLoad
  /-- RECOVERY_COMPLETE (R194): Leaves are cleared, power-fail actions are queued, pools recounted and the RECOVERY record made durable, and host I/O is admitted. The time of steps 1 to 6 and that of the whole start, in microseconds. -/
  | recoveryComplete (us seqUs : Nat)
  /-- REBUILD_SET (R220): Rebuild erases the next set's block on the group, programs reconstructed members, verifies them and advances the pointer. The verdict on the erase and the programs, and by program unit where the ladder stops for the codewords of another member, by group. -/
  | rebuildSet (group : Nat) (pass : Bool) (failed : List (Nat × List (Nat × Found)))
  /-- PATROL_ZONE (R223): The Outrider patrols the zone with the oldest stamp, reads one sample codeword per page, and stamps the zone. The sample codewords that the patrol of the zone reads, with what each decode finds. -/
  | patrolZone (samples : List PatrolRead)
  /-- WAYBILL_ADMITTED (R243): A unit of pool 20 is issued, and the units of R238 are requested. The Waybill's number. -/
  | waybillAdmitted (wb : Nat)
  /-- INSTANCE_START (R243): With all units issued, W2 is zeroed, reads of extent 0 begin, and the instance starts at ENTRY. -/
  | instanceStart (wb : Nat)
  /-- IMAGE_FETCH (R236): The first instance of an image after power-up waits for the image to be read from the media. -/
  | imageFetch (slot : Nat)
  /-- SEGMENT_BOUNDARY (R242): An instance reaches a segment boundary after 65,536 retired instructions or 50 µs. -/
  | segmentBoundary (wb : Nat)
  /-- TIME_LIMIT_EXPIRY (R244): An epoch boundary finds the instance's time limit passed, and the instance ends at its next segment boundary. -/
  | timeLimitExpiry (wb : Nat)
  /-- INSTANCE_END (R246): A stopped instance returns its units, waits for verdicts, completes output and writes the result record and completion. -/
  | instanceEnd (wb : Nat)
  /-- HEARTH_DRAIN_COMPLETE (R258): The last instance on a draining Hearth ends, and the Hearth passes to firmware. -/
  | hearthDrainComplete (hearth : Nat)
  /-- SVC_YIELD (R252): Service 0 puts the thread at the tail of its level. The hardware context that runs it. -/
  | svcYield (ctx : Nat)
  /-- SVC_NEXT_INPUT (R247): Service 1 returns the current input buffer and maps the next chunk into W0, or returns END_OF_INPUT. The hardware context that runs it. -/
  | svcNextInput (ctx : Nat)
  /-- SVC_EMIT_OUTPUT (R248): Service 2 emits W1 bytes to the host output buffer and maps a fresh zeroed buffer. The hardware context that runs it. -/
  | svcEmitOutput (ctx : Nat)
  /-- SVC_TONGS_QUERY (R254): Service 3 searches a Tongs unit for keys and writes result records, synchronously or by ticket. The hardware context that runs it. -/
  | svcTongsQuery (ctx : Nat)
  /-- SVC_DIGEST (R255): Service 4 opens, continues or finalises a digest or HMAC operation. The hardware context, and the verdict on the tag of parked state. -/
  | svcDigest (ctx : Nat) (tagOk : Bool)
  /-- SVC_COMPRESS (R303): Service 5 in the compress direction produces one Zstandard frame on a CXE context. The hardware context that runs it. -/
  | svcCompress (ctx : Nat)
  /-- SVC_DECOMPRESS (R305): Service 5 in the decompress direction decodes frames into the destination within its capacity. The hardware context that runs it. -/
  | svcDecompress (ctx : Nat)
  /-- SVC_DELAY (R252): Service 6 blocks the instance for a delay, using a delay-list entry. The hardware context that runs it. -/
  | svcDelay (ctx : Nat)
  /-- SVC_WAIT_TIMEOUT (R253): Service 7 waits for an asynchronous ticket or its time-out. The hardware context that runs it. -/
  | svcWaitTimeout (ctx : Nat)
  /-- SVC_LOG_RECORD (R257): Service 8 writes an event-log record, or returns RATE_LIMITED. The hardware context that runs it. -/
  | svcLogRecord (ctx : Nat)
  /-- SVC_PROGRAM_EXIT (R252): Service 9 ends the instance with SUCCESS and its exit code. The hardware context that runs it. -/
  | svcProgramExit (ctx : Nat)
  /-- ASYNC_OPERATION_END (R253): An asynchronous service operation ends, and its result is held for service 7. The Waybill and the ticket. -/
  | asyncOperationEnd (wb ticket : Nat)
  /-- NOP (R266): Does nothing. The hardware context that runs it. -/
  | nop (ctx : Nat)
  /-- ADD (R266): x[dst] becomes A + B. The hardware context that runs it. -/
  | add (ctx : Nat)
  /-- SUB (R266): x[dst] becomes A − B. The hardware context that runs it. -/
  | sub (ctx : Nat)
  /-- AND (R266): x[dst] becomes A AND B. The hardware context that runs it. -/
  | and (ctx : Nat)
  /-- OR (R266): x[dst] becomes A OR B. The hardware context that runs it. -/
  | or (ctx : Nat)
  /-- XOR (R266): x[dst] becomes A XOR B. The hardware context that runs it. -/
  | xor (ctx : Nat)
  /-- ANDN (R266): x[dst] becomes A AND NOT B. The hardware context that runs it. -/
  | andn (ctx : Nat)
  /-- MIN (R266): x[dst] becomes the signed minimum of A and B. The hardware context that runs it. -/
  | min (ctx : Nat)
  /-- MAX (R266): x[dst] becomes the signed maximum of A and B. The hardware context that runs it. -/
  | max (ctx : Nat)
  /-- MINU (R266): x[dst] becomes the unsigned minimum of A and B. The hardware context that runs it. -/
  | minu (ctx : Nat)
  /-- MAXU (R266): x[dst] becomes the unsigned maximum of A and B. The hardware context that runs it. -/
  | maxu (ctx : Nat)
  /-- SLL (R266): x[dst] becomes A shifted left by B[5:0]. The hardware context that runs it. -/
  | sll (ctx : Nat)
  /-- SRL (R266): x[dst] becomes A shifted right logically by B[5:0]. The hardware context that runs it. -/
  | srl (ctx : Nat)
  /-- SRA (R266): x[dst] becomes A shifted right arithmetically by B[5:0]. The hardware context that runs it. -/
  | sra (ctx : Nat)
  /-- ROR (R266): x[dst] becomes A rotated right by B[5:0]. The hardware context that runs it. -/
  | ror (ctx : Nat)
  /-- SLT (R266): x[dst] becomes 1 if A < B signed, otherwise 0. The hardware context that runs it. -/
  | slt (ctx : Nat)
  /-- SLTU (R266): x[dst] becomes 1 if A < B unsigned, otherwise 0. The hardware context that runs it. -/
  | sltu (ctx : Nat)
  /-- SEQ (R266): x[dst] becomes 1 if A = B, otherwise 0. The hardware context that runs it. -/
  | seq (ctx : Nat)
  /-- MUL (R266): x[dst] becomes the low 64 bits of A × B. The hardware context that runs it. -/
  | mul (ctx : Nat)
  /-- MULH (R266): x[dst] becomes the high 64 bits of the signed product. The hardware context that runs it. -/
  | mulh (ctx : Nat)
  /-- MULHU (R266): x[dst] becomes the high 64 bits of the unsigned product. The hardware context that runs it. -/
  | mulhu (ctx : Nat)
  /-- DIV (R267): x[dst] becomes the signed quotient, truncated, with defined results for division by zero and overflow. The hardware context that runs it. -/
  | div (ctx : Nat)
  /-- DIVU (R267): x[dst] becomes the unsigned quotient, all ones on division by zero. The hardware context that runs it. -/
  | divu (ctx : Nat)
  /-- REM (R267): x[dst] becomes the signed remainder. The hardware context that runs it. -/
  | rem (ctx : Nat)
  /-- REMU (R267): x[dst] becomes the unsigned remainder. The hardware context that runs it. -/
  | remu (ctx : Nat)
  /-- CLZ (R266): x[dst] becomes the count of leading zero bits of A. The hardware context that runs it. -/
  | clz (ctx : Nat)
  /-- CTZ (R266): x[dst] becomes the count of trailing zero bits of A. The hardware context that runs it. -/
  | ctz (ctx : Nat)
  /-- POPC (R266): x[dst] becomes the number of 1 bits in A. The hardware context that runs it. -/
  | popc (ctx : Nat)
  /-- BSWAP (R266): x[dst] becomes A with its bytes reversed. The hardware context that runs it. -/
  | bswap (ctx : Nat)
  /-- EXT (R266): x[dst] becomes a bit field of A, zero- or sign-extended. The hardware context that runs it. -/
  | ext (ctx : Nat)
  /-- MOVI (R266): x[dst] becomes the sign-extended immediate. The hardware context that runs it. -/
  | movi (ctx : Nat)
  /-- MOVHI (R266): Bits [63:32] of x[dst] become the immediate. The hardware context that runs it. -/
  | movhi (ctx : Nat)
  /-- B (R268): Jumps forward unconditionally. The hardware context that runs it. -/
  | b (ctx : Nat)
  /-- BEQ (R268): Jumps forward if x[srcA] = x[srcB]. The hardware context that runs it. -/
  | beq (ctx : Nat)
  /-- BNE (R268): Jumps forward if x[srcA] ≠ x[srcB]. The hardware context that runs it. -/
  | bne (ctx : Nat)
  /-- BLT (R268): Jumps forward if x[srcA] < x[srcB] signed. The hardware context that runs it. -/
  | blt (ctx : Nat)
  /-- BGE (R268): Jumps forward if x[srcA] ≥ x[srcB] signed. The hardware context that runs it. -/
  | bge (ctx : Nat)
  /-- BLTU (R268): Jumps forward if x[srcA] < x[srcB] unsigned. The hardware context that runs it. -/
  | bltu (ctx : Nat)
  /-- BGEU (R268): Jumps forward if x[srcA] ≥ x[srcB] unsigned. The hardware context that runs it. -/
  | bgeu (ctx : Nat)
  /-- BPANY (R268): Jumps forward if any bit of the predicate is 1. The hardware context that runs it. -/
  | bpany (ctx : Nat)
  /-- BPNONE (R268): Jumps forward if every bit of the predicate is 0. The hardware context that runs it. -/
  | bpnone (ctx : Nat)
  /-- LD (R269): Loads 2^ESZ bytes into x[dst], zero- or sign-extended. The hardware context that runs it. -/
  | ld (ctx : Nat)
  /-- ST (R269): Stores the low 2^ESZ bytes of x[dst]. The hardware context that runs it. -/
  | st (ctx : Nat)
  /-- VLD (R269): Loads the active lanes of v[dst] from 64 bytes. The hardware context that runs it. -/
  | vld (ctx : Nat)
  /-- VST (R269): Stores the active lanes of v[dst]. The hardware context that runs it. -/
  | vst (ctx : Nat)
  /-- VGATHER (R269): Loads each active lane from a per-lane offset. The hardware context that runs it. -/
  | vgather (ctx : Nat)
  /-- VSCATTER (R270): Stores each active lane at a per-lane offset, in ascending lane order. The hardware context that runs it. -/
  | vscatter (ctx : Nat)
  /-- VLDB (R269): Broadcasts s bytes into every active lane. The hardware context that runs it. -/
  | vldb (ctx : Nat)
  /-- VADD (R271): Adds lane by lane. The hardware context that runs it. -/
  | vadd (ctx : Nat)
  /-- VSUB (R271): Subtracts lane by lane. The hardware context that runs it. -/
  | vsub (ctx : Nat)
  /-- VAND (R271): ANDs lane by lane. The hardware context that runs it. -/
  | vand (ctx : Nat)
  /-- VOR (R271): ORs lane by lane. The hardware context that runs it. -/
  | vor (ctx : Nat)
  /-- VXOR (R271): XORs lane by lane. The hardware context that runs it. -/
  | vxor (ctx : Nat)
  /-- VANDN (R271): Computes A AND NOT B lane by lane. The hardware context that runs it. -/
  | vandn (ctx : Nat)
  /-- VMIN (R271): Takes the signed minimum per lane. The hardware context that runs it. -/
  | vmin (ctx : Nat)
  /-- VMAX (R271): Takes the signed maximum per lane. The hardware context that runs it. -/
  | vmax (ctx : Nat)
  /-- VMINU (R271): Takes the unsigned minimum per lane. The hardware context that runs it. -/
  | vminu (ctx : Nat)
  /-- VMAXU (R271): Takes the unsigned maximum per lane. The hardware context that runs it. -/
  | vmaxu (ctx : Nat)
  /-- VMUL (R271): Multiplies per lane, keeping the low bits. The hardware context that runs it. -/
  | vmul (ctx : Nat)
  /-- VSLL (R271): Shifts each lane left. The hardware context that runs it. -/
  | vsll (ctx : Nat)
  /-- VSRL (R271): Shifts each lane right logically. The hardware context that runs it. -/
  | vsrl (ctx : Nat)
  /-- VSRA (R271): Shifts each lane right arithmetically. The hardware context that runs it. -/
  | vsra (ctx : Nat)
  /-- VSPLAT (R271): Copies x[srcA] into each active lane. The hardware context that runs it. -/
  | vsplat (ctx : Nat)
  /-- VEXT (R271): Extracts one lane into x[dst]. The hardware context that runs it. -/
  | vext (ctx : Nat)
  /-- VINS (R271): Inserts x[srcA] into one lane. The hardware context that runs it. -/
  | vins (ctx : Nat)
  /-- VPERM (R271): Permutes the bytes of A by the byte indices of B. The hardware context that runs it. -/
  | vperm (ctx : Nat)
  /-- VALIGN (R271): Takes 64 bytes from the concatenation of A and B. The hardware context that runs it. -/
  | valign (ctx : Nat)
  /-- VREDADD (R271): Sums the active lanes into x[dst]. The hardware context that runs it. -/
  | vredadd (ctx : Nat)
  /-- VREDMIN (R271): Takes the smallest active lane into x[dst]. The hardware context that runs it. -/
  | vredmin (ctx : Nat)
  /-- VREDMAX (R271): Takes the largest active lane into x[dst]. The hardware context that runs it. -/
  | vredmax (ctx : Nat)
  /-- VPACK (R271): Packs the active lanes into the low lanes. The hardware context that runs it. -/
  | vpack (ctx : Nat)
  /-- VCMPEQ (R271): Sets predicate lanes where A = B. The hardware context that runs it. -/
  | vcmpeq (ctx : Nat)
  /-- VCMPNE (R271): Sets predicate lanes where A ≠ B. The hardware context that runs it. -/
  | vcmpne (ctx : Nat)
  /-- VCMPLT (R271): Sets predicate lanes where A < B signed. The hardware context that runs it. -/
  | vcmplt (ctx : Nat)
  /-- VCMPLTU (R271): Sets predicate lanes where A < B unsigned. The hardware context that runs it. -/
  | vcmpltu (ctx : Nat)
  /-- VCMPLE (R271): Sets predicate lanes where A ≤ B signed. The hardware context that runs it. -/
  | vcmple (ctx : Nat)
  /-- VCMPLEU (R271): Sets predicate lanes where A ≤ B unsigned. The hardware context that runs it. -/
  | vcmpleu (ctx : Nat)
  /-- VMOV (R271): Moves A or the immediate into the active lanes. The hardware context that runs it. -/
  | vmov (ctx : Nat)
  /-- PAND (R272): ANDs two predicates. The hardware context that runs it. -/
  | pand (ctx : Nat)
  /-- POR (R272): ORs two predicates. The hardware context that runs it. -/
  | por (ctx : Nat)
  /-- PXOR (R272): XORs two predicates. The hardware context that runs it. -/
  | pxor (ctx : Nat)
  /-- PANDN (R272): Computes p[srcA] AND NOT p[srcB]. The hardware context that runs it. -/
  | pandn (ctx : Nat)
  /-- PRANGE (R272): Sets active the lanes below x[srcA]. The hardware context that runs it. -/
  | prange (ctx : Nat)
  /-- PCNT (R272): Counts the active lanes of a predicate. The hardware context that runs it. -/
  | pcnt (ctx : Nat)
  /-- PFIRST (R272): Gives the index of the lowest active lane. The hardware context that runs it. -/
  | pfirst (ctx : Nat)
  /-- PTOX (R272): Copies a converted lane mask into x[dst]. The hardware context that runs it. -/
  | ptox (ctx : Nat)
  /-- XTOP (R272): Sets a predicate's lane mask from x[srcA]. The hardware context that runs it. -/
  | xtop (ctx : Nat)
  /-- LOOP (R273): Starts a bounded loop or skips it with a trip count of 0. The hardware context that runs it. -/
  | loop (ctx : Nat)
  /-- ENDLOOP (R273): Decrements the trips and either repeats the loop body or pops the loop. The hardware context that runs it. -/
  | endloop (ctx : Nat)
  /-- BRK (R274): Pops the innermost loop and continues after its ENDLOOP. The hardware context that runs it. -/
  | brk (ctx : Nat)
  /-- BRKNZ (R274): Acts as BRK if x[srcA] ≠ 0. The hardware context that runs it. -/
  | brknz (ctx : Nat)
  /-- CALL (R274): Pushes the return address and jumps to a function. The hardware context that runs it. -/
  | call (ctx : Nat)
  /-- RET (R274): Pops the return stack and continues there, or ends a graph node firing. The hardware context that runs it. -/
  | ret (ctx : Nat)
  /-- AADD (R275): Atomically adds to a word and returns the old value. The hardware context that runs it. -/
  | aadd (ctx : Nat)
  /-- AAND (R275): Atomically ANDs a word and returns the old value. The hardware context that runs it. -/
  | aand (ctx : Nat)
  /-- AOR (R275): Atomically ORs a word and returns the old value. The hardware context that runs it. -/
  | aor (ctx : Nat)
  /-- AXOR (R275): Atomically XORs a word and returns the old value. The hardware context that runs it. -/
  | axor (ctx : Nat)
  /-- AMINU (R275): Atomically takes the unsigned minimum and returns the old value. The hardware context that runs it. -/
  | aminu (ctx : Nat)
  /-- AMAXU (R275): Atomically takes the unsigned maximum and returns the old value. The hardware context that runs it. -/
  | amaxu (ctx : Nat)
  /-- AXCHG (R275): Atomically exchanges a word. The hardware context that runs it. -/
  | axchg (ctx : Nat)
  /-- ACAS (R275): Atomically compares and swaps a word. The hardware context that runs it. -/
  | acas (ctx : Nat)
  /-- VAADD (R275): Atomically adds each active lane to its addressed word. The hardware context that runs it. -/
  | vaadd (ctx : Nat)
  /-- TONGS_SEARCH (R285): A search slot compares a key with all entries and returns the primary result record. Whether the entry reported fails its parity check. -/
  | tongsSearch (unit : Nat) (bad : Bool)
  /-- TONGS_STEP (R287): A mode-1 step returns the next match of the key in priority order. Whether the entry reported fails its parity check. -/
  | tongsStep (unit : Nat) (bad : Bool)
  /-- TONGS_ENTRY_UPDATE (R293): An entry write, free or move changes the table in one slot and increments UPDATE_SEQ. -/
  | tongsEntryUpdate (unit : Nat)
  /-- TONGS_SCRUB (R297): The unit scrubs the next entry in an idle or forced slot. Whether the entry has a parity error. -/
  | tongsScrub (unit : Nat) (bad : Bool)
  /-- CXE_CONTEXT_PLACE (R300): An issued CXE context is placed on the alive instance with the fewest busy contexts. -/
  | cxeContextPlace
  /-- CXE_SEGMENT (R301): An engine instance runs one segment of one context's job in round robin. -/
  | cxeSegment (inst : Nat)
  /-- CXE_JOB_END (R309): A compression or decompression job ends with its outcome and returns its context. The context, 16 x instance + context. -/
  | cxeJobEnd (job : Nat)
  /-- ENGINE_ECC_RETIRE (R312): An uncorrectable error retires an engine instance, and its jobs restart on another instance. Engine 0 CXE, 1 DGE, 2 AEE. -/
  | engineEccRetire (engine inst : Nat)
  /-- DGE_SEGMENT (R316): A DGE instance hashes one segment of a call. -/
  | dgeSegment (inst : Nat)
  /-- DGE_STATE_PARK (R320): At the end of a call without FINAL, the digest state is wrapped and parked, and the context is returned. The context, 16 x instance + context. -/
  | dgeStatePark (ctx : Nat)
  /-- AEE_SEGMENT (R339): An AEE instance processes one GCM segment on two rails and compares the rails. Whether the rails match at each attempt. -/
  | aeeSegment (inst : Nat) (first second : Bool)
  /-- AEE_JOB_END (R340): A GCM job ends and its tag is checked, with plaintext released or AUTH_FAIL reported. 16 x instance + context, or 1,000 + instance for a firmware context. -/
  | aeeJobEnd (job : Nat)
  /-- CONTEXT_BUS_ERROR (R317): A bus error on an engine context's internal access zeroises the context and ends its job. Engine 1 DGE, 2 AEE, and the context as AEE_JOB_END numbers it. -/
  | contextBusError (engine ctx : Nat)
  /-- KEY_ALARM (R336): A supply, clock, temperature or JTAG alarm zeroises every working key and locks KEY. 0 supply, 1 clock, 2 temperature, 3 JTAG. -/
  | keyAlarm (source : Nat)
  /-- DRBG_RESEED (R327): The DRBG is reseeded after 2^20 requests. -/
  | drbgReseed
  /-- MXT_KEY_CACHE_MISS (R335): An MXT lane fetches a missing key from KEY, stalling that lane. -/
  | mxtKeyCacheMiss (lane : Nat)
  /-- THREAD_CREATE (R346): Firmware creates a thread, which becomes READY or FLOW_HELD and takes units of pools 17 and 18. -/
  | threadCreate (hearth level flow : Nat)
  /-- THREAD_DISPATCH (R347): A free context takes the head of the most urgent non-empty ready list. The hardware context that is free. -/
  | threadDispatch (ctx : Nat)
  /-- THREAD_PREEMPT (R348): On a firmware Hearth, the least urgent running thread is preempted at its next instruction boundary. -/
  | threadPreempt (hearth : Nat)
  /-- THREAD_WAKE (R346): An awaited event makes a waiting thread READY. -/
  | threadWake (thread : Nat)
  /-- FLOW_RELEASE (R351): Firmware releases an atomic flow, and its oldest held thread becomes READY. -/
  | flowRelease (thread : Nat)
  /-- ORDERED_RELEASE (R352): A thread waits until every earlier ticket of its flow is returned, then becomes READY. -/
  | orderedRelease (thread : Nat)
  /-- THREAD_CANCEL (R357): A cancel frees a thread by its state, returns its units and reports its status. -/
  | threadCancel (thread : Nat)
  /-- DRV_TICK_BOUNDARY (R356): At a Hearth's tick boundary, due delay-list entries move to the ready lists, one per cycle. DRV_NOW at the boundary. -/
  | drvTickBoundary (hearth now : Nat)
  /-- DELAY_ENTRY_EXPIRY (R356): A delay-list entry expires, and its thread resumes, with TIMEOUT for a wait. -/
  | delayEntryExpiry (hearth : Nat)
  /-- FLOW_MODE_CHANGE (R353): A committed FLOW_MODE takes effect once the Hearth holds no flow threads. -/
  | flowModeChange (hearth : Nat)
  /-- NODE_FIRING (R361): The lowest ready graph node fires, taking input tokens and producing outputs at RET. -/
  | nodeFiring (ctx : Nat)
  /-- GRAPH_QUIESCENT (R363): With no node ready, the entry function runs from ENTRY. -/
  | graphQuiescent (ctx : Nat)
  /-- INTERRUPT_SOURCE_EVENT (R369): An edge or rising level event increments a source's COUNT, saturating with OVERFLOW. The ID, and for a private one its bank. -/
  | interruptSourceEvent (bank id : Nat)
  /-- LEVEL_REQUEST_WITHDRAW (R374): A level source withdraws its request, and the source stops being pending. The ID, and for a private one its bank. -/
  | levelRequestWithdraw (bank id : Nat)
  /-- ICU_CLAIM (R372): A read of ICU_Bb_CLAIM claims the first presented ID, or returns 1,023. -/
  | icuClaim (bank : Nat)
  /-- ICU_COMPLETE (R373): A write of an ID to ICU_Bb_COMPLETE ends its service, or is ignored. -/
  | icuComplete (bank id : Nat)
  /-- ICU_NUDGE (R366): A write to ICU_NUDGE raises a private nudge at a bank. -/
  | icuNudge (nudge bank : Nat)
  /-- ICU_RAISE (R381): Writing RAISE of a software source raises one event. -/
  | icuRaise (id : Nat)
  /-- ICU_COMMIT (R376): ICU_COMMIT commits source and watcher configuration, or refuses it as a whole for a bad target. -/
  | icuCommit
  /-- WAKE_WATCHER_FIRE (R380): An enabled watched source becomes pending in Dormant or Deep, and the watcher requests a wake. -/
  | wakeWatcherFire
  /-- FLASH_READ_INFO (R389): The flash service returns a sector's erase count, state, WORN flag and corrected reads. SECTOR of R389. -/
  | flashReadInfo (sector : Nat)
  /-- FLASH_PROGRAM (R389): The flash service starts a program of a sector, or refuses it. SECTOR, OFFSET and the bytes of BUFFER, LENGTH of them. -/
  | flashProgram (sector offset : Nat) (data : Bytes)
  /-- FLASH_ERASE (R389): The flash service starts an erase of a sector, marking it ERASE_INCOMPLETE. SECTOR of R389. -/
  | flashErase (sector : Nat)
  /-- FLASH_SUSPEND (R392): The flash service suspends the running erase, or refuses with BAD_ARG. Erase time in microseconds since the erase began or last resumed. -/
  | flashSuspend (ran : Nat)
  /-- FLASH_RESUME (R392): The flash service resumes a suspended erase, rerunning the cut pulse. How long this suspension has lasted, in microseconds. -/
  | flashResume (us : Nat)
  /-- FLASH_STATUS (R389): The flash service returns the result of the last operation. -/
  | flashStatus
  /-- FLASH_READ_CAL (R394): The flash service copies bytes of the calibration row. -/
  | flashReadCal (offset len : Nat)
  /-- FLASH_OPERATION_DONE (R391): A program or erase ends by passing or failing verify, and raises shared ID 201. The unit that fails its last verify (none: all pass; an erase is one unit), the pulses of the last unit, the wall time in microseconds. -/
  | flashOperationDone (failed : Option Nat) (pulses us : Nat)
  /-- FLASH_AUTO_RESUME (R392): Suspensions totalling 100 ms make the ROM resume the erase by itself. How long this suspension has lasted, in microseconds. -/
  | flashAutoResume (us : Nat)
  /-- FLASH_OPERATION_ABANDONED (R393): An operation reaching 260 ms of wall time is stopped with ABANDONED. The unit that a program had reached. -/
  | flashOperationAbandoned (unit : Nat)
  /-- CODE_FLASH_READ_FAULT (R386): A read-view read of a busy, suspended, execute-only, incomplete or uncorrectable location returns a bus error. Offset in the read view; `ecc` 0 clean, 1 corrected, 2 uncorrectable. -/
  | codeFlashReadFault (offset : Nat) (fetch : Bool) (ecc : Nat)
  /-- XO_UNLOCK (R387): A write of CFL_LOCK.XO_UNLOCK clears XO_LOCK only when it comes from the ROM during activation. Whether the writing instruction was fetched from the ROM. -/
  | xoUnlock (fromRom : Bool)
  /-- BOOT (R398): The ROM reads fuses, chooses the boot record, verifies a slot, records measurements, locks XO regions and jumps to firmware. The time of steps 1 to 6 in microseconds. -/
  | boot (us : Nat)
  /-- TRIAL_CONFIRM (R397): Firmware programs CONFIRM to 0 after 10 s without a fatal error, and may raise MIN_SVN. -/
  | trialConfirm
  /-- ACTIVATION_TIMEOUT (R405): An invalid image, or new firmware not resuming by 200 ms, forces a device reset. Units that fail their test again in the reset. -/
  | activationTimeout (failed : List Nat)
  /-- WDT_KICK (R403): A write of WDT_KICK reloads T1 if it is the valid key, and otherwise counts a bad kick. The value written. -/
  | wdtKick (key : Nat)
  /-- WDT_STAGE1_EXPIRY (R403): T1 expires, which raises shared ID 79 and loads the stage-two count. -/
  | wdtStage1Expiry
  /-- WDT_STAGE2_EXPIRY (R403): The stage-two count expires, which resets the device or defers while a flash operation runs. Units that fail their test again in the reset. -/
  | wdtStage2Expiry (failed : List Nat)
  /-- WDT_DEFERRED_RESET (R403): The deferring flash operation ends, and the watchdog resets the device. The deferral in microseconds, and units that fail their test again. -/
  | wdtDeferredReset (us : Nat) (failed : List Nat)
  /-- SPDM_GET_VERSION (R401): An SPDM GET_VERSION request is answered. The binding the message comes over: 0 SMBus, 1 I3C, 2 PCIe VDM, 3 DOE. -/
  | spdmGetVersion (bus : Nat)
  /-- SPDM_GET_CAPABILITIES (R401): An SPDM GET_CAPABILITIES request is answered. -/
  | spdmGetCapabilities (bus : Nat)
  /-- SPDM_NEGOTIATE_ALGORITHMS (R401): An SPDM NEGOTIATE_ALGORITHMS request selects the supported algorithms. Whether the request offers the supported algorithms. -/
  | spdmNegotiateAlgorithms (bus : Nat) (offered : Bool)
  /-- SPDM_GET_DIGESTS (R401): An SPDM GET_DIGESTS request returns the chain digests. -/
  | spdmGetDigests (bus : Nat)
  /-- SPDM_GET_CERTIFICATE (R400): An SPDM GET_CERTIFICATE request returns a certificate chain of slot 0 or 1. The part of the chain asked for. -/
  | spdmGetCertificate (bus slot offset len : Nat)
  /-- SPDM_CHALLENGE (R401): An SPDM CHALLENGE request is signed with the alias key. -/
  | spdmChallenge (bus slot : Nat)
  /-- SPDM_GET_MEASUREMENTS (R401): An SPDM GET_MEASUREMENTS request returns measurements 1 to 5. 0 the number of measurements, 255 all. -/
  | spdmGetMeasurements (bus index : Nat) (signed : Bool)
  /-- SPDM_KEY_EXCHANGE (R401): An SPDM KEY_EXCHANGE request starts a secured session. The session identifier. -/
  | spdmKeyExchange (bus ident : Nat)
  /-- SPDM_FINISH (R401): An SPDM FINISH request completes the session handshake. The verdict on the verify data. -/
  | spdmFinish (bus : Nat) (ok : Bool)
  /-- SPDM_HEARTBEAT (R401): An SPDM HEARTBEAT request keeps the session alive. -/
  | spdmHeartbeat (bus : Nat)
  /-- SPDM_KEY_UPDATE (R401): An SPDM KEY_UPDATE request updates the session keys. -/
  | spdmKeyUpdate (bus : Nat)
  /-- SPDM_END_SESSION (R401): An SPDM END_SESSION request ends the secured session. -/
  | spdmEndSession (bus : Nat)
  /-- SET_ENDPOINT_ID (R431): The MCTP Set Endpoint ID message sets the endpoint ID. The binding: 0 SMBus, 1 I3C, 2 PCIe VDM. -/
  | setEndpointId (bus eid : Nat)
  /-- GET_ENDPOINT_ID (R431): The MCTP Get Endpoint ID message returns the endpoint ID. -/
  | getEndpointId (bus : Nat)
  /-- GET_MCTP_VERSION_SUPPORT (R431): The MCTP Get MCTP Version Support message is answered. -/
  | getMctpVersionSupport (bus : Nat)
  /-- GET_MESSAGE_TYPE_SUPPORT (R431): The MCTP Get Message Type Support message returns NVMe-MI and SPDM. -/
  | getMessageTypeSupport (bus : Nat)
  /-- MCTP_MESSAGE_DISCARDED (R431): A message longer than 4,224 bytes, or one failing its integrity check, is discarded and counted in MGT_MIC_ERR. The length in bytes, and the verdict of the integrity check. -/
  | mctpMessageDiscarded (len : Nat) (checkOk : Bool)
  /-- READ_NVME_MI_DATA_STRUCTURE (R432): The NVMe-MI Read NVMe-MI Data Structure command is answered from Ember state. The command slot, and the data structure type. -/
  | readNvmeMiDataStructure (bus slot dtype : Nat)
  /-- NVM_SUBSYSTEM_HEALTH_STATUS_POLL (R432): The NVMe-MI subsystem health poll is answered. -/
  | nvmSubsystemHealthStatusPoll (bus slot : Nat)
  /-- CONTROLLER_HEALTH_STATUS_POLL (R432): The NVMe-MI controller health poll is answered. -/
  | controllerHealthStatusPoll (bus slot ctrl : Nat)
  /-- CONFIGURATION_SET (R432): The NVMe-MI Configuration Set command sets frequency, health status change or transmission unit size. -/
  | configurationSet (bus slot ident value : Nat)
  /-- CONFIGURATION_GET (R432): The NVMe-MI Configuration Get command returns a configuration value. -/
  | configurationGet (bus slot ident : Nat)
  /-- VPD_READ (R432): The NVMe-MI VPD Read command reads the 1,024 VPD bytes held in P2. -/
  | vpdRead (bus slot offset len : Nat)
  /-- VPD_WRITE (R432): The NVMe-MI VPD Write command writes the VPD bytes in P2. -/
  | vpdWrite (bus slot offset : Nat) (data : List (BitVec 8))
  /-- NVME_MI_RESET (R432): The NVMe-MI Reset command performs an NVM Subsystem Reset. -/
  | nvmeMiReset (bus slot : Nat) (failed : List Nat)
  /-- TUNNELLED_ADMIN_COMMAND (R433): A tunnelled admin command is run on the named controller, waking the device first if it is asleep. The command slot, the admin opcode and the CNTLID; run again once a wake has ended. -/
  | tunnelledAdminCommand (bus slot opcode ctrl : Nat)
  /-- RECOVERY_IMAGE_WRITE (R434): Recovery Image Write collects up to 4,096 image bytes in staging SRAM. -/
  | recoveryImageWrite (bus slot offset : Nat) (data : List (BitVec 8))
  /-- RECOVERY_COMMIT (R434): Recovery Commit writes and checks a slot, writes a trial record and resets the device. Slot A (0) or B (1); what FIRMWARE_COMMIT_REPLACE names. -/
  | recoveryCommit (bus slot target : Nat) (cert : Option (List (BitVec 8))) (profiles : List DieProfile) (failed : List Nat)
  /-- MI_UNSUPPORTED_COMMAND (R432): An absent NVMe-MI command is answered with Invalid Command Opcode. -/
  | miUnsupportedCommand (bus slot : Nat)
  /-- MI_ENDPOINT_BUSY (R432): A request that reaches a busy command slot is answered with Management Endpoint Busy. -/
  | miEndpointBusy (bus slot : Nat)
  /-- I3C_MODE_SWITCH (R457): The first I3C broadcast header followed by ENTDAA or SETDASA switches the management pins to I3C mode. The dynamic address given. -/
  | i3cModeSwitch (da : Nat)
  /-- QUIESCE_COMPLETE (R440): When no prior work of the unit remains, the unit moves to quiesced and QUIESCING clears. -/
  | quiesceComplete (unit : Nat)
  /-- SLEEP_ENTRY (R416): After the sleep conditions have held for IDLE_MS, the device resets functions, closes stripes, checkpoints and switches domains off. The time of the entry in microseconds; run again while it goes on. -/
  | sleepEntry (us : Nat)
  /-- DEEP_AFTER_EXPIRY (R415): After DEEP_AFTER_S in Dormant under SLEEP_MODE 3, DRAM is released and cartridges are unpowered into Deep. -/
  | deepAfterExpiry
  /-- WAKE_FROM_DORMANT (R418): A wake request restarts clocks and domains and resumes from the resume record, or runs the full path. Whether the resume record's CRC32C is correct; the time of the wake; units that fail their test. -/
  | wakeFromDormant (crcOk : Bool) (us : Nat) (failed : List Nat)
  /-- WAKE_FROM_DEEP (R420): A wake from Deep boots the ROM, admits cartridges, trains DRAM and recovers. -/
  | wakeFromDeep (failed : List Nat)
  /-- COLD_START (R421): When every rail is good, Ember starts, the domains come on, the ROM boots, and recovery makes the device NVMe ready. Units that fail their test as their domain starts. -/
  | coldStart (failed : List Nat)
  /-- EMBER_RAIL_LOSS (R411): The Ember detector fires, and the whole device takes a power-on reset. A rail by its row in R410: 0 VDD_EMB, 1 VDDIO_MGT, 2 VDDA_PLL. -/
  | emberRailLoss (rail : Nat)
  /-- FAST_RAIL_LOSS (R411): A fast-domain rail is lost, which switches off every fast domain and raises the supply alarm. A rail by its row in R410: 3 VDD_CORE, 4 VDD_SOC, 5 the PCIe rails, 6 VDDQ_NAND, 7 the DRAM rails. -/
  | fastRailLoss (rail : Nat)
  /-- SUPPLY_RESTORED_RESET (R411): Once every rail is good again after a fast-rail loss, a device reset with cause SUPPLY runs. Units that fail their test again. -/
  | supplyRestoredReset (failed : List Nat)
  /-- SUPPLY_GLITCH (R463): A rail falls below its good level for 50 ns or more without being lost, and raises the supply alarm. -/
  | supplyGlitch (rail : Nat)
  /-- XTAL_SWITCH (R412): After 1,024 stable crystal cycles, Ember switches to the crystal at a tick boundary. -/
  | xtalSwitch
  /-- XTAL_FAIL (R412): The crystal gives no edge for four oscillator periods, and Ember switches back and sets XTAL_FAIL. -/
  | xtalFail
  /-- THERMAL_TRIP (R424): Tj reaching the trip switches off the fast domains and cartridges, and the device enters Deep. The highest reading in degrees Celsius, and its sensor. -/
  | thermalTrip (tj : Int) (sensor : Nat)
  /-- TRIP_RECOVERY_RESET (R424): After 1 s at or below the range top minus 10 °C, a device reset with cause THERMAL_TRIP runs. The highest reading; units that fail their test again. -/
  | tripRecoveryReset (tj : Int) (failed : List Nat)
  /-- DEVICE_RESET_ABRUPT (R427): An abrupt device reset fences every function, lets issued MRAM writes complete, resets fast domains and restarts from step 2 of R421. Bits of EMB_RESET_CAUSE, 1 to 6; units that fail their test again. -/
  | deviceResetAbrupt (causes failed : List Nat)
  /-- DEVICE_RESET_ORDERLY (R427): A host reset with every port in L2/L3 Ready runs the sleep entry of R416 and ends in the SLEEP_MODE mode. As SLEEP_ENTRY. -/
  | deviceResetOrderly (us : Nat)
  /-- POWER_CYCLE (R426): The shelf controller holds every rail below reset for at least 1 s, and everything is reset. -/
  | powerCycle
  /-- THREAD_END (R346): A running firmware thread ends, returning its unit of pool 17 and releasing its atomic flow. -/
  | threadEnd (thread : Nat)
  /-- CORE_UNCORRECTABLE_ERROR (R277): An uncorrectable error in a context's registers or core memories ends the instance with SANDBOX_FAULT code 4 and degrades the core with reason HARDWARE. -/
  | coreUncorrectableError (ctx : Nat)
  /-- DEVICE_SELF_TEST_COMPLETE (R353): A short or extended Device Self-test ends, firmware commits FLOW_MODE 0 and the result is logged, possibly retiring a core. The core that the test finds failed, if one did. -/
  | deviceSelfTestComplete (failedCore : Option Nat)
  /-- SMBUS_ARP (R431): An SMBus Address Resolution Protocol command from the bus owner is answered and may assign the endpoint's SMBus address. 0 Prepare to ARP, 1 Reset Device, 2 Get UDID, 3 Assign Address; whether it names the device's UDID. -/
  | smbusArp (cmd addr : Nat) (udidOk : Bool)
  deriving DecidableEq, Repr

end Sys2Proof
end

