-- ==== Sys2Proof/Config.lean ====
section
/-! DEFINITION. What an implementation fixes and the spec leaves open: constants without a body, so that nothing can
lean on a value of theirs. -/

namespace Sys2Proof.Config

/-- PRESUMED (log 30): the LTSSM state number of the PCIe specification, which R70 points to and the spec does not
restate; the argument is the index of the state in Ltssm. -/
opaque ltssmCode : Nat → BitVec 6

/-- The body of the factory table 0x03 from offset 0x20 on, where R159 states no value: ENABLE, TRACK_STEP_MAX, the ladders
(log 31). -/
opaque factory03 : Bytes

/-- Content of the Compressed block that the lanes emit for granule data (R118: Roengor's own, deterministic; log 3). -/
opaque zstdBlock : Bytes → Bytes

/-- The 512 parity bytes that the LDPC encoder adds to a data unit of 4,096 bytes (R125 gives their number and not the code;
log 3). -/
opaque ldpcParity : Bytes → Bytes

/-- Content of the Compressed block that CXE finds at a level for a block of source, with the frame's source before it
(R302, R303: Roengor's own, deterministic; log 3). -/
opaque cxeBlock : Nat → Bytes → Bytes → Bytes

/-- The Device Serial Number of R52, which the device carries and the manual does not name (log 3). -/
opaque serialNumber : BitVec 64

/-- A byte of the DRBG: draw number and position (R327; log 3). -/
opaque drbg : Nat → Nat → Byte

/-- A byte of a device secret of the fuses: which one, and its position (log 3). -/
opaque secret : Nat → Nat → Byte

/-- A value that a service leaves open in a register of a program (R253, log 4): context, counter. -/
opaque freeWord : Nat → Nat → BitVec 64

/-- A byte of an Identify structure (`false`) or log page (`true`) of NVMe 2.1 by its number and offset, where R72 fixes no
value and R75 leaves the page to NVMe 2.1 (log 36). -/
opaque pageByte : Bool → Nat → Nat → BitVec 8

/-- A percentage whose whole is nothing: 0 Available Spare with no alive die (R197), 1 Percentage Used with no block that
counts (R448) (log 47). -/
opaque openRatio : Nat → Nat

/-- A byte of the bits by which an entry of Commands Supported and Effects reports a data transfer direction (R93; log 102):
direction, byte of the entry. -/
opaque directionByte : Nat → Nat → BitVec 8

/-- Rated program and erase cycles of a die profile (R448 names them, R142 puts them into the image; log 37). -/
opaque ratedCycles : Nat → Nat

/-- A byte of the calibration row that no rule gives (R394, log 3). -/
opaque calByte : Nat → BitVec 8

/-- A 64-bit word of code flash that no rule gives: in a sector whose erase did not pass, or in a unit whose program did not
pass (R391, R393, log 3): sector, erase count, word index. -/
opaque flashCell : Nat → Nat → Nat → BitVec 64

/-- A certificate chain of SPDM slot 0 or 1 with the alias key it may certify (R400 names the certificates and not their
bytes; log 3). -/
opaque certChain : Nat → Bytes → Bytes

/-- A byte of an SPDM response that SPDM 1.3 defines over transcripts which the spec does not restate (R401, log 3): number
of the response, position. -/
opaque spdmByte : Nat → Nat → Byte

/-- A byte of a hand-off buffer where a granule that fails its size check gave none (R127, R130; log 106): number of the granule in
the pipeline, position in the granule. -/
opaque untrustedByte : Nat → Nat → Byte

/-- A byte of the SMBus UDID of the device (R431 names SMBus ARP and not the identifier; log 3). -/
opaque udid : Nat → Byte

/-- A byte of the map key that the DRBG gave at manufacture (R171, R327; log 3): position. -/
opaque mapKey : Nat → Byte

/-- A byte of the SHA-384 of the mask ROM (R401, log 3). -/
opaque romDigest : Nat → Byte

end Sys2Proof.Config
end

