-- ==== Sys2Proof/Machine/Data.lean ====
section
/-! DEFINITION. Operations on the plain types: finite maps, byte strings, little-endian numbers (R6), byte memories in
their canonical form. -/

namespace Sys2Proof.Machine

/-! ## Finite maps -/

/-- The value at key `k`, or the default `e`. -/
def fget {α : Type} (m : FMap α) (e : α) (k : Nat) : α :=
  match m with
  | [] => e
  | (j, v) :: t => if j = k then v else fget t e k

/-- Writes the value at key `k`, keeping the keys in rising order. -/
def fset {α : Type} (m : FMap α) (k : Nat) (v : α) : FMap α :=
  match m with
  | [] => [(k, v)]
  | (j, w) :: t => if k < j then (k, v) :: (j, w) :: t else if j = k then (k, v) :: t else (j, w) :: fset t k v

/-- Changes the value at key `k`, starting from the default `e` where the key is absent. -/
def fmod {α : Type} (m : FMap α) (e : α) (k : Nat) (f : α → α) : FMap α := fset m k (f (fget m e k))

/-- The value under key `k`, if the key is present. -/
def ffind {α : Type} (m : FMap α) (k : Nat) : Option α := (m.find? (fun p => p.1 = k)).map (·.2)

/-! ## Numbers, bits and bytes -/

/-- Bit `i` of a number. -/
def bit (n i : Nat) : Bool := n.testBit i

/-- Bits `lo` to `lo + w - 1` of a number. -/
def bitsOf (n lo w : Nat) : Nat := n / 2 ^ lo % 2 ^ w

/-- A Bool as a bit. -/
def b2n (b : Bool) : Nat := if b then 1 else 0

/-- The number whose set bits are those listed. -/
def maskOf (l : List Nat) : Nat := l.foldl (fun n i => n ||| 2 ^ i) 0

/-- The bits below `w` set in a number. -/
def bitsSet (n w : Nat) : List Nat := (List.range w).filter (fun i => n.testBit i)

/-- Adds to a counter of `w` bits that saturates. -/
def satAdd (w a b : Nat) : Nat := min (a + b) (2 ^ w - 1)

/-- Little-endian bytes of a number (R6). -/
def leBytes (len n : Nat) : Bytes :=
  match len with
  | 0 => []
  | k + 1 => BitVec.ofNat 8 n :: leBytes k (n / 256)

/-- The number that little-endian bytes stand for. -/
def ofLe (b : Bytes) : Nat :=
  match b with
  | [] => 0
  | x :: t => x.toNat + 256 * ofLe t

/-- Big-endian bytes of a number. -/
def beBytes (len n : Nat) : Bytes := (leBytes len n).reverse

/-- The number that big-endian bytes stand for. -/
def ofBe (b : Bytes) : Nat := ofLe b.reverse

/-- `len` bytes at offset `off`, zero where the string has ended. -/
def slice (b : Bytes) (off len : Nat) : Bytes :=
  let t := (b.drop off).take len
  t ++ List.replicate (len - t.length) 0

/-- The little-endian field of `len` bytes at offset `off`. -/
def fieldAt (b : Bytes) (off len : Nat) : Nat := ofLe (slice b off len)

/-- A string with `v` written over it at offset `off`; bytes before it that are missing read as zero. -/
def overlay (b : Bytes) (off : Nat) (v : Bytes) : Bytes := slice b 0 off ++ v ++ b.drop (off + v.length)

/-- `n` zero bytes. -/
def zeroBytes (n : Nat) : Bytes := List.replicate n 0

/-- A string cut or padded with zeros to `n` bytes. -/
def padTo (n : Nat) (b : Bytes) : Bytes := slice b 0 n

/-- Exclusive or of two strings of bytes, the shorter padded with zeros. -/
def xorBytes (a b : Bytes) : Bytes :=
  let n := max a.length b.length
  List.zipWith (· ^^^ ·) (padTo n a) (padTo n b)

/-- Division rounded up. -/
def ceilDiv (a b : Nat) : Nat := (a + b - 1) / b

/-! ## Memories -/

/-- The byte at an address: zero where nothing is listed. -/
def mget (m : Memory) (a : Nat) : Byte :=
  match m with
  | [] => 0
  | (j, v) :: t => if j = a then v else if a < j then 0 else mget t a

/-- Writes a byte. Writing zero removes the entry, so that the canonical form is kept. -/
def mset (m : Memory) (a : Nat) (v : Byte) : Memory :=
  match m with
  | [] => if v = 0 then [] else [(a, v)]
  | (j, w) :: t =>
    if a < j then (if v = 0 then (j, w) :: t else (a, v) :: (j, w) :: t)
    else if j = a then (if v = 0 then t else (a, v) :: t)
    else (j, w) :: mset t a v

/-- `len` bytes from address `a`. -/
def mread (m : Memory) (a len : Nat) : Bytes :=
  match len with
  | 0 => []
  | k + 1 => mget m a :: mread m (a + 1) k

/-- Writes a string at address `a`. -/
def mwrite (m : Memory) (a : Nat) (b : Bytes) : Memory :=
  match b with
  | [] => m
  | x :: t => mwrite (mset m a x) (a + 1) t

/-- The canonical form of a memory: addresses strictly rising from `lo`, and no zero byte listed. -/
def memWfFrom (lo : Nat) (m : Memory) : Bool :=
  match m with
  | [] => true
  | (j, v) :: t => decide (lo ≤ j) && decide (v ≠ 0) && memWfFrom (j + 1) t

/-- The canonical form of a memory. -/
def Memory.wf (m : Memory) : Bool := memWfFrom 0 m

/-- A Bytes region as a memory from address 0. -/
def memOf (b : Bytes) : Memory := mwrite [] 0 b

/-! ## Lists -/

/-- Removes the first element that meets the test, if one does. -/
def takeFirst {α : Type} (l : List α) (p : α → Bool) : Option (α × List α) :=
  match l with
  | [] => none
  | x :: t => if p x then some (x, t) else (takeFirst t p).map (fun r => (r.1, x :: r.2))

/-- Changes every element that meets the test. -/
def mapWhere {α : Type} (l : List α) (p : α → Bool) (f : α → α) : List α := l.map (fun x => if p x then f x else x)

/-- Adds to a list of numbers used as a set, kept in rising order. -/
def setIns (l : List Nat) (n : Nat) : List Nat :=
  match l with
  | [] => [n]
  | x :: t => if n < x then n :: x :: t else if n = x then x :: t else x :: setIns t n

/-- Removes from a list of numbers used as a set. -/
def setDel (l : List Nat) (n : Nat) : List Nat := l.filter (· ≠ n)

/-- Adds or removes. -/
def setPut (l : List Nat) (n : Nat) (on : Bool) : List Nat := if on then setIns l n else setDel l n

/-- Repeats a change `n` times. -/
def iter {α : Type} (n : Nat) (f : α → α) (x : α) : α :=
  match n with
  | 0 => x
  | k + 1 => iter k f (f x)

/-- The next number of a rotation over `n` places after `last` that meets the test, if one does. -/
def rotFind (n last : Nat) (p : Nat → Bool) : Option Nat :=
  (((List.range n).map (fun i => (last + 1 + i) % n))).find? p

end Sys2Proof.Machine
end

