-- ==== Sys2Proof/Machine/Hash.lean ====
section
/-! DEFINITION. The check codes that the spec takes from published standards: CRC32C and XXH64 (PRESUMED, log 32). -/

namespace Sys2Proof.Machine

/-! ## CRC32C -/

/-- One bit of the reflected CRC with the Castagnoli polynomial. -/
def crcBit (c : BitVec 32) : BitVec 32 := if c.getLsbD 0 then (c >>> 1) ^^^ 0x82F63B78#32 else c >>> 1

/-- One byte. -/
def crcByte (c : BitVec 32) (b : Byte) : BitVec 32 := iter 8 crcBit (c ^^^ b.setWidth 32)

/-- CRC32C of a byte string. -/
def crc32c (b : Bytes) : Nat := (~~~ (b.foldl crcByte 0xFFFFFFFF#32)).toNat

/-! ## XXH64, seed 0 -/

/-- The five primes of XXH64. -/
def xp1 : BitVec 64 := 0x9E3779B185EBCA87#64
def xp2 : BitVec 64 := 0xC2B2AE3D27D4EB4F#64
def xp3 : BitVec 64 := 0x165667B19E3779F9#64
def xp4 : BitVec 64 := 0x85EBCA77C2B2AE63#64
def xp5 : BitVec 64 := 0x27D4EB2F165667C5#64

/-- One round of an accumulator. -/
def xxRound (acc lane : BitVec 64) : BitVec 64 := (acc + lane * xp2).rotateLeft 31 * xp1

/-- Merges an accumulator into the hash. -/
def xxMerge (h v : BitVec 64) : BitVec 64 := (h ^^^ xxRound 0 v) * xp1 + xp4

/-- Lane `i` of a 32-byte stripe. -/
def xxLane (b : Bytes) (i : Nat) : BitVec 64 := BitVec.ofNat 64 (fieldAt b (8 * i) 8)

/-- The stripes of 32 bytes; answers the accumulators and the bytes left over. -/
def xxStripes (fuel : Nat) (b : Bytes) (v1 v2 v3 v4 : BitVec 64) : (BitVec 64 × BitVec 64 × BitVec 64 × BitVec 64) × Bytes :=
  match fuel with
  | 0 => ((v1, v2, v3, v4), b)
  | k + 1 =>
    if b.length < 32 then ((v1, v2, v3, v4), b)
    else xxStripes k (b.drop 32) (xxRound v1 (xxLane b 0)) (xxRound v2 (xxLane b 1)) (xxRound v3 (xxLane b 2))
      (xxRound v4 (xxLane b 3))

/-- The bytes after the last stripe. -/
def xxTail (fuel : Nat) (b : Bytes) (h : BitVec 64) : BitVec 64 :=
  match fuel with
  | 0 => h
  | k + 1 =>
    if 8 ≤ b.length then xxTail k (b.drop 8) ((h ^^^ xxRound 0 (xxLane b 0)).rotateLeft 27 * xp1 + xp4)
    else if 4 ≤ b.length then
      xxTail k (b.drop 4) ((h ^^^ (BitVec.ofNat 64 (fieldAt b 0 4) * xp1)).rotateLeft 23 * xp2 + xp3)
    else match b with
      | [] => h
      | x :: t => xxTail k t ((h ^^^ (x.setWidth 64 * xp5)).rotateLeft 11 * xp1)

/-- XXH64 of a byte string. -/
def xxh64 (b : Bytes) : Nat :=
  let r := xxStripes b.length b (xp1 + xp2) xp2 0 (0 - xp1)
  let h0 : BitVec 64 :=
    if b.length < 32 then xp5
    else
      let (v1, v2, v3, v4) := r.1
      xxMerge (xxMerge (xxMerge (xxMerge
        (v1.rotateLeft 1 + v2.rotateLeft 7 + v3.rotateLeft 12 + v4.rotateLeft 18) v1) v2) v3) v4
  let h := xxTail r.2.length r.2 (h0 + BitVec.ofNat 64 b.length)
  let h := (h ^^^ (h >>> 33)) * xp2
  let h := (h ^^^ (h >>> 29)) * xp3
  (h ^^^ (h >>> 32)).toNat

end Sys2Proof.Machine
end

