-- ==== Sys2Proof/Machine/State.lean ====
section
/-! DEFINITION. The state of the SKN-4864 controller as plain data, its reset, and the reasons a step can stop.
Field docstrings name the rule of spec/ that gives the field; INVENTORY.md lists them with their widths and resets. -/

namespace Sys2Proof.Machine

/-! ## Names shared by several blocks -/

/-- The three planes of R14. -/
inductive Plane where
  | data | control | mgmt
  deriving DecidableEq, Repr

/-- The switched domains of R21 (Ember is always on), in the bit order of R430. -/
inductive Dom where
  | host | data | control | memory
  deriving DecidableEq, Repr

/-- STATE of a Manifest record, R436. -/
inductive UState where
  | alive | degraded | quiesced | retired | absent
  deriving DecidableEq, Repr

/-- REASON codes of R437, in code order 0 to 21. -/
inductive Reason where
  | none | tollgate | linkDown | rateDown | trainFail | dieUnsupported | dieMismatch | noDie
  | railMismatch | timeout | pgoodFail | removed | surpriseRemoval | prepared | rebuild
  | allChannels | engineEcc | hardware | draining | notEnabled | resetting | parent
  deriving DecidableEq, Repr

/-- The power modes of R414 with the two transient values of EMB_MODE (R429). -/
inductive PMode where
  | active | idleReady | dormant | deep | entering | waking
  deriving DecidableEq, Repr

/-- Result of a Tollgate check, R36. -/
inductive PoolState where
  | balanced | deficit | surplus | overCapacity | frozen
  deriving DecidableEq, Repr

/-- Statuses of completion entries: NVMe 2.1's names as the spec uses them, and the vendor codes of R94. -/
inductive Status where
  | success | invalidOpcode | invalidField | invalidQueueId | invalidQueueSize | invalidFwSlot
  | invalidFwImage | overlappingRange | dataSglLength | metaSglLength | sglType | sglCount
  | dataTransferError | compareFailure | unrecoveredRead | accessDenied | capacityExceeded
  | writeProtected | nsInsufficientCapacity | nsIdUnavailable | lbaOutOfRange | nsNotReady
  | sanitizeInProgress | abortRequested | internalError | controllerNotReady | fwProhibited
  | fwNeedsReset | reservationConflict | invalidNsid | nsAlreadyAttached | nsNotAttached
  | selfTestInProgress | invalidQueueDeletion | cqInvalid | nsIsPrivate | aerLimit
  | invalidLogPage | invalidFormat | featureNotChangeable
  | staleGeneration | policyInvalid | policyStale | tableCrc | imageInvalid | signatureFail
  | imageHandleInvalid | keySlotExhausted | keyTagUnbound | tongsUnitBusy | cartridgeState
  | waybillInvalid | abortedSqDeletion | invalidVector | featureNotSaveable
  | ctrlListInvalid
  deriving DecidableEq, Repr


/-- Pins and status lines that the block drives (R451 to R465). -/
inductive PinName where
  | cartPwren | cartAttn | wake | alert | clkreq | host | data | control | memory | fastTrip
  deriving DecidableEq, Repr

/-- What a media channel is told to do: the commands of R139, and the operations that the die profile defines. -/
inductive MediaKind where
  | reset | syncReset | dieReset | readId | readParameterPage | readUniqueId | setFeatures | getFeatures | lunSetFeatures
  | lunGetFeatures | volumeSelect | odtConfigure | zqLong | zqShort | readDqTraining | writeDqTraining | readStatus
  | readStatusEnhanced | read | changeColumn | program | pslcProgram | erase | readRetry | readSoft | suspend | resume
  deriving DecidableEq, Repr

/-- Response status of the NVMe-MI endpoint (R432, R434). -/
inductive MiStatus where
  | success | moreProcessing | busy | invalidCommand | invalidParameter | accessDenied | internalError
  | invalidSize
  deriving DecidableEq, Repr

/-- MCTP answers of R431. -/
inductive MctpKind where
  | eidSet | eid | versions | types | discarded | resumeReply
  deriving DecidableEq, Repr

/-- SPDM responses of R401. -/
inductive SpdmKind where
  | version | capabilities | algorithms | digests | certificate | challengeAuth | measurements
  | keyExchangeRsp | finishRsp | heartbeatAck | keyUpdateAck | endSessionAck | error
  deriving DecidableEq, Repr

/-- Statuses of a cancel (R357). -/
inductive CancelKind where
  | beforeDispatch | waiting | running | noThread
  deriving DecidableEq, Repr

/-- What leaves the device at a command: the answers to whoever asked, and what the pins and links carry. -/
inductive Output where
  | readData (v : Nat)
  | unsupportedRequest
  | busError (addr : Nat)
  | stalled
  | cqe (c : CmdRef) (st : Status) (dnr : Bool) (dw0 dw1 sqhd : Nat) (phase : Bool)
  | msix (fix vec addr data : Nat)
  | intx (fix : Nat)
  | linkBandwidth (port : Nat)
  | aen (fix aeType info logPage : Nat)
  | toHost (c : CmdRef) (pos : Nat) (bytes : List (BitVec 8))
  | toHostMeta (c : CmdRef) (pos : Nat) (bytes : List (BitVec 8))
  | hostWrite (fix addr : Nat) (bytes : List (BitVec 8))
  | emitted (waybill offset : Nat) (bytes : List (BitVec 8))
  | mailbox (ring seq ty unit : Nat) (payload : List (BitVec 8))
  | doorbell (ring : Nat)
  | pin (name : PinName) (index : Nat) (level : Bool)
  | claim (bank id : Nat)
  | present (bank id : Nat)
  | flashStatus (x1 : Nat)
  | flashData (bytes : List (BitVec 8))
  | cancelled (outcome : CancelKind)
  | tongsRecord (bytes : List (BitVec 8))
  | mctp (kind : MctpKind) (value : Nat)
  | arp (bytes : List (BitVec 8))
  | mi (status : MiStatus) (bytes : List (BitVec 8))
  | spdm (kind : SpdmKind) (bytes : List (BitVec 8))
  | mediaCmd (kind : MediaKind) (die block : Nat)
  | readOffsets (die block : Nat) (offsets : List Int)
  | codewords (die block pu : Nat) (words : List (List (BitVec 8)))
  | blockInErase (die block : Nat)
  deriving DecidableEq, Repr

/-! ## Ember clock, host time and the accounting epoch -/
/-- The accounting epoch of R38 and the times of R222. -/
structure Clock where
  /-- epoch accumulator, adds 768 modulo 1,000 (R38) -/
  accum : Nat := 0
  /-- accounting epoch number, shown by TOL_EPOCH (R38) -/
  epoch : Nat := 1
  /-- ticks of the 32.768 kHz clock counted at epoch boundaries since power-on (R38) -/
  ticks : Nat := 0
  /-- the Timestamp in ms and the tick at which the host set it (R222) -/
  stamp : Option (Nat × Nat) := none
  /-- TIME_LAST in ms, written at each checkpoint (R222) -/
  timeLast : Nat := 0
  /-- TIME_LAST as it stood at power-up, in ms (R222) -/
  timeBase : Nat := 0
  /-- a discarded BAR2 write was recorded in this epoch (R26) -/
  discardLogged : Bool := false
  deriving DecidableEq, Repr


/-! ## The Tollgate -/
/-- What one function has of one E pool (R59, R71). -/
structure Share where
  /-- units of the pool the function holds (R71) -/
  held : Nat := 0
  /-- its share in the current epoch (R59) -/
  share : Nat := 0
  deriving DecidableEq, Repr

/-- One waiting or granted request for units (R60). -/
structure Req where
  /-- requesting function (R60) -/
  fix : Nat := 0
  /-- units asked for (R60) -/
  n : Nat := 0
  /-- the holder of the request (R60) -/
  who : Waiter := .waybill 0
  deriving DecidableEq, Repr

/-- One Tollgate pool record (R36) with its share machinery (R59, R60). -/
structure Pool where
  /-- ISSUED (R36) -/
  issued : Nat := 0
  /-- RETURNED (R36) -/
  returned : Nat := 0
  /-- LOST, saturating (R36) -/
  lost : Nat := 0
  /-- HELD, counted by the holders (R36) -/
  held : Nat := 0
  /-- CAPACITY (R35) -/
  capacity : Nat := 0
  /-- STATE of the last check (R36) -/
  state : PoolState := .frozen
  /-- CHECK_EPOCH (R36) -/
  checkEpoch : Nat := 0
  /-- FIRST_VIOLATION (R36) -/
  firstViolation : Nat := 0
  /-- VIOLATIONS, saturating (R36) -/
  violations : Nat := 0
  /-- the pool's TOL_VIOLATED bit and VIOLATED flag (R42) -/
  violated : Bool := false
  /-- ISSUED of the record, as of CHECK_EPOCH (R36) -/
  recIssued : Nat := 0
  /-- RETURNED of the record (R36) -/
  recReturned : Nat := 0
  /-- LOST of the record (R36) -/
  recLost : Nat := 0
  /-- HELD of the record (R36) -/
  recHeld : Nat := 0
  /-- CAPACITY of the record once checked (R36) -/
  recCapacity : Nat := 0
  /-- rotation pointer ROT (R59) -/
  rot : Nat := 0
  /-- functions with one extra unit in this epoch (X) (R59) -/
  extra : Nat := 0
  /-- function the round robin served last (R60) -/
  lastServed : Nat := 1023
  /-- units and share per function (R71) -/
  shares : FMap Share := []
  /-- waiting requests in the order made (R60) -/
  waiting : List Req := []
  /-- issued requests not yet taken up by their holders (R60) -/
  granted : List Req := []
  deriving DecidableEq, Repr

/-- The TOL window (R42). -/
structure Tol where
  /-- TOL_CTRL.AEN_EN (R42) -/
  aenEn : Bool := true
  /-- TOL_CTRL.MGT_EN (R42) -/
  mgtEn : Bool := true
  /-- TOL_DEFICIT: pools whose last check gave DEFICIT (R42) -/
  deficit : List Nat := []
  /-- TOL_SURPLUS (R42) -/
  surplus : List Nat := []
  /-- TOL_CHECKED (R42) -/
  checked : List Nat := []
  /-- the 32 pools (R36) -/
  pools : FMap Pool := []
  deriving DecidableEq, Repr


/-! ## Mailbox rings, hand-off buffers and the register bridge -/
/-- One 64-byte mailbox message (R16). -/
structure Msg where
  /-- SEQ (R16) -/
  seq : Nat := 0
  /-- TYPE (R16) -/
  ty : Nat := 0
  /-- FLAGS bit 0 (R16) -/
  urgent : Bool := false
  /-- UNIT_ID (R16) -/
  unit : Nat := 0
  /-- PAYLOAD (R16) -/
  payload : List (BitVec 8) := []
  deriving DecidableEq, Repr

/-- One of the six mailbox rings (R16, R17). -/
structure MRing where
  /-- SEQ of the next message (R16) -/
  next : Nat := 1
  /-- claimed slots, oldest first (R17) -/
  slots : List Msg := []
  /-- sends stalled on the claim (R17) -/
  stalled : List Msg := []
  deriving DecidableEq, Repr

/-- One of the 256 hand-off buffers (R18). -/
structure Handoff where
  /-- current owner (R18) -/
  owner : Plane := .data
  /-- a unit of pool 16 is issued for it (R131) -/
  inUse : Bool := false
  /-- the Waybill it belongs to (R129) -/
  wb : Nat := 0
  /-- 0 of firmware, 1 input of an instance, 2 output of an instance (R238) -/
  kind : Nat := 0
  /-- contents (R18) -/
  bytes : List (BitVec 8) := []
  /-- extent of the first byte (R252) -/
  extent : Nat := 0
  /-- byte offset of the first byte in its extent (R252) -/
  offset : Nat := 0
  deriving DecidableEq, Repr

/-- One access on the register bridge (R19). -/
structure Access where
  /-- issuing core, with whether it runs journal firmware, or BAR2 of a port (R19) -/
  source : Source := .core 0 false
  /-- internal address (R19) -/
  addr : Nat := 0
  /-- 64-bit access (R19) -/
  wide : Bool := false
  /-- write (posted) or read (R19) -/
  isWrite : Bool := false
  /-- data of a write (R19) -/
  data : Nat := 0
  deriving DecidableEq, Repr

/-- One direction of the register bridge (R19). -/
structure Lane where
  /-- accesses in issue order (R19) -/
  queue : List Access := []
  /-- accesses whose source stalls on a full queue (R19) -/
  stalled : List Access := []
  deriving DecidableEq, Repr

/-- The plane mailbox path of R15. -/
structure Fabric where
  /-- rings, in the order of R367 (R16) -/
  rings : FMap MRing := []
  /-- hand-off buffers (R18) -/
  handoff : FMap Handoff := []
  /-- bridge directions, keyed as the rings (R19) -/
  bridge : FMap Lane := []
  /-- MRAM bytes written through the bridge beside the structures below (R176) -/
  mram : Memory := []
  /-- control-plane DRAM bytes written by cores (R29) -/
  dram : Memory := []
  /-- upper words latched by a lower-word read, by internal address (R9) -/
  latch : FMap Nat := []
  /-- lower words held until the upper word is written (R9) -/
  heldLow : FMap Nat := []
  deriving DecidableEq, Repr


/-! ## Host link -/

/-- Link states used by the rules; their LTSSM numbers are the PCIe specification's (Config.ltssmCode). -/
inductive Ltssm where
  | detect | polling | configuration | l0 | recovery | l1 | l11 | l12 | l23
  deriving DecidableEq, Repr
/-- One host port (R47, R48, R53, R70). -/
structure Port where
  /-- HLK_Pn_STATUS.LTSSM (R70) -/
  ltssm : Ltssm := .detect
  /-- RATE (R70) -/
  rate : Nat := 0
  /-- WIDTH (R70) -/
  width : Nat := 0
  /-- FLIT (R70) -/
  flit : Bool := false
  /-- L0P_WIDTH (R70) -/
  l0pWidth : Nat := 0
  /-- DOWNGRADED (R70) -/
  downgraded : Bool := false
  /-- HLK_Pn_RECOVERY (R70) -/
  recovery : Nat := 0
  /-- HLK_Pn_FEC_UNCORR (R70) -/
  fecUncorr : Nat := 0
  /-- highest rate the device tries now; lowered by each downgrade (R47) -/
  cap : Nat := 6
  /-- times in microseconds of Recovery entries at the present rate (R47) -/
  recTimes : List Nat := []
  /-- times of FEC-uncorrectable flits at the present rate (R47) -/
  fecTimes : List Nat := []
  /-- PERSTn_N asserted (low) (R54) -/
  perst : Bool := true
  /-- SR-IOV VF Enable (R63) -/
  vfEnable : Bool := false
  /-- SR-IOV NumVFs (R55) -/
  numVfs : Nat := 0
  /-- a hot reset of the port is under way (R63) -/
  hotReset : Bool := false
  /-- System Page Size of the SR-IOV capability, in the coding of PCIe: 1 for 4 KiB (R57) -/
  pageSize : Nat := 1
  /-- addresses in the VF BARs 0/1 and 4/5 (R57) -/
  vfBar0 : Nat := 0
  vfBar4 : Nat := 0
  /-- routing ID that the host has given the port's PF (R55) -/
  rid : Nat := 0
  deriving DecidableEq, Repr

/-- The HLK window (R70). -/
structure Hlk where
  /-- staged MODE (R70) -/
  mode : Nat := 0
  /-- staged MAX_RATE (R70) -/
  maxRate : Nat := 6
  /-- active MODE (R44) -/
  modeA : Nat := 0
  /-- active MAX_RATE (R70) -/
  maxRateA : Nat := 6
  /-- MODE stored in parameter sector P2 (R44) -/
  stored : Nat := 0
  /-- the two ports (R43) -/
  ports : FMap Port := []
  deriving DecidableEq, Repr


/-! ## Functions, queues and the NVMe controllers -/
/-- One MSI-X vector with its moderation (R85 to R89). -/
structure Vec where
  /-- Vector Control mask bit (R471) -/
  masked : Bool := true
  /-- PBA bit (R89) -/
  pba : Bool := false
  /-- Message Address (R471) -/
  addr : Nat := 0
  /-- Message Data (R471) -/
  data : Nat := 0
  /-- Coalescing Disable (R86) -/
  noCoalesce : Bool := false
  /-- unsignalled entries (R86) -/
  unsignalled : Nat := 0
  /-- the moderation timer runs (R86) -/
  timer : Bool := false
  /-- entries written in this epoch (R) (R87) -/
  entries : Nat := 0
  /-- adaptive T in microseconds (R87) -/
  adaptive : Option Nat := none
  /-- consecutive pinned epochs (R87) -/
  run : Nat := 0
  /-- QEN_SEL_PINNED (R111) -/
  pinned : Nat := 0
  deriving DecidableEq, Repr

/-- A submission queue context (R79, R111). -/
structure Sq where
  /-- base address (R111) -/
  base : Nat := 0
  /-- entries (R111) -/
  size : Nat := 0
  /-- last doorbell value (R111) -/
  tail : Nat := 0
  /-- next entry to fetch (R111) -/
  head : Nat := 0
  /-- its completion queue (R76) -/
  cqid : Nat := 0
  /-- ready bit (R79) -/
  ready : Bool := false
  /-- entries taken in the present arbitration burst (R79) -/
  burst : Nat := 0
  deriving DecidableEq, Repr

/-- A completion queue context (R79, R111). -/
structure Cq where
  /-- base address (R111) -/
  base : Nat := 0
  /-- entries (R111) -/
  size : Nat := 0
  /-- next entry to post (R111) -/
  tail : Nat := 0
  /-- last doorbell value (R111) -/
  head : Nat := 0
  /-- phase tag of the next entry (R111) -/
  phase : Bool := true
  /-- MSI-X vector (R111) -/
  vector : Nat := 0
  /-- Interrupts Enabled, as NVMe 2.1 gives the create (R73) -/
  ien : Bool := true
  /-- completions that wait for room in a full queue (R80) -/
  held : List (CmdRef × Status × Nat × Nat) := []
  deriving DecidableEq, Repr

/-- The features of R75 at their defaults. -/
structure Features where
  /-- Arbitration Burst (R79) -/
  burst : Nat := 3
  /-- Temperature Threshold of the Composite Temperature, over and under, in kelvin (R75) -/
  tempOver : Nat := 0xFFFF
  tempUnder : Nat := 0
  /-- Error Recovery (R75) -/
  errRecovery : Nat := 0
  /-- Aggregation Threshold H (R86) -/
  aggThr : Nat := 0
  /-- Aggregation Time (R86) -/
  aggTime : Nat := 0
  /-- Asynchronous Event Configuration (R75) -/
  asyncCfg : Nat := 0
  /-- Host Identifier (R75) -/
  hostId : Nat := 0
  /-- Reservation Notification Mask (R75) -/
  resvMask : FMap Nat := []
  deriving DecidableEq, Repr

/-- One PCIe function and its controller (R55 to R67, R71 to R82). -/
structure Fn where
  /-- function epoch (R64) -/
  epoch : Nat := 1
  /-- RESETTING (R71) -/
  resetting : Bool := false
  /-- FNM_SEL_LAST_RESET (R71) -/
  lastResetUs : Nat := 0
  /-- FNM_SEL_RESETS (R71) -/
  resets : Nat := 0
  /-- FNM_SEL_FENCE_WORK: pool 31 units held (R71) -/
  fence : Nat := 0
  /-- old-epoch items awaiting their squash (R65) -/
  oldItems : List Waiter := []
  /-- the reset under way is not a controller reset by CC.EN (R65) -/
  flr : Bool := false
  /-- counted active this epoch (R71) -/
  active : Bool := false
  /-- CC.EN (R473) -/
  ccEn : Bool := false
  /-- CSTS.RDY (R58) -/
  rdy : Bool := false
  /-- CSTS.CFS (R473) -/
  cfs : Bool := false
  /-- CSTS.SHST (R472) -/
  shst : Nat := 0
  /-- submission fetch stopped by a shutdown (R472) -/
  noFetch : Bool := false
  /-- AQA.ASQS, 0-based (R473) -/
  asqs : Nat := 0
  /-- AQA.ACQS, 0-based (R473) -/
  acqs : Nat := 0
  /-- ASQ (R473) -/
  asq : Nat := 0
  /-- ACQ (R473) -/
  acq : Nat := 0
  /-- CC.MPS (R473) -/
  mps : Nat := 0
  /-- CC.CSS, CC.AMS and CC.SHN (R472, R473) -/
  css : Nat := 0
  ams : Nat := 0
  shn : Nat := 0
  /-- Interrupt Mask of NVMe 2.1, for MSI and INTx (R72) -/
  intMask : Nat := 0
  /-- the function is in D0 (R53) -/
  d0 : Bool := true
  /-- MSI-X Enable (R471) -/
  msixEn : Bool := false
  /-- MSI-X Function Mask (R471) -/
  fnMask : Bool := false
  /-- MSI Enable of a PF (R52) -/
  msiEn : Bool := false
  /-- MSI Message Address of a PF (R471) -/
  msiAddr : Nat := 0
  /-- MSI Message Data of a PF (R471) -/
  msiData : Nat := 0
  /-- INTx Disable of a PF (R52) -/
  intxDis : Bool := false
  /-- addresses in BAR0/1, BAR2/3 and BAR4/5 of a PF (R57) -/
  bar0 : Nat := 0
  bar2 : Nat := 0
  bar4 : Nat := 0
  /-- Max_Payload_Size that the host has set, in bytes (R49) -/
  maxPayload : Nat := 128
  /-- Max_Read_Request_Size that the host has set, in bytes (R49) -/
  maxRead : Nat := 512
  /-- Enable Relaxed Ordering (R50) -/
  relaxed : Bool := true
  /-- a message of MSI or INTx that could not be sent pends (R85, R89) -/
  msgPending : Bool := false
  /-- I/O Submission and Completion Queue Entry Size of CC (R473) -/
  iosqes : Nat := 0
  iocqes : Nat := 0
  /-- MSI-X vectors (R85) -/
  vecs : FMap Vec := []
  /-- submission queues by QID (R79) -/
  sqs : FMap (Option Sq) := []
  /-- completion queues by QID (R79) -/
  cqs : FMap (Option Cq) := []
  /-- SQ the round robin served last (R79) -/
  lastSq : Nat := 0
  /-- features (R75) -/
  feat : Features := {}
  /-- outstanding Asynchronous Event Requests (R443) -/
  aers : List CmdRef := []
  /-- events waiting for a request: type, information, log page (R443) -/
  events : List (Nat × Nat × Nat) := []
  /-- vendor event values posted and not yet read (R443) -/
  merged : List Nat := []
  /-- Changed Namespace List (R75) -/
  changedNs : List Nat := []
  /-- reservation notifications not yet read: type and NSID (R75) -/
  resvLog : List (Nat × Nat) := []
  /-- the Composite Temperature is past a threshold of the controller (R75) -/
  tempPast : Bool := false
  /-- count of reservation notifications (R75) -/
  resvCount : Nat := 0
  deriving DecidableEq, Repr

/-- A deficit round robin of R62. -/
structure Drr where
  /-- function whose turn it is (R62) -/
  cur : Nat := 0
  /-- bytes left of its quantum (R62) -/
  deficit : Nat := 0
  deriving DecidableEq, Repr

/-- The QEN window (R111) and the fetch engine (R79). -/
structure Qen where
  /-- QEN_SEL.FIX (R111) -/
  selFix : Nat := 0
  /-- QEN_SEL.QID (R111) -/
  selQid : Nat := 0
  /-- QEN_CTX_HIT (R111) -/
  ctxHit : Nat := 0
  /-- QEN_CTX_MISS (R111) -/
  ctxMiss : Nat := 0
  /-- QEN_DB_INVALID (R111) -/
  dbInvalid : Nat := 0
  /-- QEN_MOD_EVENTS (R111) -/
  modEvents : Nat := 0
  /-- contexts on chip, most recently used first: (FIX, QID) (R79) -/
  cached : List (Nat × Nat) := []
  /-- the fetch engine's deficit round robin (R62) -/
  drr : Drr := {}
  /-- fetch stopped on every function by an activation (R404) -/
  pausedAct : Bool := false
  deriving DecidableEq, Repr

/-- The FNM window (R71). -/
structure Fnm where
  /-- FNM_SEL.FIX (R71) -/
  sel : Nat := 0
  /-- FNM_ACTIVE.COUNT (R71) -/
  activeCount : Nat := 0
  /-- functions by FIX (R55) -/
  fns : FMap Fn := []
  deriving DecidableEq, Repr


/-! ## NVM subsystem: commands in flight, namespaces, policy tables, images of firmware in download -/

/-- What an outstanding command still waits for. -/
inductive Job where
  | plain | write | read | compare | verify | clear | compute (wb : Nat) | share (pool : Nat)
  | imageUnload (slot : Nat) | keyRelease (slot : Nat) | keyUnwrap (slot : Nat)
  | tongsRelease (unit : Nat) | tongsWrite (unit : Nat) | format (nsid : Nat) | formatAll
  | nsCreate (nsid : Nat) | nsDelete (nsid : Nat) | sanitize | fwSlot | fwActivate
  | prepare (group : Nat) | sqDelete (qid : Nat) | cqDelete (qid : Nat) | aer
  deriving DecidableEq, Repr
/-- A fetched command that has no completion yet (R80). -/
structure Cmd where
  /-- function, queue and command identifier (R80) -/
  ref : CmdRef := ⟨0, 0, 0⟩
  /-- function epoch at fetch (R64) -/
  epoch : Nat := 0
  /-- its row has been run (R82) -/
  ran : Bool := false
  /-- it has started changing media or running a program (R82) -/
  started : Bool := false
  /-- what it waits for (R80) -/
  job : Job := .plain
  /-- granules, stripes or records still outstanding (R124) -/
  waits : Nat := 0
  /-- status so far (first failure stands) (R80) -/
  status : Status := .success
  /-- Dword 0 of the completion (R80) -/
  dw0 : Nat := 0
  /-- host data kept for Compare and for a command that waits (R74) -/
  data : List (BitVec 8) := []
  /-- metadata kept for Compare (R74) -/
  info : List (BitVec 8) := []
  /-- fields kept for a command that waits (R60) -/
  args : List Nat := []
  /-- commands that have to end before it completes (R332) -/
  after : List CmdRef := []
  deriving DecidableEq, Repr

/-- Reservation of a namespace (R74, NVMe 2.1). -/
structure Resv where
  /-- generation counter (R74) -/
  gen : Nat := 0
  /-- reservation type (R74) -/
  rtype : Nat := 0
  /-- holding host, numbered by Dev.hostOf (R74) -/
  holder : Nat := 0
  /-- Persist Through Power Loss (R74) -/
  ptpl : Bool := false
  /-- registrants: host, controller and key (R74) -/
  keys : List (Nat × Nat × Nat) := []
  deriving DecidableEq, Repr

/-- A namespace table record (R183) and its subsystem state. -/
structure Ns where
  /-- LBAF (R183) -/
  lbaf : Nat := 0
  /-- metadata inline with each LBA (FLBAS bit 4) (R74) -/
  extended : Bool := false
  /-- READ_ONLY (R183) -/
  readOnly : Bool := false
  /-- KPIO (R183) -/
  kpio : Bool := false
  /-- FORMAT_PENDING (R183) -/
  formatPending : Bool := false
  /-- NSZE_GRANULES (R183) -/
  granules : Nat := 0
  /-- ROOT_FIRST (R183) -/
  rootFirst : Nat := 0
  /-- ROOT_COUNT (R183) -/
  rootCount : Nat := 0
  /-- MAPPED (R183) -/
  mapped : Nat := 0
  /-- MAPPED_UNITS (R183) -/
  mappedUnits : Nat := 0
  /-- COUNT_SEQ (R183) -/
  countSeq : Nat := 0
  /-- NSZE (R183) -/
  nsze : Nat := 0
  /-- controllers it is attached to (R73) -/
  attached : List Nat := []
  /-- KEY_SERIAL of its media key (R334) -/
  mediaKey : Nat := 0
  /-- its media key, 64 bytes (R334) -/
  key : Bytes := []
  /-- MAPPED and MAPPED_UNITS as written at the last checkpoint (R183) -/
  counted : Nat × Nat := (0, 0)
  /-- may be attached to several controllers (NMIC of NVMe 2.1) (R73) -/
  shared : Bool := false
  /-- the create is complete (R476) -/
  ready : Bool := false
  /-- a Namespace Management delete runs (R476) -/
  deleting : Bool := false
  /-- reservation (R74) -/
  resv : Resv := {}
  deriving DecidableEq, Repr

/-- A firmware image as the ROM's checks see it (R395). -/
structure FwImage where
  /-- IMAGE_LEN (R395) -/
  len : Nat := 0
  /-- VERSION (R395) -/
  version : Nat := 0
  /-- SVN (R395) -/
  svn : Nat := 0
  /-- FLAGS.REQUIRES_RESET (R395) -/
  requiresReset : Bool := false
  /-- FLAGS.RAISE_FLOOR (R395) -/
  raiseFloor : Bool := false
  /-- ENTRY (R395) -/
  entry : Nat := 0
  /-- XO (R395) -/
  xo : List (Nat × Nat) := []
  /-- its bytes, IMAGE_LEN of them (R395) -/
  bytes : Bytes := []
  /-- SHA-384 of bytes 0 to SIG_OFF - 1 (R395) -/
  digest : Bytes := []
  /-- its chain and signature verify (R395) -/
  isSigned : Bool := false
  /-- die profile numbers it carries (R142) -/
  profiles : List DieProfile := []
  deriving DecidableEq, Repr

/-- The firmware download buffer (R402). -/
structure FwBuf where
  /-- pieces held: offset and length (R402) -/
  pieces : List (Nat × Nat) := []
  /-- buffer contents (R402) -/
  bytes : Memory := []
  deriving DecidableEq, Repr

/-- Device Self-test (R73, R353). -/
structure SelfTest where
  /-- 0 none, 1 short, 2 extended (R73) -/
  running : Nat := 0
  /-- the controller that started it (R73) -/
  fix : Nat := 0
  /-- log: kind and result code, newest first (R75) -/
  results : List (Nat × Nat) := []
  deriving DecidableEq, Repr

/-- An Error Information entry (R72). -/
structure ErrInfo where
  /-- error count of its controller (R72) -/
  count : Nat := 0
  /-- the command (R72) -/
  ref : CmdRef := ⟨0, 0, 0⟩
  /-- its status (R72) -/
  status : Status := .success
  deriving DecidableEq, Repr

/-- The NVM subsystem. -/
structure Nvm where
  /-- namespaces available, host I/O admitted (step 6 of R194) (R421) -/
  ready : Bool := false
  /-- neither superblock valid (R195) -/
  noSuperblock : Bool := false
  /-- fetched commands in order of fetch (R80) -/
  cmds : List Cmd := []
  /-- namespaces by NSID (R183) -/
  nss : FMap (Option Ns) := []
  /-- 0 none, 1 Crypto Erase, 2 Block Erase in progress (R91) -/
  sanitize : Nat := 0
  /-- SSTAT of the Sanitize Status log: 0 never, 1 completed, 2 in progress (R75) -/
  sanStatus : Nat := 0
  /-- Command Dword 10 of the last Sanitize (R75) -/
  sanAction : Nat := 0
  /-- 0 none, 1 started commands and instances are to end, 2 the erase runs (R91) -/
  sanPhase : Nat := 0
  /-- Critical Warning bits of the SMART log (R40) -/
  critical : List Nat := []
  /-- Error Information entries of every controller, newest first (R72) -/
  errors : List ErrInfo := []
  /-- Error Information entries each controller has written (R72) -/
  errCounts : FMap Nat := []
  /-- Host Read Commands of the SMART log (R75) -/
  readCmds : Nat := 0
  /-- Host Write Commands of the SMART log (R75) -/
  writeCmds : Nat := 0
  /-- active policy tables by TABLE_ID (absent: the factory table) (R96) -/
  policy : FMap (Option Bytes) := []
  /-- tables stored and awaiting activation (R97) -/
  stored : FMap (Option Bytes) := []
  /-- firmware download buffer (R402) -/
  fwBuf : FwBuf := {}
  /-- a Firmware Commit in progress (R402) -/
  fwBusy : Option CmdRef := none
  /-- its Commit Action (R402) -/
  fwAction : Nat := 0
  /-- its slot: 0 A, 1 B (R402) -/
  fwSlot : Nat := 0
  /-- the image that the Firmware Commit writes (R402) -/
  fwImage : Option FwImage := none
  /-- Device Self-test (R73) -/
  selfTest : SelfTest := {}
  /-- Data Units Read (granules read for the host) (R75) -/
  unitsRead : Nat := 0
  /-- host bytes written, for Data Units Written of the SMART log (R75) -/
  bytesWritten : Nat := 0
  /-- Media and Data Integrity Errors of the SMART log (R75) -/
  mediaErrors : Nat := 0
  deriving DecidableEq, Repr


/-! ## Write and read pipelines -/

/-- A granule entry of the map (R169); none is UNMAPPED. -/
structure GEntry where
  /-- physical granule address of R168 -/
  pga : Nat
  /-- STORED_UNITS -/
  units : Nat
  deriving DecidableEq, Repr

/-- Where a granule stands in the write pipeline (R112, R116, R123). -/
inductive WStage where
  | locked | credit | merge | compress | encrypt | parity | qlcCopy | program | journal | done
  deriving DecidableEq, Repr

/-- Where a granule stands in the read pipeline (R113, R126). -/
inductive RStage where
  | lookup | credit | media | decode | rebuild | decrypt | decompress | deliver | done | lost
  deriving DecidableEq, Repr

/-- What a granule read is for; `repair` is the background lane's reading of a granule that failed its checks (R130). -/
inductive RDest where
  | host | compare | verify | merge (wid : Nat) | divert (wb : Nat) | move (wid : Nat) | repair
  deriving DecidableEq, Repr
/-- A granule in the write pipeline. -/
structure WGran where
  /-- pipeline number (R112) -/
  id : Nat := 0
  /-- its command (R112) -/
  ref : CmdRef := ⟨0, 0, 0⟩
  /-- function epoch (R64) -/
  epoch : Nat := 0
  /-- MAP_SET cause: 0 host write, 1 GC, 2 fold, 3 refresh, 4 rebuild (R178) -/
  cause : Nat := 0
  /-- GRANULE_TAG (R117) -/
  gtag : Nat := 0
  /-- KEY_REF (R117) -/
  keyRef : Nat := 0
  /-- serial of the XTS key (R325) -/
  keySerial : Nat := 0
  /-- LBA positions the write covers (R115) -/
  cover : List Nat := []
  /-- data bytes, merged (R115) -/
  data : Bytes := []
  /-- metadata bytes (R115) -/
  info : Bytes := []
  /-- stage (R112) -/
  stage : WStage := .locked
  /-- lane that computes it (R114) -/
  lane : Option Nat := none
  /-- lane of the stage behind, which holds its output until the next stage takes it (R132) -/
  holds : Option Nat := none
  /-- XXH64 of its data and metadata (R120) -/
  check : Nat := 0
  /-- XTS key of its region, 64 bytes (R121) -/
  key : Bytes := []
  /-- its first map change is durable: other writes are no longer locked out (R116) -/
  mapped : Bool := false
  /-- it is laid again after its first map change was issued, and that copy is moved (R214) -/
  relay : Bool := false
  /-- granules that a clearing write unmaps from `gtag` on; 0 for one that writes (R187) -/
  clearN : Nat := 0
  /-- zeros of a clearing write over a part of the granule, which an UNMAPPED one does not take (R187) -/
  zeroes : Bool := false
  /-- pSLC path (R123) -/
  pslc : Bool := false
  /-- FRAME_LEN (R119) -/
  frame : Nat := 0
  /-- FORM: 0 COMPRESSED, 1 STORED (R119) -/
  form : Nat := 0
  /-- STORED_UNITS (R117) -/
  units : Nat := 0
  /-- WRITE_SEQ (R184) -/
  seq : Nat := 0
  /-- the entry as it stood at stage 2 (C of the MAP_SET) (R184) -/
  old : Option GEntry := none
  /-- where it is placed (R168) -/
  pga : Nat := 0
  /-- units reserved under R199 (R199) -/
  reserve : Nat := 0
  /-- holds a pool 2 credit (R131) -/
  hasW : Bool := false
  /-- holds a pool 4 unit (R131) -/
  hasQ : Bool := false
  deriving DecidableEq, Repr


/-- How one codeword stands on the ladder of R126. -/
structure CwState where
  /-- step 1 to 5 of R126 -/
  step : Nat
  /-- rung of step 2, or soft bits of step 3 -/
  rung : Nat
  /-- decoded -/
  ok : Bool
  deriving DecidableEq, Repr
/-- A granule in the read pipeline. -/
structure RGran where
  /-- pipeline number (R113) -/
  id : Nat := 0
  /-- its command (R113) -/
  ref : CmdRef := ⟨0, 0, 0⟩
  /-- function epoch (R64) -/
  epoch : Nat := 0
  /-- granule the map sent the read to (R117) -/
  gtag : Nat := 0
  /-- its entry (R169) -/
  entry : GEntry := ⟨0, 0⟩
  /-- key reference of the command (R128) -/
  keyRef : Nat := 0
  /-- what the read is for (R113) -/
  dest : RDest := .host
  /-- stage (R113) -/
  stage : RStage := .credit
  /-- its codewords (R126) -/
  cws : List CwState := []
  /-- lane that computes it (R114) -/
  lane : Option Nat := none
  /-- lane of the stage behind, which holds its output until the next stage takes it (R132) -/
  holds : Option Nat := none
  /-- key that its reference resolved to when it started: serial and bytes (R90, R121) -/
  key : Option (Nat × Bytes) := none
  /-- data bytes that decompression gave (R127) -/
  data : Bytes := []
  /-- metadata bytes that it gave (R127) -/
  info : Bytes := []
  /-- its media read holds a unit of pool 13 (R131) -/
  tag : Bool := false
  /-- holds a pool 3 credit (R131) -/
  hasR : Bool := false
  /-- reconstructed at step 4 (R127) -/
  rebuilt : Bool := false
  /-- its checks have failed once: some true for a size failure, some false for another (R127, R130) -/
  checkFail : Option Bool := none
  /-- first byte wanted within the granule (R129) -/
  first : Nat := 0
  /-- bytes wanted (R129) -/
  count : Nat := 0
  /-- position of its bytes in the command's data (R128) -/
  hostPos : Nat := 0
  deriving DecidableEq, Repr

/-- A stored granule on the media: its clear header and what the encrypted region holds (R117). -/
structure Stored where
  /-- GRANULE_TAG (R117) -/
  gtag : Nat := 0
  /-- WRITE_SEQ (R117) -/
  seq : Nat := 0
  /-- KEY_REF (R117) -/
  keyRef : Nat := 0
  /-- serial of the key the region is encrypted under (R121) -/
  keySerial : Nat := 0
  /-- that key, 64 bytes (R121) -/
  key : Bytes := []
  /-- XXH64 (R117, R120) -/
  check : Nat := 0
  /-- STORED_UNITS (R117) -/
  units : Nat := 0
  /-- FORM (R117) -/
  form : Nat := 0
  /-- FRAME_LEN (R117) -/
  frame : Nat := 0
  /-- content of the frame (R118) -/
  data : Bytes := []
  /-- metadata (R117) -/
  info : Bytes := []
  deriving DecidableEq, Repr

/-- The WRP window (R134), the write pipeline and the granule locks (R116). -/
structure Wrp where
  /-- staged STRIPE_CLOSE_US (R134) -/
  close : Nat := 200
  /-- staged PSLC_FIRST (R134) -/
  pslcFirst : Bool := true
  /-- active STRIPE_CLOSE_US (R134) -/
  closeA : Nat := 200
  /-- active PSLC_FIRST (R134) -/
  pslcFirstA : Bool := true
  /-- WRP_USER_BYTES (R134) -/
  userBytes : Nat := 0
  /-- WRP_STORED_BYTES (R134) -/
  storedBytes : Nat := 0
  /-- WRP_PSLC_GRANULES (R134) -/
  pslcGran : Nat := 0
  /-- WRP_QLC_GRANULES (R134) -/
  qlcGran : Nat := 0
  /-- WRP_MERGE_READS (R134) -/
  mergeReads : Nat := 0
  /-- WRP_PAD_MEMBERS (R134) -/
  padMembers : Nat := 0
  /-- WRP_STALL_EPOCHS (R134) -/
  stallEpochs : Nat := 0
  /-- stage 2 waited for pool 2 or pool 4 in this epoch (R134) -/
  stalled : Bool := false
  /-- granules in the write pipeline, in readiness order (R112) -/
  grans : List WGran := []
  /-- next pipeline number (R112) -/
  next : Nat := 0
  /-- deficit round robin of each lane kind: 0 compress, 1 encrypt, 2 decrypt, 3 decompress, 4 soft decode, 5
  reconstruction (R114), and 6 host DMA (R62) -/
  drr : FMap Drr := []
  /-- granules that moves freed in the last epoch (R191) -/
  movedEpoch : Nat := 0
  /-- granules that moves freed in this epoch (R191) -/
  movedNow : Nat := 0
  /-- host granules that entered stage 2 in this epoch (R191) -/
  taken : Nat := 0
  deriving DecidableEq, Repr

/-- The RDP window (R135) and the read pipeline. -/
structure Rdp where
  /-- staged RECON_ON_CHECK (R135) -/
  recon : Bool := true
  /-- active RECON_ON_CHECK (R135) -/
  reconA : Bool := true
  /-- RDP_GRANULES (R135) -/
  granules : Nat := 0
  /-- RDP_DIVERTED (R135) -/
  diverted : Nat := 0
  /-- RDP_CHECK_FAIL (R135) -/
  checkFail : Nat := 0
  /-- RDP_RECONSTRUCTED (R135) -/
  reconstructed : Nat := 0
  /-- RDP_UNRECOVERED (R135) -/
  unrecovered : Nat := 0
  /-- RDP_KEY_MISMATCH (R135) -/
  keyMismatch : Nat := 0
  /-- granules in the read pipeline (R113) -/
  grans : List RGran := []
  /-- granule tags that the background lane reads for repair (R127, R130) -/
  repair : List Nat := []
  deriving DecidableEq, Repr

/-- The ICM window (R136). -/
structure Icm where
  /-- staged MIN_SAVING (R136) -/
  minSaving : Nat := 1
  /-- active MIN_SAVING (R136) -/
  minSavingA : Nat := 1
  /-- ICM_CLANE_n (R136) -/
  clane : FMap Nat := []
  /-- ICM_DLANE_n (R136) -/
  dlane : FMap Nat := []
  /-- ICM_STORED_FORM (R136) -/
  storedForm : Nat := 0
  /-- ICM_LEN_MISMATCH (R136) -/
  lenMismatch : Nat := 0
  deriving DecidableEq, Repr

/-- One MXT lane (R122, R335). -/
structure MxtLane where
  /-- MISMATCH (R136) -/
  mismatch : Nat := 0
  /-- RETIRED (R136) -/
  retired : Bool := false
  /-- cached keys: reference and KEY_SERIAL (R335) -/
  keys : List (Nat × Nat) := []
  deriving DecidableEq, Repr

/-- The MXT window (R136). -/
structure Mxt where
  /-- lanes 0 to 15 encrypt, 16 to 31 decrypt (R136) -/
  lanes : FMap MxtLane := []
  /-- MXT_RAIL_MISMATCH (R136) -/
  railMismatch : Nat := 0
  deriving DecidableEq, Repr

/-- The LDC window (R137). -/
structure Ldc where
  /-- LDC_HARD_n (R137) -/
  hard : FMap Nat := []
  /-- LDC_SOFT_m (R137) -/
  soft : FMap Nat := []
  /-- LDC_RETRY_RUNGS (R137) -/
  rungs : Nat := 0
  /-- LDC_SOFT_ESCALATIONS (R137) -/
  softEsc : Nat := 0
  /-- LDC_UNCORRECTABLE (R137) -/
  uncorr : Nat := 0
  deriving DecidableEq, Repr


/-! ## Media channels, dies, cartridges -/

/-- What a die is doing (R148, R151). -/
inductive DieKind where
  | erase | program | pslcProgram
  deriving DecidableEq, Repr
/-- A program or erase running or suspended on a die (R148 to R153). -/
structure DieOp where
  /-- erase, TLC or QLC program, pSLC program (R148) -/
  kind : DieKind := .erase
  /-- block (R148) -/
  block : Nat := 0
  /-- program unit (R204) -/
  pu : Nat := 0
  /-- unit of the block's stream the program reaches (R168) -/
  endUnit : Nat := 0
  /-- suspensions counted (R151) -/
  suspends : Nat := 0
  /-- 0 running, 1 suspend issued, 2 ready in the suspended state, 3 found complete at a suspend (R152, R153) -/
  suspended : Nat := 0
  /-- reads run in this suspension (R152) -/
  reads : Nat := 0
  /-- holds a unit of pool 13 (R131) -/
  tag : Bool := false
  /-- class: 0 HOST, 1 RECON, 2 MOVES, 3 REFRESH, 4 REBUILD, 5 PATROL (R215) -/
  cls : Nat := 0
  /-- time run since it began or was last resumed, as the events give it (R151) -/
  ranUs : Nat := 0
  deriving DecidableEq, Repr

/-- One die (R142, R147, R157, R166). -/
structure Die where
  /-- PRESENT (R166) -/
  present : Bool := false
  /-- CELL: 1 TLC, 2 QLC (R166) -/
  cell : Nat := 0
  /-- die profile number (R166) -/
  profile : Nat := 0
  /-- PINNED (R166) -/
  pinned : Nat := 0
  /-- run of pinned evaluations per cell mode (R160) -/
  runs : FMap Nat := []
  /-- tracked offset set per cell mode (R157) -/
  offsets : FMap (List Int) := []
  /-- sets saved in MRAM at the last checkpoint (R176) -/
  saved : FMap (List Int) := []
  /-- rung offsets of step-2 successes in this epoch, per cell mode (R158) -/
  samples : FMap (List (List Int)) := []
  /-- program or erase in progress (R148) -/
  op : Option DieOp := none
  /-- reads queued on the die, by their pipeline number (R151) -/
  reads : List Nat := []
  /-- programs and erases that wait for the die, oldest first (R148) -/
  queue : List DieOp := []
  /-- class whose turn it is on the die (R215) -/
  turn : Nat := 0
  /-- microseconds of die time left to each class in its turn (R215) -/
  deficit : FMap Nat := []
  /-- times in microseconds of time-outs (R150) -/
  timeouts : List Nat := []
  /-- identification has matched it to a profile, at this power-up or before (R142) -/
  known : Bool := false
  /-- its die profile (R146, R147) -/
  geo : DieProfile := {}
  /-- the read that waits runs before the next program or erase (R153) -/
  readNext : Bool := false
  /-- deficit round robin of the functions whose host reads wait (R62) -/
  drr : Drr := {}
  /-- spare block numbers left (R197) -/
  spares : List Nat := []
  /-- first block that the handling of R220 has not reached yet (R220) -/
  fresh : Option Nat := none
  deriving DecidableEq, Repr

/-- One media channel (R141, R166). -/
structure Chan where
  /-- RATE (R166) -/
  rate : Nat := 0
  /-- TRAINED (R166) -/
  trained : Bool := false
  /-- DIES (R166) -/
  dies : Nat := 0
  /-- CE (R166) -/
  ce : Nat := 0
  /-- MCH_CHc_READS (R166) -/
  reads : Nat := 0
  /-- MCH_CHc_PROGRAMS (R166) -/
  programs : Nat := 0
  /-- MCH_CHc_ERASES (R166) -/
  erases : Nat := 0
  /-- MCH_CHc_SUSPENDS (R166) -/
  suspends : Nat := 0
  /-- MCH_CHc_TIMEOUTS (R166) -/
  timeouts : Nat := 0
  /-- MCH_CHc_PGM_FAIL (R166) -/
  pgmFail : Nat := 0
  /-- MCH_CHc_ERS_FAIL (R166) -/
  ersFail : Nat := 0
  /-- MCH_CHc_RETRAINS (R166) -/
  retrains : Nat := 0
  /-- Tj at the last training (R141) -/
  trainTj : Int := 0
  /-- ZQ Calibration Short runs since power-up (R141) -/
  zq : Nat := 0
  /-- the interface is in NV-LPDDR4 (SDR before) (R138) -/
  nvLpddr4 : Bool := false
  /-- volume last selected on each chip enable, plus 1; 0 for none (R143) -/
  vols : FMap Nat := []
  deriving DecidableEq, Repr

/-- The MCH window (R166). -/
structure Mch where
  /-- staged MAX_RATE (R166) -/
  maxRate : Nat := 4
  /-- staged VERIFY_READ (R166) -/
  verify : Bool := true
  /-- staged PE_DUTY (R166) -/
  peDuty : Nat := 28
  /-- staged ERS_MIN_RUN (R166) -/
  ersMinRun : Nat := 30
  /-- staged PGM_MIN_RUN (R166) -/
  pgmMinRun : Nat := 50
  /-- staged ERS_MAX_SUSP (R166) -/
  ersMaxSusp : Nat := 8
  /-- staged PGM_MAX_SUSP (R166) -/
  pgmMaxSusp : Nat := 8
  /-- staged SUSP_MAX_READS (R166) -/
  suspMaxReads : Nat := 4
  /-- active MAX_RATE (R166) -/
  maxRateA : Nat := 4
  /-- active VERIFY_READ (R166) -/
  verifyA : Bool := true
  /-- active PE_DUTY (R166) -/
  peDutyA : Nat := 28
  /-- active ERS_MIN_RUN (R166) -/
  ersMinRunA : Nat := 30
  /-- active PGM_MIN_RUN (R166) -/
  pgmMinRunA : Nat := 50
  /-- active ERS_MAX_SUSP (R166) -/
  ersMaxSuspA : Nat := 8
  /-- active PGM_MAX_SUSP (R166) -/
  pgmMaxSuspA : Nat := 8
  /-- active SUSP_MAX_READS (R166) -/
  suspMaxReadsA : Nat := 4
  /-- MCH_PINNED_EVENTS (R166) -/
  pinnedEvents : Nat := 0
  /-- MCH_BLOCK_IN_ERASE (R166) -/
  blockInErase : Nat := 0
  /-- channels (R166) -/
  chans : FMap Chan := []
  /-- dies by number n of R143 (R166) -/
  dies : FMap Die := []
  /-- stored granules by PGA (R168) -/
  stored : FMap (Option Stored) := []
  /-- units already laid into each block's stream, by die x 8,160 + block (R168) -/
  fill : FMap Nat := []
  /-- program units of each block given to its die, in ascending order (R148) -/
  given : FMap Nat := []
  /-- bytes of the pages that hold map items and images, by PGA (R170, R171, R236) -/
  pages : FMap Bytes := []
  /-- data bytes of the parity members, by the PGA of their program unit counted in units of R168 (R205) -/
  parity : FMap Bytes := []
  deriving DecidableEq, Repr

/-- One cartridge group (R162 to R165, R167). -/
structure Cart where
  /-- PRES_RAW (R167) -/
  presRaw : Bool := false
  /-- PRESENT as counted (R167) -/
  present : Bool := false
  /-- PWREN (R167) -/
  pwren : Bool := false
  /-- PGOOD (R167) -/
  pgood : Bool := false
  /-- FENCED (R167) -/
  fenced : Bool := false
  /-- SAFE (R167) -/
  safe : Bool := false
  /-- CRT_Gg_EVENTS.INSERT (R167) -/
  insert : Bool := false
  /-- REMOVE (R167) -/
  remove : Bool := false
  /-- SURPRISE (R167) -/
  surprise : Bool := false
  /-- PGOOD_FAIL (R167) -/
  pgoodFail : Bool := false
  /-- CRT_Gg_INSERTIONS (R167) -/
  insertions : Nat := 0
  /-- step of R163 reached in a power-up (R163) -/
  step : Nat := 0
  /-- its channel drivers are enabled; else they are at high impedance (R163 to R165) -/
  drivers : Bool := false
  /-- step of R164 reached in a power-down (R164) -/
  down : Nat := 0
  /-- the group's die profile (R142) -/
  profile : Option Nat := none
  /-- it is admitted, and its power-up has not begun (R163) -/
  admitted : Bool := false
  /-- dies that identification finds: number, profile and cell type (R142) -/
  found : List (Nat × Nat × Nat) := []
  /-- the Cartridge Service command that runs on the group (R218) -/
  owner : Option CmdRef := none
  deriving DecidableEq, Repr

/-- The CRT window (R167). -/
structure Crt where
  /-- staged AUTO_ADMIT (R167) -/
  auto : Bool := false
  /-- staged DEBOUNCE_MS (R167) -/
  debounce : Nat := 100
  /-- active AUTO_ADMIT (R167) -/
  autoA : Bool := false
  /-- active DEBOUNCE_MS (R167) -/
  debounceA : Nat := 100
  /-- groups (R167) -/
  groups : FMap Cart := []
  deriving DecidableEq, Repr


/-! ## Map, journal, blocks, stripes, Outrider -/
/-- A block-table entry (R189). -/
structure Block where
  /-- STATE (R189) -/
  state : Nat := 0
  /-- MODE (R189) -/
  mode : Nat := 0
  /-- USE (R189) -/
  use : Nat := 0
  /-- PE_COUNT (R189) -/
  pe : Nat := 0
  /-- VALID_UNITS (R189) -/
  valid : Nat := 0
  /-- reads since its erase, counted in DRAM (R224) -/
  reads : Nat := 0
  /-- order in which it was closed (R191) -/
  closedAt : Nat := 0
  /-- geometry of the open or full set it belongs to (R216) -/
  geom : Nat := 0
  /-- it is to be rebuilt on the cartridge in its place (R220) -/
  needs : Bool := false
  /-- opened for moves that the Outrider orders (R148) -/
  refresh : Bool := false
  deriving DecidableEq, Repr

/-- A journal record (R177, R178). -/
structure JRec where
  /-- SEQ (R177) -/
  seq : Nat := 0
  /-- ring slot it fills (R176) -/
  slot : Nat := 0
  /-- TYPE (R178) -/
  ty : Nat := 0
  /-- A (R177) -/
  a : Nat := 0
  /-- B (R177) -/
  b : Nat := 0
  /-- C (R177) -/
  c : Nat := 0
  /-- D (R177) -/
  d : Nat := 0
  /-- the command that waits for it (R180) -/
  owner : Option CmdRef := none
  /-- the granule it belongs to (R184) -/
  wid : Option Nat := none
  /-- its MRAM write has completed (R180) -/
  durable : Bool := false
  /-- STATE of the block before a BLOCK_STATE record, which a record that is not durable leaves standing (R193) -/
  prev : Nat := 0
  /-- block-table chunks that a MAP_CLEAR or a CLEAR_ALL changed, once durable (R181) -/
  chunks : List Nat := []
  deriving DecidableEq, Repr

/-- One copy of the superblock (R182). -/
structure Super where
  /-- GENERATION (R182) -/
  gen : Nat := 0
  /-- HEAD_SEQ (R182) -/
  head : Nat := 0
  /-- HEAD_SLOT (R182) -/
  slot : Nat := 0
  /-- NEXT_SEQ (R182) -/
  next : Nat := 0
  /-- EPOCH (R182) -/
  epoch : Nat := 0
  /-- its CRC32C is correct (R182) -/
  good : Bool := false
  deriving DecidableEq, Repr

/-- The JRN window (R202) and the ring (R180 to R182). -/
structure Jrn where
  /-- staged CHECKPOINT_MS (R202) -/
  ckpt : Nat := 10
  /-- staged RING_HIGH_PCT (R202) -/
  high : Nat := 75
  /-- active CHECKPOINT_MS (R202) -/
  ckptA : Nat := 10
  /-- active RING_HIGH_PCT (R202) -/
  highA : Nat := 75
  /-- ring slot of the next record (R182) -/
  slot : Nat := 0
  /-- JRN_NEXT_SEQ (R180) -/
  next : Nat := 1
  /-- JRN_HEAD_SEQ (R181) -/
  head : Nat := 1
  /-- the superblock's copies: 0 A, 1 B (R182) -/
  supers : FMap Super := [(0, { gen := 1, head := 1, next := 1, good := true })]
  /-- records of the ring from the older copy's head on, oldest first (R176) -/
  ring : List JRec := []
  /-- records that wait for a ring page (R181) -/
  waiting : List JRec := []
  /-- the delta writer waited for pool 7 in this epoch (R202) -/
  stalled : Bool := false
  /-- JRN_STALL_EPOCHS (R202) -/
  stallEpochs : Nat := 0
  /-- JRN_REPLAYED (R202) -/
  replayed : Nat := 0
  /-- JRN_RECOVERY.TIME_US (R202) -/
  timeUs : Nat := 0
  /-- JRN_RECOVERY.STOP (R202) -/
  stop : Nat := 0
  /-- JRN_TORN (R202) -/
  torn : Nat := 0
  /-- step of R194 reached (R194) -/
  step : Nat := 0
  deriving DecidableEq, Repr

/-- A leaf or directory item of the map (R170 to R174). -/
structure Item where
  /-- its pointer has PRESENT = 1 (R173) -/
  there : Bool := false
  /-- in the map cache (R174) -/
  cached : Bool := false
  /-- holds changes not yet flushed (R174) -/
  dirty : Bool := false
  /-- FLUSH_SEQ of the copy on the media (R171) -/
  flushSeq : Nat := 0
  /-- oldest pending SEQ (R181) -/
  oldest : Nat := 0
  /-- order of its last use (R174) -/
  used : Nat := 0
  /-- cache chunks it occupies (R174) -/
  chunks : Nat := 0
  /-- PGA of the copy on the media (R173) -/
  ptr : Nat := 0
  deriving DecidableEq, Repr

/-- Pages of a map item or an image that are laid and whose programs have not all verified (R181, R236). -/
structure Laying where
  /-- 0 leaf, 1 directory, 2 block-table chunk, 3 image (R171) -/
  kind : Nat := 0
  /-- INDEX of the item, or slot of the image (R171) -/
  index : Nat := 0
  /-- address of the first page (R168) -/
  pga : Nat := 0
  /-- pages (R170) -/
  pages : Nat := 1
  /-- KIND as the item was written (R171) -/
  code : Nat := 0
  /-- FLUSH_SEQ of the item as it was written (R171) -/
  seq : Nat := 0
  deriving DecidableEq, Repr

/-- The MAP window (R201), the map and the block table. -/
structure Map where
  /-- granule entries by GRANULE_TAG, with every durable record applied (R169) -/
  entries : FMap (Option GEntry) := []
  /-- leaf items by INDEX (R170) -/
  leaves : FMap Item := []
  /-- block-table chunks as map items, by chunk number (R189) -/
  chunkItems : FMap Item := []
  /-- directory items by INDEX (R170) -/
  dirs : FMap Item := []
  /-- block table, by die x 8,160 + block (R189) -/
  blocks : FMap Block := []
  /-- order counter of cache use and block closing (R174) -/
  tick : Nat := 0
  /-- MAP_LEAF_HITS (R201) -/
  hits : Nat := 0
  /-- MAP_LEAF_MISSES (R201) -/
  misses : Nat := 0
  /-- MAP_DIR_MISSES (R201) -/
  dirMisses : Nat := 0
  /-- MAP_ITEM_FLUSHES (R201) -/
  flushes : Nat := 0
  /-- QF of the last count (R198) -/
  qf : Nat := 0
  /-- MAP_PSLC.SIZE_BP (R201) -/
  sizeBp : Nat := 400
  /-- MAP_PSLC.FILL_BP (R201) -/
  fillBp : Nat := 0
  /-- MAP_PSLC_PINNED (R201) -/
  pinned : Nat := 0
  /-- run of pinned evaluations (R160) -/
  run : Nat := 0
  /-- MAP_PSLC_EVENTS (R201) -/
  events : Nat := 0
  /-- MAP_MOVES (R201) -/
  moves : Nat := 0
  /-- MAP_MOVES_DISCARDED (R201) -/
  discarded : Nat := 0
  /-- MAP_CAP_EXCEEDED (R201) -/
  capExceeded : Nat := 0
  /-- runs of map root entries in use: first and count (R476) -/
  rootUsed : List (Nat × Nat) := []
  /-- NSIDs whose clearing runs (R188) -/
  clears : List Nat := []
  /-- pages laid and not verified yet (R181) -/
  laying : List Laying := []
  deriving DecidableEq, Repr

/-- An open or closed stripe (R203 to R208). -/
structure Stripe where
  /-- COLUMN (R207) -/
  k : Nat := 0
  /-- SET (R207) -/
  b : Nat := 0
  /-- PU (R207) -/
  u : Nat := 0
  /-- MODE (R207) -/
  mode : Nat := 0
  /-- GEOMETRY (R207) -/
  geom : Nat := 0
  /-- groups with a void member (R206) -/
  voids : List Nat := []
  /-- groups whose data member is verified; the accumulator holds P and Q of them (log 33) (R204) -/
  members : List Nat := []
  /-- groups whose data member is full and given to its die (R204) -/
  filled : List Nat := []
  /-- parity groups not yet verified (R208) -/
  parityLeft : List Nat := []
  /-- no member is to follow (R124) -/
  closed : Bool := false
  deriving DecidableEq, Repr

/-- The PAR window (R230), stripes and rebuild. -/
structure Par where
  /-- stripes, newest first (R208) -/
  stripes : List Stripe := []
  /-- PAR_SEALED (R230) -/
  sealedCount : Nat := 0
  /-- PAR_RECON_CW (R230) -/
  reconCw : Nat := 0
  /-- PAR_ACC_RECOVERED (R230) -/
  accRecovered : Nat := 0
  /-- PAR_UNRECOVERABLE (R230) -/
  unrecoverable : Nat := 0
  /-- identifiers of stripes counted in PAR_UNRECOVERABLE (R212) -/
  lostIds : List Nat := []
  /-- PAR_STRANDED (R230) -/
  stranded : Nat := 0
  /-- stranded sets (K, b) (R209) -/
  strandedSets : List (Nat × Nat) := []
  /-- columns all of whose sets are stranded: a die of theirs is retired, or absent in a group in service (R228) -/
  strandedCols : List Nat := []
  /-- spare sets released: column and block number (R209) -/
  released : List (Nat × Nat) := []
  /-- rebuild pointer (COLUMN, SET) per group (R230) -/
  pointers : FMap (Nat × Nat) := []
  /-- PAR_Gg_REBUILT (R230) -/
  rebuilt : FMap Nat := []
  /-- PAR_POWERED_MS (R230) -/
  poweredMs : Nat := 0
  /-- PAR_UNAVAIL_MS (R230) -/
  unavailMs : Nat := 0
  /-- PAR_POWERED_MS and PAR_UNAVAIL_MS as saved at the last checkpoint (R230) (R230) -/
  availSaved : Nat × Nat := (0, 0)
  deriving DecidableEq, Repr

/-- The OUT window (R231) and the patrol. -/
structure Outr where
  /-- OUT_STATE.MODE (R231) -/
  mode : Nat := 0
  /-- OUT_RATE (R231) -/
  rate : Nat := 0
  /-- OUT_DEBT (R231) -/
  debt : Nat := 0
  /-- OUT_PINNED (R231) -/
  pinned : Nat := 0
  /-- run of pinned evaluations (R160) -/
  run : Nat := 0
  /-- OUT_EVENTS (R231) -/
  events : Nat := 0
  /-- OUT_REFRESH (R231) -/
  refresh : Nat := 0
  /-- OUT_SAMPLES (R231) -/
  samples : Nat := 0
  /-- blocks queued for refresh (die, block) (R224) -/
  queue : List (Nat × Nat) := []
  /-- zone stamps in hours, by zone (R222) -/
  stamps : FMap Nat := []
  /-- zone stamps written to MRAM at the last checkpoint (R222) -/
  saved : FMap Nat := []
  deriving DecidableEq, Repr


/-! ## Compute: images, Waybills, Hearths, instances -/
/-- A node of an operator graph (R359). -/
structure Node where
  /-- CODE_OFF (R359) -/
  code : Nat := 0
  /-- INPUTS (R359) -/
  inputs : Nat := 0
  /-- OUTPUTS (R359) -/
  outputs : Nat := 0
  deriving DecidableEq, Repr

/-- An edge of an operator graph (R359). -/
structure Edge where
  /-- FROM_NODE (R359) -/
  fromNode : Nat := 0
  /-- FROM_PORT (R359) -/
  fromPort : Nat := 0
  /-- TO_NODE (R359) -/
  toNode : Nat := 0
  /-- TO_PORT (R359) -/
  toPort : Nat := 0
  /-- CAPACITY (R359) -/
  capacity : Nat := 0
  /-- INIT (R359) -/
  init : Nat := 0
  /-- INIT_VALUE (R359) -/
  value : Nat := 0
  deriving DecidableEq, Repr

/-- A loaded Nolob image (R233, R236). -/
structure Image where
  /-- owning function (R100) -/
  fix : Nat := 0
  /-- image handle (R98) -/
  handle : Nat := 0
  /-- ENTRY (R233) -/
  entry : Nat := 0
  /-- SCRATCH_MIB (R233) -/
  scratch : Nat := 0
  /-- code section (R233) -/
  code : Bytes := []
  /-- tables section (R233) -/
  tables : Bytes := []
  /-- FLAGS.GRAPH (R233) -/
  graph : Bool := false
  /-- graph nodes (R359) -/
  nodes : List Node := []
  /-- graph edges (R359) -/
  edges : List Edge := []
  /-- BUILD_ID (R233) -/
  buildId : Nat := 0
  /-- NAME (R233) -/
  name : Bytes := []
  /-- the Unload that waits for its last instance (R99) -/
  unloading : Option CmdRef := none
  /-- where its copy on the media begins (R236) -/
  pga : Nat := 0
  /-- pSLC pages it takes (R236) -/
  pages : Nat := 0
  /-- its block is a GC victim and it is written again (R191) -/
  moving : Bool := false
  /-- read from the media since power-up (R236) -/
  fetched : Bool := false
  deriving DecidableEq, Repr


/-- The states of R243. -/
inductive WbState where
  | admitting | waiting | running | ending | done
  deriving DecidableEq, Repr
/-- A Compute Submit under R243. -/
structure Waybill where
  /-- number of the model (R243) -/
  id : Nat := 0
  /-- its command (R104) -/
  ref : CmdRef := ⟨0, 0, 0⟩
  /-- function epoch (R64) -/
  epoch : Nat := 0
  /-- state (R243) -/
  state : WbState := .admitting
  /-- FLAGS.ORDERED (R104) -/
  ordered : Bool := true
  /-- image slot (R98) -/
  slot : Nat := 0
  /-- IMAGE_HANDLE (R104) -/
  handle : Nat := 0
  /-- extents: NSID, SLBA, LBAs (R104) -/
  extents : List (Nat × Nat × Nat) := []
  /-- time limit (R104) -/
  limitMs : Nat := 0
  /-- OUTPUT_LENGTH (R104) -/
  outLen : Nat := 0
  /-- RESULT_ADDR (R104) -/
  resultAddr : Nat := 0
  /-- OUTPUT: PRP1 and PRP2, or one SGL descriptor (R104) -/
  output : Bytes := []
  /-- USER_TAG (R104) -/
  userTag : Nat := 0
  /-- PARAMETERS (R104) -/
  params : Bytes := []
  /-- pools whose units have been issued (20, 21, 22, 17) (R238) -/
  got : List Nat := []
  /-- tick of entry to RUNNING (R244) -/
  startTick : Nat := 0
  /-- a boundary found the limit passed (R244) -/
  overtime : Bool := false
  /-- STATUS of the first end cause (R245) -/
  cause : Option Nat := none
  /-- taint status (R245) -/
  taint : Option Nat := none
  /-- EXIT_CODE (R107) -/
  exitCode : Nat := 0
  /-- BYTES_IN (R107) -/
  bytesIn : Nat := 0
  /-- BYTES_OUT (R107) -/
  bytesOut : Nat := 0
  /-- FLAGS bit 1 (R249) -/
  outFull : Bool := false
  /-- UNTRUSTED_FROM when set (R107) -/
  untrusted : Option Nat := none
  /-- FAULT_ADDR (R107) -/
  faultAddr : Nat := 0
  /-- cause code of R277 (R277) -/
  faultCode : Nat := 0
  /-- CYCLES (R107) -/
  cycles : Nat := 0
  /-- LAST_EXTENT (R107) -/
  lastExtent : Nat := 0
  /-- hand-off buffers handed over and waiting, oldest first (R247) -/
  ready : List Nat := []
  /-- hand-off buffer mapped in W0 (R247) -/
  cur : Option Nat := none
  /-- hand-off buffers being filled, oldest first (R131) -/
  fill : List Nat := []
  /-- hand-off buffer mapped in W1 (R238) -/
  outBuf : Option Nat := none
  /-- granules handed over whose verdict is not final: read number, BYTES_OUT at hand-over, and the failure found: true for the
  size, GRANULE_TAG, entry (R246) -/
  verdicts : List (Nat × Nat × Option (Bool × Nat × GEntry)) := []
  /-- granules handed over in part: read number and BYTES_OUT at the first hand-over (R130) -/
  delivered : List (Nat × Nat) := []
  /-- pieces (granule parts of the extents) whose read has begun (R129) -/
  nextPiece : Nat := 0
  /-- input bytes handed over (R129) -/
  pos : Nat := 0
  /-- an Abort ends it (R82) -/
  byAbort : Bool := false
  /-- emitted buffers on their way to the host, oldest first (R238) -/
  lent : List Nat := []
  /-- log records written in this epoch (R257) -/
  logs : Nat := 0
  deriving DecidableEq, Repr

/-- One Hearth (R258, R260). -/
structure Hearth where
  /-- ROLE: 0 firmware, 1 owner, 2 draining (R260) -/
  role : Nat := 0
  deriving DecidableEq, Repr

/-- The HRT window (R260). -/
structure Hrt where
  /-- image slots (R236) -/
  images : FMap (Option Image) := []
  /-- load counts (R98) -/
  loads : FMap Nat := []
  /-- withdrawn slots (R98) -/
  withdrawn : List Nat := []
  /-- Waybills (R243) -/
  wbs : List Waybill := []
  /-- next Waybill number (R243) -/
  nextWb : Nat := 0
  /-- HRT_STARTED (R260) -/
  started : Nat := 0
  /-- HRT_END_s (R260) -/
  ends : FMap Nat := []
  /-- HRT_LAST_FAULT.IMAGE_HANDLE (R260) -/
  faultHandle : Nat := 0
  /-- HRT_LAST_FAULT.FIX (R260) -/
  faultFix : Nat := 0
  /-- HRT_LOG_DROPPED (R260) -/
  logDropped : Nat := 0
  /-- Hearths (R260) -/
  hearths : FMap Hearth := []
  deriving DecidableEq, Repr


/-! ## Feresk instances -/

/-- A predicate register: lane-size tag and lane mask (R262). -/
structure Pred where
  /-- PSZ -/
  psz : Nat := 0
  /-- lane mask -/
  mask : BitVec 64 := 0
  deriving DecidableEq, Repr

/-- One entry of the loop stack (R261, R273). -/
structure LoopEntry where
  /-- address of the instruction after LOOP -/
  body : BitVec 64
  /-- address after the matching ENDLOOP -/
  exit : BitVec 64
  /-- trips remaining -/
  left : Nat
  /-- trip count -/
  trips : Nat
  /-- index register -/
  reg : Nat
  deriving DecidableEq, Repr

/-- What a context is blocked on (R250, R346). -/
inductive Blocked where
  | none | input | emit | output | engine (ticket : Nat) | delay | wait (ticket : Nat)
  deriving DecidableEq, Repr
/-- An asynchronous service operation (R253). -/
structure Ticket where
  /-- ticket 1 to 4, or 0 for a synchronous call (R253) -/
  no : Nat := 0
  /-- service 3, 4 or 5 (R253) -/
  svc : Nat := 0
  /-- the engine or unit has done its part (R253) -/
  unitDone : Bool := false
  /-- the operation has ended and its result is held for service 7 (R253) -/
  ended : Bool := false
  /-- its status (R251) -/
  status : Nat := 0
  /-- its x2 result (R252) -/
  x2 : Nat := 0
  /-- address of its source bytes (R253) -/
  src : Nat := 0
  /-- length of its source (R253) -/
  srcLen : Nat := 0
  /-- address of its destination (R253) -/
  dst : Nat := 0
  /-- length of its destination (R253) -/
  dstLen : Nat := 0
  /-- the program has written to its source or destination (R253) -/
  spoilt : Bool := false
  deriving DecidableEq, Repr

/-- The open digest operation of an instance (R255, R320). -/
structure Digest where
  /-- algorithm (R255) -/
  alg : Nat := 0
  /-- HMAC key (R322) -/
  key : Bytes := []
  /-- bytes hashed so far (the parked state stands for them) (R320) -/
  msg : Bytes := []
  /-- state-wrap key the park record is wrapped under (R321) -/
  wrapSerial : Nat := 0
  deriving DecidableEq, Repr

/-- One instance (R261). -/
structure Ctx where
  /-- its Waybill (R232) -/
  wb : Nat := 0
  /-- x1 to x31 (x0 reads as 0) (R261) -/
  x : FMap (BitVec 64) := []
  /-- v0 to v15 (R261) -/
  v : FMap (BitVec 512) := []
  /-- p0 to p7 (R261) -/
  p : FMap Pred := []
  /-- program counter (R261) -/
  pc : BitVec 64 := 0x10000000000#64
  /-- return stack (R261) -/
  ret : List (BitVec 64) := []
  /-- loop stack (R261) -/
  loops : List LoopEntry := []
  /-- W0 (R239) -/
  w0 : Bytes := []
  /-- W1 (R239) -/
  w1 : Memory := []
  /-- W2 (R239) -/
  w2 : Memory := []
  /-- W3 (R239) -/
  w3 : Bytes := []
  /-- W4 (R239) -/
  w4 : Bytes := []
  /-- length of W2 in bytes (R239) -/
  scratch : Nat := 0
  /-- instructions retired since the last segment boundary (R242) -/
  retired : Nat := 0
  /-- a segment boundary has been reached and not yet passed (R242) -/
  boundary : Bool := false
  /-- what it is blocked on (R250) -/
  block : Blocked := .none
  /-- asynchronous operations outstanding (R253) -/
  tickets : List Ticket := []
  /-- open digest operation (R255) -/
  digest : Option Digest := none
  /-- tokens of each edge, oldest first (R361) -/
  tokens : FMap (List Nat) := []
  /-- tokens produced per edge (R362) -/
  produced : FMap Nat := []
  /-- tokens consumed per edge (R362) -/
  consumed : FMap Nat := []
  /-- node firing now (R361) -/
  firing : Option Nat := none
  /-- the entry function of a graph has begun (R363) -/
  quiescent : Bool := false
  /-- service 1 has returned END_OF_INPUT (R252) -/
  endOfInput : Bool := false
  /-- counter of free values read by this context (R253) -/
  free : Nat := 0
  deriving DecidableEq, Repr


/-! ## Tongs -/
/-- A Tongs entry (R283). -/
structure TEntry where
  /-- VALUE AND MASK (R283) -/
  value : BitVec 160 := 0
  /-- MASK (R283) -/
  mask : BitVec 160 := 0
  /-- PRIORITY (R283) -/
  prio : Nat := 0
  /-- TAG (R283) -/
  tag : Nat := 0
  deriving DecidableEq, Repr


/-- One slot's change of a Tongs table (R293). -/
inductive TUpdate where
  | write (index : Nat) (e : TEntry) | free (index : Nat) | move (src dst : Nat)
  deriving DecidableEq, Repr
/-- A service 3 call at a unit (R254, R287, R296). -/
structure TSearch where
  /-- calling context (R254) -/
  caller : Nat := 0
  /-- the instance that called (R232) -/
  wb : Nat := 0
  /-- ticket, or 0 when synchronous (R253) -/
  ticket : Nat := 0
  /-- keys not yet searched (R254) -/
  keys : List (BitVec 160) := []
  /-- keys of the call (R254, R296) -/
  asked : Nat := 0
  /-- mode 1 (R287) -/
  stepping : Bool := false
  /-- record count of mode 1 (R254) -/
  limit : Nat := 0
  /-- address of the next result record (R254) -/
  dest : BitVec 64 := 0
  /-- keys that matched, or records written (R254) -/
  matched : Nat := 0
  /-- matches of a stepping still to be reported, in order (R287) -/
  set : List Nat := []
  /-- MATCHES of the stepping (R287) -/
  total : Nat := 0
  /-- UPDATE_SEQ at the first slot of the stepping (R287) -/
  seq0 : Nat := 0
  /-- the match set has been taken (R287) -/
  begun : Bool := false
  deriving DecidableEq, Repr

/-- One Tongs unit (R282, R298). -/
structure TUnit where
  /-- claiming function (R298) -/
  fix : Option Nat := none
  /-- SORTED (R298) -/
  sorted : Bool := true
  /-- RELEASING (R298) -/
  releasing : Bool := false
  /-- entries by index (R282) -/
  table : FMap (Option TEntry) := []
  /-- UPDATE_SEQ (R282) -/
  updateSeq : Nat := 0
  /-- changes accepted and not yet made (R293) -/
  updates : List TUpdate := []
  /-- the table write whose changes are pending (R294) -/
  writer : Option CmdRef := none
  /-- searches in order of acceptance (R294) -/
  searches : List TSearch := []
  /-- the last contended slot went to a search (R294) -/
  lastWasSearch : Bool := false
  /-- TNG_Uu_SEARCHES (R298) -/
  nSearch : Nat := 0
  /-- TNG_Uu_UPDATES (R298) -/
  nUpdate : Nat := 0
  /-- TNG_Uu_MOVES (R298) -/
  nMove : Nat := 0
  /-- TNG_Uu_MULTI (R298) -/
  multi : Nat := 0
  /-- TNG_Uu_MAX_SHIFT (R298) -/
  maxShift : Nat := 0
  /-- TNG_Uu_PARITY (R298) -/
  parity : Nat := 0
  /-- next entry to scrub (R297) -/
  scrub : Nat := 0
  /-- moves made so far by the insertion under way (R290) -/
  shift : Nat := 0
  /-- entries done by the table write under way (R296) -/
  wrote : Nat := 0
  deriving DecidableEq, Repr

/-- The TNG window (R298). -/
structure Tng where
  /-- TNG_SCRUB_PASSES (R298) -/
  scrubPasses : Nat := 0
  /-- units (R298) -/
  units : FMap TUnit := []
  deriving DecidableEq, Repr


/-! ## Engines: CXE, DGE, AEE -/
/-- A CXE job (R314). -/
structure CJob where
  /-- OP (R314) -/
  op : Nat := 0
  /-- LEVEL (R314) -/
  level : Nat := 0
  /-- TICKET (R314) -/
  ticket : Nat := 0
  /-- FIX (R314) -/
  fix : Nat := 0
  /-- EPOCH_LO (R314) -/
  epoch : Nat := 0
  /-- CALLER (R314) -/
  caller : Nat := 0
  /-- the instance that called (R232) -/
  wb : Nat := 0
  /-- STATE (R314) -/
  state : Nat := 0
  /-- RESULT (R314) -/
  result : Nat := 0
  /-- SEGMENTS (R314) -/
  segments : Nat := 0
  /-- SRC (R314) -/
  src : BitVec 64 := 0
  /-- SRC_LEN (R314) -/
  srcLen : Nat := 0
  /-- DST (R314) -/
  dst : BitVec 64 := 0
  /-- DST_CAP (R314) -/
  dstCap : Nat := 0
  /-- CONSUMED (R314) -/
  consumed : Nat := 0
  /-- PRODUCED (R314) -/
  produced : Nat := 0
  /-- bytes the job will have written at its end (R309) -/
  plan : Bytes := []
  /-- pieces of the work left: source bytes, output bytes, and whether they go byte by byte (R301) -/
  trace : List (Nat × Nat × Bool) := []
  /-- status that the job will end with (R309) -/
  outcome : Nat := 0
  /-- the job's work has been laid out (R301) -/
  planned : Bool := false
  deriving DecidableEq, Repr

/-- A DGE call (R320, R342). -/
structure DCtx where
  /-- ALG (R342) -/
  alg : Nat := 0
  /-- STATE (R342) -/
  state : Nat := 0
  /-- FIX (R342) -/
  fix : Nat := 0
  /-- EPOCH_LO (R342) -/
  epoch : Nat := 0
  /-- CALLER (R342) -/
  caller : Nat := 0
  /-- the instance that called (R232) -/
  wb : Nat := 0
  /-- ticket, or 0 (R253) -/
  ticket : Nat := 0
  /-- SEGMENTS (R342) -/
  segments : Nat := 0
  /-- KEYED (R342) -/
  keyed : Bool := false
  /-- the call has START (R342) -/
  opened : Bool := false
  /-- source address (R255) -/
  src : BitVec 64 := 0
  /-- source length (R255) -/
  len : Nat := 0
  /-- bytes hashed by this call (R320) -/
  done : Nat := 0
  /-- destination (R255) -/
  dst : BitVec 64 := 0
  /-- FINAL (R255) -/
  final : Bool := false
  deriving DecidableEq, Repr

/-- An AEE job (R341). -/
structure AJob where
  /-- OP (R341) -/
  op : Nat := 0
  /-- MODE (R341) -/
  mode : Nat := 0
  /-- STATE (R341) -/
  state : Nat := 0
  /-- STATUS (R341) -/
  status : Nat := 0
  /-- FIX; 0xFFFF for a firmware context (R341) -/
  fix : Nat := 0
  /-- EPOCH_LO (R341) -/
  epoch : Nat := 0
  /-- KEY_REF (R341) -/
  keyRef : Nat := 0
  /-- SEGMENTS (R341) -/
  segments : Nat := 0
  /-- IV (R341) -/
  iv : Bytes := []
  /-- additional authenticated data (R341) -/
  aad : Bytes := []
  /-- text to process (R341) -/
  text : Bytes := []
  /-- TAG: produced after an encryption, expected before a decryption ends (R341) -/
  tag : Bytes := []
  /-- bytes processed (R339) -/
  done : Nat := 0
  /-- BYTES_RELEASED (R341) -/
  released : Nat := 0
  /-- the segment's first attempt mismatched (R339) -/
  attempt : Bool := false
  /-- the Key Slot Manage it unwraps for (R337) -/
  ref : Option CmdRef := none
  /-- the key of the job (R331) -/
  key : Bytes := []
  /-- the SPDM response that a firmware job protects (R337) -/
  reply : Option (SpdmKind × Bytes) := none
  deriving DecidableEq, Repr

/-- One engine unit, 0 to 7, of CXE, DGE or AEE (R315, R342, R343). -/
structure Eng where
  /-- RETIRED (R312) -/
  retired : Bool := false
  /-- context the round robin serves next (R301) -/
  turn : Nat := 0
  /-- jobs or calls ended (R315) -/
  jobs : Nat := 0
  /-- source bytes (R315) -/
  inBytes : Nat := 0
  /-- bytes written (R315) -/
  outBytes : Nat := 0
  /-- CXE CORRUPT (R315) -/
  corrupt : Nat := 0
  /-- CXE LEN_MISMATCH (R315) -/
  lenMismatch : Nat := 0
  /-- CXE DST_FULL (R315) -/
  dstFull : Nat := 0
  /-- SQUASHED (R315) -/
  squashed : Nat := 0
  /-- CXE RESTARTS (R315) -/
  restarts : Nat := 0
  /-- DGE KEYED (R342) -/
  keyed : Nat := 0
  /-- DGE ZEROISED (R342) -/
  zeroised : Nat := 0
  /-- AEE MISMATCH (R343) -/
  mismatch : Nat := 0
  deriving DecidableEq, Repr

/-- The CXE window (R315). -/
structure Cxe where
  /-- engine units (R315) -/
  engs : FMap Eng := []
  /-- contexts by 16 x i + c (R314) -/
  jobs : FMap CJob := []
  /-- jobs waiting for a context (R300) -/
  waiting : List CJob := []
  deriving DecidableEq, Repr

/-- The DGE window (R342). -/
structure Dge where
  /-- engine units (R342) -/
  engs : FMap Eng := []
  /-- contexts (R342) -/
  ctxs : FMap DCtx := []
  /-- calls waiting for a context (R320) -/
  waiting : List DCtx := []
  /-- DGE_UNWRAP_FAIL (R342) -/
  unwrapFail : Nat := 0
  deriving DecidableEq, Repr

/-- The AEE window (R343). -/
structure Aee where
  /-- engine units (R343) -/
  engs : FMap Eng := []
  /-- owner contexts (R341) -/
  jobs : FMap AJob := []
  /-- firmware contexts (R341) -/
  fwJobs : FMap AJob := []
  /-- jobs waiting for a context (R316) -/
  waiting : List AJob := []
  /-- AEE_AUTH_FAIL (R343) -/
  authFail : Nat := 0
  /-- AEE_RAIL_MISMATCH (R343) -/
  railMismatch : Nat := 0
  deriving DecidableEq, Repr


/-! ## Key store -/
/-- An owner key slot (R325). -/
structure Slot where
  /-- STATE (R325) -/
  state : Nat := 0
  /-- KEY_TYPE (R325) -/
  ktype : Nat := 0
  /-- OWNER_FIX (R325) -/
  fix : Nat := 0
  /-- key bytes (KEY_LEN is their number) (R325) -/
  key : Bytes := []
  /-- USES (R325) -/
  uses : Nat := 0
  /-- USES_HW kept in the vault (R328) -/
  usesHw : Nat := 0
  /-- LIMIT_LOG2 (R326) -/
  limitLog : Nat := 32
  /-- KEY_SERIAL (R325) -/
  serial : Nat := 0
  /-- ORIGIN (R325) -/
  origin : Nat := 0
  deriving DecidableEq, Repr

/-- An internal key (R338). -/
structure IKey where
  /-- serial of the key (R338) -/
  serial : Nat := 0
  /-- key bytes: 64 for the map key, else 32 (R171, R338) -/
  key : Bytes := []
  /-- salt (R338) -/
  salt : Nat := 0
  /-- encryption counter (R338) -/
  counter : Nat := 0
  deriving DecidableEq, Repr

/-- The KEY window (R344) and the key vault (R324). -/
structure Key where
  /-- staged ALARM_EN (R344) -/
  alarmEn : Nat := 15
  /-- active ALARM_EN (R344) -/
  alarmEnA : Nat := 15
  /-- LOCKED (R344) -/
  locked : Bool := false
  /-- CAUSE bits (R344) -/
  cause : List Nat := []
  /-- JTAG unlocked since power-on (R336) -/
  jtag : Bool := false
  /-- owner slots (R324) -/
  slots : FMap Slot := []
  /-- bound pairs: NSID, key tag, slot (R332) -/
  bindings : List (Nat × Nat × Nat) := []
  /-- last KEY_SERIAL given (R325) -/
  serials : Nat := 0
  /-- internal keys: 0 map key, 1 state-wrap key, 2 device import key, 3 onward vault working keys (R324) -/
  internal : FMap IKey := []
  /-- earlier state-wrap keys still in use (R321) -/
  stateWrapOld : List Nat := []
  /-- requests since the last seeding (R327) -/
  drbg : Nat := 0
  /-- draws made, the argument of the free value (R327) -/
  drbgDraws : Nat := 0
  /-- seedings since power-up (R327) -/
  seeds : Nat := 0
  /-- KEY_VAULT_WRITES (R344) -/
  vaultWrites : Nat := 0
  /-- KEY_IMPORT_FAIL (R344) -/
  importFail : Nat := 0
  /-- KEY_ALARMS (R344) -/
  alarms : Nat := 0
  /-- KEY_TORN (R344) -/
  torn : Nat := 0
  /-- working keys loaded from the vault (R418) -/
  workLoaded : Bool := false
  deriving DecidableEq, Repr


/-! ## Drover -/

/-- What a refused enqueue is held as (R350). -/
inductive Held where
  | create (level flow : Nat) | wake (thread : Nat) | pass (flow : Nat) | expiry | start (wb : Nat)
  deriving DecidableEq, Repr
/-- Thread states of R346. -/
inductive ThState where
  | free | ready | running | waiting | flowHeld
  deriving DecidableEq, Repr
/-- A thread descriptor (R345). -/
structure Thread where
  /-- Hearth (R345) -/
  hearth : Nat := 0
  /-- level (R345) -/
  level : Nat := 0
  /-- flow ID (R345) -/
  flow : Nat := 0
  /-- function, for owner threads (R345) -/
  fix : Option Nat := none
  /-- low 16 bits of its epoch (R345) -/
  epoch : Nat := 0
  /-- state (R346) -/
  state : ThState := .free
  /-- the instance it runs (R232) -/
  wb : Option Nat := none
  /-- hardware context while RUNNING (R347) -/
  ctx : Option Nat := none
  /-- dispatch order (R348) -/
  since : Nat := 0
  /-- ordered-flow ticket (R352) -/
  ticket : Option Nat := none
  /-- it waits, or stands READY, at its release point (R352) -/
  release : Bool := false
  deriving DecidableEq, Repr

/-- A delay-list entry (R355). -/
structure DelayE where
  /-- expiry in quarter-microseconds (R354) -/
  expiry : Nat := 0
  /-- thread (R355) -/
  thread : Nat := 0
  /-- time-out of a wait (else a delay) (R355) -/
  isWait : Bool := false
  /-- it was held back under R350 (R356) -/
  late : Bool := false
  deriving DecidableEq, Repr

/-- The Drover's part of one Hearth (R364). -/
structure DrvH where
  /-- staged TICK (R364) -/
  tick : Nat := 4
  /-- staged TIMER_MODE (R364) -/
  timerMode : Nat := 2
  /-- staged FLOW_MODE (R364) -/
  flowMode : Nat := 1
  /-- active TICK (R364) -/
  tickA : Nat := 4
  /-- active TIMER_MODE (R364) -/
  timerModeA : Nat := 2
  /-- active FLOW_MODE (R364) -/
  flowModeA : Nat := 1
  /-- committed FLOW_MODE waiting for the flow threads to end (R353) -/
  flowNext : Option Nat := none
  /-- ready lists by level, head first (R347) -/
  ready : FMap (List Nat) := []
  /-- delay list, sorted (R355) -/
  delay : List DelayE := []
  /-- enqueues that are held, in order of refusal (R350) -/
  held : List Held := []
  /-- DISPATCHES (R364) -/
  dispatches : Nat := 0
  /-- PREEMPTS (R364) -/
  preempts : Nat := 0
  /-- EXPIRIES (R364) -/
  expiries : Nat := 0
  /-- BACKPRESSURE (R364) -/
  backpressure : Nat := 0
  /-- LATE (R364) -/
  late : Nat := 0
  deriving DecidableEq, Repr

/-- The DRV window (R364). -/
structure Drv where
  /-- DRV_NOW in quarter-microseconds (R354) -/
  now : Nat := 0
  /-- thread descriptors (R345) -/
  threads : FMap Thread := []
  /-- per-Hearth state (R364) -/
  hs : FMap DrvH := []
  /-- atomic flows in service: the thread, by Hearth x 2^20 + flow (R351) -/
  inService : FMap (Option Nat) := []
  /-- FLOW_HELD threads by flow, oldest first (R351) -/
  flowHeld : FMap (List Nat) := []
  /-- outstanding tickets by flow, oldest first: the thread, or 16,384 for one whose thread is gone (R352) -/
  tickets : FMap (List Nat) := []
  /-- next ticket number (R352) -/
  nextTicket : Nat := 0
  /-- threads waiting at their release point (R352) -/
  released : List Nat := []
  /-- dispatch counter (R348) -/
  dispatchNo : Nat := 0
  /-- DRV_CANCELS_BEFORE (R364) -/
  cancelsBefore : Nat := 0
  /-- DRV_TOKEN_FAULT (R364) -/
  tokenFault : Nat := 0
  /-- DRV_GRAPH_FIRINGS (R364) -/
  firings : Nat := 0
  /-- instances in service, by Waybill number (R261) -/
  ctxs : FMap (Option Ctx) := []
  /-- thread running on each hardware context (R347) -/
  busy : FMap (Option Nat) := []
  deriving DecidableEq, Repr


/-! ## Interrupt controller -/
/-- A shared source of the source table (R379, R381). -/
structure Src where
  /-- staged ENABLE (R381) -/
  en : Bool := false
  /-- staged PRIORITY (R381) -/
  prio : Nat := 0
  /-- staged TARGET (R381) -/
  target : Nat := 0
  /-- active ENABLE (R381) -/
  enA : Bool := false
  /-- active PRIORITY (R381) -/
  prioA : Nat := 0
  /-- active TARGET (R381) -/
  targetA : Nat := 0
  /-- COUNT (R381) -/
  count : Nat := 0
  /-- OVERFLOW (R381) -/
  ovf : Bool := false
  /-- LEVEL: request asserted now (R381) -/
  level : Bool := false
  /-- bank holding it in service (CLAIMED_BY, IN_SERVICE) (R381) -/
  claimedBy : Option Nat := none
  deriving DecidableEq, Repr

/-- One bank (R382). -/
structure Bank where
  /-- THRESHOLD (R382) -/
  threshold : Nat := 15
  /-- DELIVER.CONTEXT (R382) -/
  deliver : Nat := 0
  /-- PRIV_EN bits (R382) -/
  privEn : List Nat := []
  /-- PRIV_INSERVICE bits (R382) -/
  privSvc : List Nat := []
  /-- PRIV_OVF bits (R382) -/
  privOvf : List Nat := []
  /-- private level requests asserted now (R366) -/
  privLevel : List Nat := []
  /-- PPRIO (R382) -/
  privPrio : FMap Nat := []
  /-- PCOUNT (R382) -/
  privCount : FMap Nat := []
  /-- CLAIMS (R382) -/
  claims : Nat := 0
  /-- SPURIOUS (R382) -/
  spurious : Nat := 0
  /-- BAD_COMPLETE (R382) -/
  badComplete : Nat := 0
  deriving DecidableEq, Repr

/-- A wake watcher slot (R380). -/
structure Watch where
  /-- staged ID (R381) -/
  id : Nat := 0
  /-- staged ENABLE (R381) -/
  en : Bool := false
  /-- active ID (R381) -/
  idA : Nat := 0
  /-- active ENABLE (R381) -/
  enA : Bool := false
  deriving DecidableEq, Repr

/-- The ICU window (R381). -/
structure Icu where
  /-- COMMIT_REFUSED (R381) -/
  refused : Bool := false
  /-- FIRST_BAD (R381) -/
  firstBad : Nat := 0
  /-- ICU_WAKE_CAUSE.SLOT (R381) -/
  wakeSlot : Nat := 0
  /-- ICU_WAKE_CAUSE.ID (R381) -/
  wakeId : Nat := 0
  /-- ICU_WAKE_CAUSE.VALID (R381) -/
  wakeValid : Bool := false
  /-- watcher slots (R381) -/
  watch : FMap Watch := []
  /-- shared sources by ID (R381) -/
  srcs : FMap Src := []
  /-- banks (R382) -/
  banks : FMap Bank := []
  deriving DecidableEq, Repr


/-! ## Code flash, boot, firmware, watchdog -/
/-- A code-flash sector (R385, R388, R389). -/
structure Sector where
  /-- erase count (R388) -/
  erases : Nat := 0
  /-- ERASE_INCOMPLETE (R391) -/
  incomplete : Bool := false
  /-- PROGRAMMED (else ERASED) (R389) -/
  programmed : Bool := false
  /-- WORN (R388) -/
  worn : Bool := false
  /-- corrected reads since the last erase (R389) -/
  corrected : Nat := 0
  /-- 64-bit words by index (absent: all ones) (R385) -/
  cells : FMap Nat := []
  /-- programs of each parameter word since its erase (R385) -/
  writes : FMap Nat := []
  deriving DecidableEq, Repr

/-- A program or erase of the code flash (R391, R392). -/
structure FlashOp where
  /-- erase, else program (R389) -/
  isErase : Bool := false
  /-- SECTOR (R389) -/
  sector : Nat := 0
  /-- OFFSET (R389) -/
  offset : Nat := 0
  /-- 64-bit words to program (R389) -/
  words : List Nat := []
  /-- suspended (R392) -/
  suspended : Bool := false
  /-- SUSPENDS (R407) -/
  suspends : Nat := 0
  /-- PULSES (R407) -/
  pulses : Nat := 0
  /-- erase time since it began or last resumed (R392) -/
  ranUs : Nat := 0
  /-- total time suspended (R392) -/
  suspUs : Nat := 0
  /-- CFL_OP_TIME (R407) -/
  timeUs : Nat := 0
  deriving DecidableEq, Repr

/-- An execute-only region (R387, R407). -/
structure Xo where
  /-- FIRST (R407) -/
  first : Nat := 0
  /-- LAST (R407) -/
  last : Nat := 0
  /-- VALID (R407) -/
  valid : Bool := false
  deriving DecidableEq, Repr

/-- A boot record (R396). -/
structure BootRec where
  /-- ACTIVE (R396) -/
  slot : Nat := 0
  /-- TRIAL (R396) -/
  trial : Bool := false
  /-- MIN_SVN (R396) -/
  minSvn : Nat := 0
  /-- SEQ (R396) -/
  seq : Nat := 0
  /-- boots counted in TRIES (R397) -/
  tries : Nat := 0
  /-- CONFIRM is 0 (R397) -/
  confirmed : Bool := false
  deriving DecidableEq, Repr

/-- The CFL window (R407). -/
structure Cfl where
  /-- sectors by SECTOR number of R389 (R383) -/
  sectors : FMap Sector := []
  /-- operation running or suspended (R390) -/
  op : Option FlashOp := none
  /-- result of the last operation (R389) -/
  lastStatus : Nat := 0
  /-- its OP (R389) -/
  lastOp : Nat := 0
  /-- its SECTOR (R389) -/
  lastSector : Nat := 0
  /-- pulses of its last unit (R389) -/
  lastPulses : Nat := 0
  /-- its time in microseconds (R389) -/
  lastTime : Nat := 0
  /-- XO_LOCK (R407) -/
  xoLock : Bool := false
  /-- CFL_XO_r (R407) -/
  xo : FMap Xo := []
  /-- CFL_ECC_CORR (R407) -/
  eccCorr : Nat := 0
  /-- CFL_FAULTS (R407) -/
  faults : Nat := 0
  /-- bytes of the calibration row that are known (R394) -/
  cal : FMap Nat := []
  deriving DecidableEq, Repr

/-- The BOT window (R408), boot records and slots. -/
structure Bot where
  /-- STAGE (R408) -/
  stage : Nat := 0
  /-- ACTIVE_SLOT (R408) -/
  slot : Nat := 0
  /-- TRIAL (R408) -/
  trial : Bool := false
  /-- FALLBACK (R408) -/
  fallback : Bool := false
  /-- ACTIVE_SVN (R408) -/
  svn : Nat := 0
  /-- MIN_SVN (R408) -/
  minSvn : Nat := 0
  /-- BOT_RECORD_SEQ (R408) -/
  recSeq : Nat := 0
  /-- BOT_BOOT_TIME (R408) -/
  bootUs : Nat := 0
  /-- BOT_ACT_PAUSE (R408) -/
  pauseUs : Nat := 0
  /-- BOT_ACTIVATIONS (R408) -/
  activations : Nat := 0
  /-- current boot record (R396) -/
  record : BootRec := {}
  /-- firmware slots A and B (R384) -/
  slots : FMap (Option FwImage) := []
  /-- measurements 1 to 5 (R401) -/
  measure : List Bytes := []
  /-- alias private key, before reduction (R400) -/
  aliasKey : Bytes := []
  /-- recovery image bytes in staging SRAM (R434) -/
  recBuf : Memory := []
  /-- resume record: GENERATION, NEXT_SEQ, boot record SEQ, persistent pools BALANCED (R416) -/
  resume : Option (Nat × Nat × Nat × Bool) := none
  /-- JTAG had been unlocked when the resume record was written (R419) -/
  jtagAtEntry : Bool := false
  deriving DecidableEq, Repr

/-- The WDT window (R409). -/
structure Wdt where
  /-- staged T1 (R409) -/
  t1 : Nat := 32768
  /-- staged T2 (R409) -/
  t2 : Nat := 2048
  /-- active T1 (R409) -/
  t1A : Nat := 32768
  /-- active T2 (R409) -/
  t2A : Nat := 2048
  /-- STATE (R409) -/
  state : Nat := 0
  /-- COUNT (R409) -/
  count : Nat := 0
  /-- WDT_STAGE1 (R409) -/
  stage1 : Nat := 0
  /-- WDT_RESETS (R409) -/
  resets : Nat := 0
  /-- WDT_DEFER.LAST_US (R409) -/
  deferUs : Nat := 0
  /-- WDT_BAD_KICK (R409) -/
  badKick : Nat := 0
  deriving DecidableEq, Repr


/-! ## Management plane: Manifest, event log, endpoint, SPDM -/
/-- A Manifest record (R436). -/
structure MUnit where
  /-- STATE (R442) -/
  state : UState := .alive
  /-- REASON (R442) -/
  reason : Reason := .none
  /-- FLAGS.QUIESCING (R436) -/
  quiescing : Bool := false
  /-- GENERATION (R442) -/
  generation : Nat := 1
  /-- EPOCH (R436) -/
  epoch : Nat := 0
  /-- TIME_MS (R436) -/
  timeMs : Nat := 0
  /-- DETAIL (R436) -/
  detail : Nat := 0
  /-- PREV_STATE (R442) -/
  prevState : UState := .alive
  /-- PREV_REASON (R442) -/
  prevReason : Reason := .none
  /-- TRANSITIONS (R442) -/
  transitions : Nat := 0
  /-- the quiesced state a QUIESCING unit moves to (R440) -/
  pending : Option (UState × Reason) := none
  deriving DecidableEq, Repr

/-- The MNF window (R450). -/
structure Mnf where
  /-- records by unit ID (R435) -/
  units : FMap MUnit := []
  /-- persistent copy of the records in MRAM (R442) -/
  copy : FMap MUnit := []
  /-- MNF_CHANGES (R450) -/
  changes : Nat := 0
  /-- MNF_LAST (R450) -/
  last : Nat := 0
  /-- MNF_STALE (R450) -/
  stale : Nat := 0
  deriving DecidableEq, Repr

/-- An event record (R444). -/
structure Ev where
  /-- SEQ (R444) -/
  seq : Nat := 0
  /-- TIME_MS (R444) -/
  timeMs : Nat := 0
  /-- EPOCH (R444) -/
  epoch : Nat := 0
  /-- CODE (R444) -/
  code : Nat := 0
  /-- SEVERITY (R444) -/
  severity : Nat := 0
  /-- UNIT_ID (R444) -/
  unit : Nat := 0xFFFFFFFF
  /-- the event's fields, each in its own width (R444) -/
  data : Bytes := []
  /-- ring unit at which the record begins (R445) -/
  pos : Nat := 0
  /-- ring units it occupies, 1 + LEN (R445) -/
  units : Nat := 2
  deriving DecidableEq, Repr

/-- The event log (R445). -/
structure Evl where
  /-- records, oldest first (R445) -/
  ring : List Ev := []
  /-- ring unit at which the next record begins (R445) -/
  slotAt : Nat := 0
  /-- MGT_EVENT_NEXT_SEQ (R444) -/
  next : Nat := 1
  /-- MGT_EVENT_LOST (R449) -/
  lost : Nat := 0
  deriving DecidableEq, Repr

/-- A capture of a telemetry log (R446). -/
structure Telem where
  /-- captures so far, modulo 256 (R446) -/
  gen : Nat := 0
  /-- area 1 (R446) -/
  area1 : Bytes := []
  /-- Manifest records of area 2 (R446) -/
  units : FMap MUnit := []
  /-- event records of area 3 (R446) -/
  ring : List Ev := []
  deriving DecidableEq, Repr

/-- The MGT window (R449) and the endpoint (R431 to R434). -/
structure Mgt where
  /-- I3C binding in use (else SMBus) (R449) -/
  i3c : Bool := false
  /-- SMBUS (R449) -/
  smbusUsed : Bool := false
  /-- PCIE_VDM (R449) -/
  vdm : Bool := false
  /-- SMBUS_ADDR (R449) -/
  smbusAddr : Nat := 0x1D
  /-- I3C_DA (R449) -/
  i3cDa : Nat := 0
  /-- EID (R449) -/
  eid : Nat := 0
  /-- MGT_RX_MSGS (R449) -/
  rx : Nat := 0
  /-- MGT_TX_MSGS (R449) -/
  tx : Nat := 0
  /-- MGT_MIC_ERR (R449) -/
  micErr : Nat := 0
  /-- MGT_DROPPED (R449) -/
  dropped : Nat := 0
  /-- MGT_HEALTH bits (R449) -/
  health : List Nat := []
  /-- NVMe-MI command slots holding a request (R432) -/
  busySlots : List Nat := []
  /-- configuration: SMBus/I3C Frequency (R432) -/
  freq : Nat := 1
  /-- configuration: Health Status Change (R432) -/
  healthChange : Nat := 0
  /-- configuration: MCTP Transmission Unit Size (R431) -/
  mtu : Nat := 64
  /-- VPD bytes held in P2 (R432) -/
  vpd : Memory := []
  /-- host-initiated capture (R446) -/
  telemHost : Telem := {}
  /-- controller-initiated capture (R446) -/
  telemCtrl : Telem := {}
  /-- tunnelled commands waiting for a wake: command slot, opcode, controller (R433) -/
  tunnel : List (Nat × Nat × Nat) := []
  deriving DecidableEq, Repr

/-- The SPDM responder (R401). -/
structure SpdmS where
  /-- GET_VERSION answered (R401) -/
  version : Bool := false
  /-- GET_CAPABILITIES answered (R401) -/
  caps : Bool := false
  /-- NEGOTIATE_ALGORITHMS answered (R401) -/
  algs : Bool := false
  /-- 0 none, 1 handshake, 2 established (R401) -/
  session : Nat := 0
  /-- session identifier (R401) -/
  sessionId : Nat := 0
  /-- updates of the session keys (R401) -/
  keyGen : Nat := 0
  /-- free values drawn (R401) -/
  draws : Nat := 0
  deriving DecidableEq, Repr


/-! ## Power, clocks and recovery -/
/-- Core adaptive voltage of one Hearth (R422, R429). -/
structure Avs where
  /-- MV (R429) -/
  mv : Nat := 800
  /-- MARGIN (R429) -/
  margin : Nat := 0
  /-- STRETCH (R429) -/
  stretch : Nat := 0
  /-- the Hearth stretches its clock until the next evaluation (R422) -/
  stretching : Bool := false
  /-- run of pinned evaluations (R160) -/
  run : Nat := 0
  deriving DecidableEq, Repr

/-- The EMB window (R429). -/
structure Emb where
  /-- MODE (R429) -/
  mode : PMode := .idleReady
  /-- EMB_RESET_CAUSE bits (R429) -/
  cause : List Nat := [0]
  /-- EMB_WAKE.CAUSE (R429) -/
  wakeCause : Nat := 0
  /-- EMB_WAKE.FULL_PATH (R429) -/
  fullPath : Bool := false
  /-- EMB_TJ.TJ_C (R429) -/
  tj : Int := 0
  /-- EMB_TJ.SENSOR (R429) -/
  sensor : Nat := 0
  /-- EMB_TJ_PEAK (R429) -/
  tjPeak : Int := 0
  /-- EMB_THROTTLE.LEVEL (R429) -/
  level : Nat := 0
  /-- run of the thermal loop (R160) -/
  thermRun : Nat := 0
  /-- EMB_THERMAL_PINNED (R429) -/
  thermPinned : Nat := 0
  /-- EMB_AVS_PINNED (R429) -/
  avsPinned : Nat := 0
  /-- EMB_LOOP_EVENTS (R429) -/
  loopEvents : Nat := 0
  /-- EMB_TRIPS (R429) -/
  trips : Nat := 0
  /-- EMB_WAKES (R429) -/
  wakes : Nat := 0
  /-- EMB_AVS_h (R429) -/
  avs : FMap Avs := []
  /-- EMB_TIME_m (R429) -/
  times : FMap Nat := []
  /-- time the sleep conditions have held (R415) -/
  idleMs : Nat := 0
  /-- milliseconds in Dormant since the device entered it (R415) -/
  dormantMs : Nat := 0
  /-- ports whose WAKEn_N is driven low (R452) -/
  wakeN : List Nat := []
  /-- the sleep entry under way is an orderly device reset (R427) -/
  orderly : Bool := false
  /-- the device is off after a thermal trip (R424) -/
  tripped : Bool := false
  /-- DRAM in self-refresh (R414) -/
  selfRefresh : Bool := false
  /-- the part is an SKN-4864-E (R1) -/
  extended : Bool := false
  /-- the management core's Ember memory (R31) -/
  memory : Memory := []
  deriving DecidableEq, Repr

/-- The BLW window (R430) and the rails (R410). -/
structure Blw where
  /-- XTAL_OK (R430) -/
  xtalOk : Bool := false
  /-- XTAL_FAIL (R430) -/
  xtalFail : Bool := false
  /-- OSC25_OK (R430) -/
  osc25 : Bool := false
  /-- PLL_LOCK bits (R430) -/
  pll : List Nat := []
  /-- DOMAIN_ON (R430) -/
  on : List Dom := []
  /-- IN_RESET (R430) -/
  inReset : List Dom := [.host, .data, .control, .memory]
  /-- BLW_SEQ.SEQUENCE (R430) -/
  seq : Nat := 1
  /-- BLW_SEQ.STEP (R430) -/
  step : Nat := 0
  /-- BLW_LAST.TIME_US (R430) -/
  lastUs : Nat := 0
  /-- BLW_LAST.SEQUENCE (R430) -/
  lastSeq : Nat := 0
  /-- BLW_RAIL_LOSS (R430) -/
  railLoss : Nat := 0
  /-- BLW_HELD_WAKES (R430) -/
  heldWakes : Nat := 0
  /-- a wake request that has reached Bellows: 1 PERSTn_N of port 0, 2 of port 1, 3 the watcher (R418) -/
  wakeReq : Option Nat := none
  /-- installed DRAM in GiB (R24) -/
  dramGiB : Nat := 128
  /-- rails below their good level, by the row of R410 (R410) -/
  railsBad : List Nat := []
  deriving DecidableEq, Repr


/-! ## The device -/

/-- Everything the spec gives the controller, one field per block, and what the last command sent out. -/
structure Dev where
  /-- The accounting epoch of R38 and the times of R222 -/
  clk : Clock := {}
  /-- The TOL window (R42) -/
  tol : Tol := {}
  /-- The plane mailbox path of R15 -/
  fab : Fabric := {}
  /-- The HLK window (R70) -/
  hlk : Hlk := {}
  /-- The FNM window (R71) -/
  fnm : Fnm := {}
  /-- The QEN window (R111) and the fetch engine (R79) -/
  qen : Qen := {}
  /-- The NVM subsystem -/
  nvm : Nvm := {}
  /-- The WRP window (R134), the write pipeline and the granule locks (R116) -/
  wrp : Wrp := {}
  /-- The RDP window (R135) and the read pipeline -/
  rdp : Rdp := {}
  /-- The ICM window (R136) -/
  icm : Icm := {}
  /-- The MXT window (R136) -/
  mxt : Mxt := {}
  /-- The LDC window (R137) -/
  ldc : Ldc := {}
  /-- The MCH window (R166) -/
  mch : Mch := {}
  /-- The CRT window (R167) -/
  crt : Crt := {}
  /-- The JRN window (R202) and the ring (R180 to R182) -/
  jrn : Jrn := {}
  /-- The MAP window (R201), the map and the block table -/
  map : Map := {}
  /-- The PAR window (R230), stripes and rebuild -/
  par : Par := {}
  /-- The OUT window (R231) and the patrol -/
  outr : Outr := {}
  /-- The HRT window (R260) -/
  hrt : Hrt := {}
  /-- The TNG window (R298) -/
  tng : Tng := {}
  /-- The CXE window (R315) -/
  cxe : Cxe := {}
  /-- The DGE window (R342) -/
  dge : Dge := {}
  /-- The AEE window (R343) -/
  aee : Aee := {}
  /-- The KEY window (R344) and the key vault (R324) -/
  key : Key := {}
  /-- The DRV window (R364) -/
  drv : Drv := {}
  /-- The ICU window (R381) -/
  icu : Icu := {}
  /-- The CFL window (R407) -/
  cfl : Cfl := {}
  /-- The BOT window (R408), boot records and slots -/
  bot : Bot := {}
  /-- The WDT window (R409) -/
  wdt : Wdt := {}
  /-- The MNF window (R450) -/
  mnf : Mnf := {}
  /-- The event log (R445) -/
  evl : Evl := {}
  /-- The MGT window (R449) and the endpoint (R431 to R434) -/
  mgt : Mgt := {}
  /-- The SPDM responder (R401) -/
  spdm : SpdmS := {}
  /-- The EMB window (R429) -/
  emb : Emb := {}
  /-- The BLW window (R430) and the rails (R410) -/
  blw : Blw := {}
  /-- what the last command put on the links, the queues and the pins; each command starts it anew -/
  out : List Output := []
  deriving DecidableEq, Repr

/-- The whole machine: the commands that wait, first in first out, and the device. -/
structure State where
  /-- commands that wait, the front one next -/
  pending : List Instr := []
  /-- the device -/
  dev : Dev := {}
  deriving DecidableEq, Repr

/-- The reasons a step can stop with a fault. The spec gives every command an effect, so no meaning of this model
raises one; the type is inhabited because the interface asks for a closed inductive. Safe. -/
inductive Fault where
  /-- raised by no meaning: kept for a command without any effect in the spec, of which there is none. Safe. -/
  | noEffectStated
  deriving DecidableEq, Repr

/-- The reasons a step can be refused. -/
inductive Refusal where
  /-- raised by an arm of exec whose command has no meaning yet. Safe: the run stops. -/
  | notModelled (mnemonic : String)
  deriving DecidableEq, Repr

/-- The machine right after reset: every field at the value its structure states (R35, R36 and the reset column of the
register tables), no command waiting. The values that the spec does not state are named in the assumption log. -/
def State.reset : State := {}

end Sys2Proof.Machine
end

