-- ==== Sys2Proof/Machine/Policy.lean ====
section
/-! DEFINITION. The policy tables (R95 to R97): factory tables, the checks of a load, and the fields the device reads
from the active tables (R88, R159, R192, R196, R216, R227, R259, R425, R447). -/

namespace Sys2Proof.Machine

/-- The identifiers of R96. -/
def policyIds : List Nat := [1, 2, 3, 4, 5, 6, 7, 8, 9]

/-- A whole table: the header of R95 with SEQUENCE and CRC32C, then the body. -/
def policyTable (id seq : Nat) (body : Bytes) : Bytes :=
  let len := 32 + body.length
  let head := leBytes 1 id ++ leBytes 1 1 ++ zeroBytes 2 ++ leBytes 4 len ++ leBytes 8 seq ++ zeroBytes 12
  let crc := crc32c (head ++ zeroBytes 4 ++ body)
  head ++ leBytes 4 crc ++ body

/-- A body written as (size, value) fields in ascending offset. -/
def fields (l : List (Nat × Nat)) : Bytes := (l.map (fun p => leBytes p.1 p.2)).flatten

/-- A signed value as the two bytes of its field. -/
def s16 (i : Int) : Nat := (i % 65536).toNat

/-- The factory bodies. Of table 0x03 PIN_EVENT_EPOCHS and the reserved bytes are given, the rest is open (log 31); the ENABLE
word of table 0x04 is not stated either (log 24). -/
def factoryBody (extended : Bool) (id : Nat) : Bytes :=
  match id with
  | 1 => fields [(2, 300), (2, 100), (2, 16), (1, 90), (1, 0), (4, 1024), (4, 0)]
  | 2 => fields ([(2, 25), (2, 400), (2, 1000), (2, 6), (1, 50), (7, 0)] ++
      [(2, 0), (2, 400), (2, 5000), (2, 300), (2, 8000), (2, 100), (2, 9000), (2, 50), (2, 9500), (2, 25),
       (2, 10000), (2, 25)])
  | 3 => overlay (overlay Config.factory03 4 (leBytes 2 1000)) 8 (zeroBytes 8)
  | 4 => fields [(4, 3), (2, 1000), (2, 14), (4, 100), (4, 1000), (4, 10000), (4, 100000), (2, 24), (2, 90), (2, 160),
      (2, 0), (4, 100), (12, 0)]
  | 5 => fields [(1, 128), (1, 128), (1, 32), (1, 16), (1, 32), (1, 8), (1, 64), (1, 0)]
  | 6 =>
    let k : Int := if extended then 10 else 0
    fields ([(4, 3), (2, 1000), (2, 700), (2, 800), (1, 5), (1, 24), (1, 48), (1, 0), (1, 15), (1, 6), (1, 3), (1, 1),
      (2, 1000), (4, 3600), (8, 0)] ++
      ([((-40 : Int), 0), (90 + k, 1), (95 + k, 3), (100 + k, 6), (103 + k, 10), (105 + k, 15)].map
        (fun p => [(2, s16 p.1), (1, p.2), (1, 0)])).flatten)
  | 7 => fields [(4, 0), (2, 0), (2, 25500), (2, 1000), (2, 1), (4, 0), (4, 0), (2, 0), (2, 0)]
  | 8 => fields [(1, 0x3C), (1, 0), (1, 32), (1, 16), (4, 60000), (8, 0)]
  | 9 => fields [(1, 10), (1, 3), (2, 500), (2, 100), (2, 30), (1, 90), (7, 0)]
  | _ => []

/-- The factory table of an identifier, with SEQUENCE 0 (log 25). -/
def factoryTable (extended : Bool) (id : Nat) : Bytes := policyTable id 0 (factoryBody extended id)

/-- The active table of an identifier. -/
def Dev.tbl (d : Dev) (id : Nat) : Bytes := (fget d.nvm.policy none id).getD (factoryTable d.emb.extended id)

/-- A field of an active table. -/
def Dev.tf (d : Dev) (id off len : Nat) : Nat := fieldAt (d.tbl id) off len

/-- SEQUENCE of a table. -/
def tableSeq (t : Bytes) : Nat := fieldAt t 8 8

/-! ## Fields that the device reads -/

def Dev.gcStartBp (d : Dev) : Nat := d.tf 1 0x20 2
def Dev.gcUrgentBp (d : Dev) : Nat := d.tf 1 0x22 2
def Dev.reservePerDie (d : Dev) : Nat := d.tf 1 0x24 2
def Dev.victimMaxPct (d : Dev) : Nat := d.tf 1 0x26 1
def Dev.roExitGib (d : Dev) : Nat := d.tf 1 0x28 4
def Dev.offAssumeDays (d : Dev) : Nat := d.tf 4 0x3A 2
def Dev.targetDays (d : Dev) : Nat := d.tf 4 0x26 2
def Dev.aenMask (d : Dev) (i : Nat) : Bool := bit (d.tf 9 0x21 1) i
def Dev.ownerHearths (d : Dev) : Nat := d.tf 8 0x20 1
def Dev.adaptiveOn (d : Dev) : Bool := bit (d.tf 7 0x20 4) 0

/-- The points (x, y) of a curve: `n` points of `step` bytes from `off`, with sizes of x and y. -/
def curve (t : Bytes) (off step xs yo ys n : Nat) : List (Nat × Nat) :=
  (List.range n).map (fun i => (fieldAt t (off + step * i) xs, fieldAt t (off + step * i + yo) ys))

/-- A two-byte signed field. -/
def sgn16 (n : Nat) : Int := if n < 32768 then n else (n : Int) - 65536

/-- A one-byte signed field. -/
def sgn8 (n : Nat) : Int := if n < 128 then n else (n : Int) - 256

/-! ## The ladders of table 0x03 (R159) -/

/-- Length of the ladder at an offset. -/
def ladderLen (t : Bytes) (off : Nat) : Nat := 0x28 + 16 * fieldAt t (off + 4) 1

/-- Offsets of the ladders, `n` of them from `off` on. -/
def ladderOffs (t : Bytes) (n off : Nat) : List Nat :=
  match n with
  | 0 => []
  | k + 1 => off :: ladderOffs t k (off + ladderLen t off)

/-- Number of references of a cell mode (0 pSLC, 1 TLC, 2 QLC). -/
def nrefOf (cell : Nat) : Nat := if cell = 0 then 1 else if cell = 1 then 7 else 15

/-- The ladder of a profile and cell mode in a table. -/
def findLadder (t : Bytes) (profile cell : Nat) : Option Nat :=
  (ladderOffs t (fieldAt t 0x27 1) 0x30).find? (fun o => fieldAt t o 2 = profile ∧ fieldAt t (o + 2) 1 = cell)

/-- The table and the offset whose ladder serves a profile and cell mode: the active one, else the factory one (R159). -/
def Dev.ladder (d : Dev) (profile cell : Nat) : Option (Bytes × Nat) :=
  match findLadder (d.tbl 3) profile cell with
  | some o => some (d.tbl 3, o)
  | none =>
    let t := factoryTable d.emb.extended 3
    (findLadder t profile cell).map (fun o => (t, o))

/-- Signed bytes of a 16-byte row. -/
def signedRow (t : Bytes) (off : Nat) : List Int := (List.range 16).map (fun i => sgn8 (fieldAt t (off + i) 1))

/-- Rungs of the ladder that serves a profile and cell mode. -/
def Dev.rungs (d : Dev) (profile cell : Nat) : Nat :=
  match d.ladder profile cell with
  | some (t, o) => fieldAt t (o + 4) 1
  | none => 0

/-- Rung offsets. -/
def Dev.rungOffsets (d : Dev) (profile cell k : Nat) : List Int :=
  match d.ladder profile cell with
  | some (t, o) => signedRow t (o + 0x28 + 16 * k)
  | none => List.replicate 16 0

/-- The window of the tracked set: WMIN and WMAX per reference. -/
def Dev.trackWindow (d : Dev) (profile cell : Nat) : List (Int × Int) :=
  match d.ladder profile cell with
  | some (t, o) => (signedRow t (o + 8)).zip (signedRow t (o + 0x18))
  | none => List.replicate 16 (0, 0)

/-! ## The checks of a load (R97, check 5) -/

/-- A range check of a field: offset, size, least and greatest value. -/
def inR (t : Bytes) (off len lo hi : Nat) : Nat × Bool := (off, decide (lo ≤ fieldAt t off len ∧ fieldAt t off len ≤ hi))

/-- A reserved field must be zero; the offending offset is that of its first byte that is not. -/
def resv (t : Bytes) (off len : Nat) : List (Nat × Bool) := (List.range len).map (fun i => inR t (off + i) 1 0 0)

/-- Checks of the curve of table 0x02, point by point. -/
def pslcPoints (t : Bytes) : List (Nat × Bool) :=
  let n := fieldAt t 0x26 2
  ((List.range n).map (fun i =>
    let o := 0x30 + 4 * i
    let x := fieldAt t o 2
    [(o, decide (x ≤ 10000) && (if i = 0 then decide (x = 0) else decide (fieldAt t (o - 4) 2 < x)) &&
        (decide (i + 1 ≠ n) || decide (x = 10000))),
     inR t (o + 2) 2 0 1000])).flatten

/-- Checks of the ladders of table 0x03: the number of ladders left, the offset of the next one and the pairs seen so far. -/
def ladderChecks (t : Bytes) (n off : Nat) (seen : List (Nat × Nat)) : List (Nat × Bool) :=
  match n with
  | 0 => []
  | k + 1 =>
    let cell := fieldAt t (off + 2) 1
    let nref := nrefOf cell
    let rungs := fieldAt t (off + 4) 1
    let pair := (fieldAt t off 2, cell)
    [(off, decide (pair ∉ seen)), inR t (off + 2) 1 0 2, (off + 3, decide (fieldAt t (off + 3) 1 = nref)),
     inR t (off + 4) 1 1 32] ++ resv t (off + 5) 3 ++ resv t (off + 8 + nref) (16 - nref) ++
     resv t (off + 0x18 + nref) (16 - nref) ++
     ((List.range rungs).map (fun j => resv t (off + 0x28 + 16 * j + nref) (16 - nref))).flatten ++
     ladderChecks t k (off + ladderLen t off) (pair :: seen)

/-- Checks of the curve of table 0x07. -/
def moderationPoints (t : Bytes) : List (Nat × Bool) :=
  ((List.range (fieldAt t 0x2A 2)).map (fun i =>
    let o := 0x30 + 8 * i
    [(o, if i = 0 then decide (fieldAt t o 4 = 0) else decide (fieldAt t (o - 8) 4 < fieldAt t o 4)),
     inR t (o + 4) 2 0 25500] ++ resv t (o + 6) 2)).flatten

/-- Checks of the curve of table 0x06. -/
def thermalPoints (t : Bytes) : List (Nat × Bool) :=
  ((List.range (fieldAt t 0x2F 1)).map (fun i =>
    let o := 0x40 + 4 * i
    let x := sgn16 (fieldAt t o 2)
    [(o, decide (-40 ≤ x ∧ x ≤ 125) && (decide (i = 0) || decide (sgn16 (fieldAt t (o - 4) 2) < x))),
     inR t (o + 2) 1 0 15] ++ resv t (o + 3) 1)).flatten

/-- All checks of a table's body in ascending offset, each with its offset and whether it holds. A length that
disagrees with the format is found at LENGTH, offset 4, before the body. -/
def bodyChecks (id : Nat) (t : Bytes) : List (Nat × Bool) :=
  let len := t.length
  let size (n : Nat) : List (Nat × Bool) := [(4, decide (len = n))]
  match id with
  | 1 => size 0x30 ++ [inR t 0x20 2 50 2000, inR t 0x22 2 10 (fieldAt t 0x20 2), inR t 0x24 2 4 64, inR t 0x26 1 50 99] ++
      resv t 0x27 1 ++ [inR t 0x28 4 1 1000000] ++ resv t 0x2C 4
  | 2 => size (0x30 + 4 * fieldAt t 0x26 2) ++ [inR t 0x20 2 0 1000, inR t 0x22 2 1 1000, inR t 0x24 2 1 65535,
      (0x26, decide (2 ≤ fieldAt t 0x26 2 ∧ fieldAt t 0x26 2 ≤ 16 ∧ fieldAt t 0x26 2 % 2 = 0)), inR t 0x28 1 0 100] ++
      resv t 0x29 7 ++ pslcPoints t
  | 3 => size (0x30 + ((ladderOffs t (fieldAt t 0x27 1) 0x30).map (ladderLen t)).sum) ++
      [inR t 0x20 4 0 1, inR t 0x24 2 1 65535, inR t 0x26 1 1 16, inR t 0x27 1 1 24] ++ resv t 0x28 8 ++
      ladderChecks t (fieldAt t 0x27 1) 0x30 []
  | 4 => size 0x50 ++ [inR t 0x20 4 0 3, inR t 0x24 2 1 65535, inR t 0x26 2 1 90, inR t 0x28 4 1 100000,
      inR t 0x2C 4 1 100000, inR t 0x30 4 1 100000, inR t 0x34 4 1 100000, inR t 0x38 2 1 8760, inR t 0x3A 2 1 3650,
      inR t 0x3C 2 1 511] ++ resv t 0x3E 2 ++ [inR t 0x40 4 1 10000] ++ resv t 0x44 12
  | 5 => size 0x28 ++ (List.range 7).map (fun i => inR t (0x20 + i) 1 1 255) ++ [inR t 0x27 1 0 1]
  | 6 => size (0x40 + 4 * fieldAt t 0x2F 1) ++ [inR t 0x20 4 0 3, inR t 0x24 2 1 65535, inR t 0x26 2 650 850,
      inR t 0x28 2 650 850, inR t 0x2A 1 1 10, inR t 0x2B 1 1 254, inR t 0x2C 1 (fieldAt t 0x2B 1 + 1) 255,
      inR t 0x2D 1 0 15, inR t 0x2E 1 0 15, inR t 0x2F 1 1 16, inR t 0x30 1 0 3, inR t 0x31 1 0 1,
      inR t 0x32 2 10 60000, inR t 0x34 4 1 2592000] ++ resv t 0x38 8 ++ thermalPoints t
  | 7 => size (0x30 + 8 * fieldAt t 0x2A 2) ++ [inR t 0x20 4 0 1, inR t 0x24 2 0 10000, inR t 0x26 2 1 25500,
      inR t 0x28 2 1 65535, inR t 0x2A 2 1 16] ++ resv t 0x2C 4 ++ moderationPoints t
  | 8 => size 0x30 ++ [(0x20, decide (fieldAt t 0x20 1 &&& 0xC3 = 0 ∧ fieldAt t 0x20 1 ≠ 0)), inR t 0x21 1 0 3,
      inR t 0x22 1 16 63, inR t 0x23 1 1 255, inR t 0x24 4 1 3600000] ++ resv t 0x28 8
  | 9 => size 0x30 ++ [inR t 0x20 1 1 100, inR t 0x21 1 0 3, inR t 0x22 2 1 5000, inR t 0x24 2 1 (fieldAt t 0x22 2),
      inR t 0x26 2 1 365, inR t 0x28 1 1 255] ++ resv t 0x29 7
  | _ => []

/-- Checks of the header (R97, check 4). -/
def headerChecks (id : Nat) (t : Bytes) : List (Nat × Bool) :=
  [(0, decide (fieldAt t 0 1 = id)), (1, decide (fieldAt t 1 1 = 1))] ++ resv t 2 2 ++ resv t 0x10 12

/-- Offset of the first failing check. -/
def firstBad (l : List (Nat × Bool)) : Option Nat := (l.find? (fun p => !p.2)).map (·.1)

/-- The checks 2 to 6 of R97 on a load of `t` into table `id` with CDW11 `len`: the status and the offending offset. -/
def policyCheck (d : Dev) (id len : Nat) (t : Bytes) : Status × Nat :=
  if fieldAt t 4 4 ≠ len then (.dataSglLength, 0)
  else if fieldAt t 0x1C 4 ≠ crc32c (overlay t 0x1C (zeroBytes 4)) then (.tableCrc, 0)
  else match firstBad (headerChecks id t) with
    | some o => (.policyInvalid, o)
    | none => match firstBad (bodyChecks id t) with
      | some o => (.policyInvalid, o)
      | none =>
        let above := match fget d.nvm.stored none id with
          | some w => tableSeq w
          | none => 0
        if tableSeq (d.tbl id) < tableSeq t ∧ (above < tableSeq t) then (.success, 0) else (.policyStale, 0)

end Sys2Proof.Machine
end

