-- ==== Sys2Proof/Machine/Ops.lean ====
section
/-! DEFINITION. Operations that the meanings share: the frame of a command, the Tollgate pools (R35, R59, R60), the event
log (R444, R445), the Manifest (R435 to R442), asynchronous events (R443), interrupts (R85 to R89) and completions (R80). -/

namespace Sys2Proof.Machine

/-! ## The frame of a command -/

/-- The outcome of a command with effect `f`: the outputs of the command before it are gone, the queue stands. -/
def act (s : State) (f : Dev → Dev) : Host.Outcome State Fault Refusal :=
  .next { s with dev := f { s.dev with out := [] } }

/-- Adds an output. -/
def Dev.emit (d : Dev) (o : Output) : Dev := { d with out := d.out ++ [o] }

/-- Does something where a condition holds. -/
def Dev.doIf (d : Dev) (c : Bool) (f : Dev → Dev) : Dev := if c then f d else d

/-- Does something for every element of a list. -/
def Dev.forEach {α : Type} (d : Dev) (l : List α) (f : Dev → α → Dev) : Dev := l.foldl f d

/-! ## Functions and ports (R43, R55) -/

/-- Number of functions. -/
def nFn : Nat := 1024

/-- MSI-X vectors of a function (R85). -/
def nVec : Nat := 257

/-- The port of a function in the mode in use. -/
def Dev.portOf (d : Dev) (fix : Nat) : Nat := if d.hlk.modeA = 1 ∧ 512 ≤ fix then 1 else 0

/-- Whether a function is a physical function. -/
def Dev.isPf (d : Dev) (fix : Nat) : Bool := decide (fix = 0) || decide (d.hlk.modeA = 1 ∧ fix = 512)

/-- The PF of a port. -/
def pfOf (port : Nat) : Nat := 512 * port

/-- The physical functions of the mode in use. -/
def Dev.pfs (d : Dev) : List Nat := if d.hlk.modeA = 1 then [0, 512] else [0]

/-- Ports of the mode in use. -/
def Dev.portsUsed (d : Dev) : List Nat := if d.hlk.modeA = 1 then [0, 1] else [0]

def Dev.port (d : Dev) (n : Nat) : Port := fget d.hlk.ports {} n
def Dev.modPort (d : Dev) (n : Nat) (f : Port → Port) : Dev :=
  { d with hlk := { d.hlk with ports := fmod d.hlk.ports {} n f } }

def Dev.fn (d : Dev) (fix : Nat) : Fn := fget d.fnm.fns {} fix
def Dev.modFn (d : Dev) (fix : Nat) (f : Fn → Fn) : Dev :=
  { d with fnm := { d.fnm with fns := fmod d.fnm.fns {} fix f } }

/-- Whether a function exists (R55): a PF of the mode in use, or a VF enabled on its port, or one whose reset by a
cleared VF Enable is not complete yet. -/
def Dev.fnExists (d : Dev) (fix : Nat) : Bool :=
  let p := d.portOf fix
  let idx := fix - pfOf p
  decide (fix < nFn) && (d.isPf fix || (d.port p).vfEnable && decide (1 ≤ idx ∧ idx ≤ (d.port p).numVfs))

/-- Functions of a port, whether they exist or not. -/
def Dev.fnsOfPort (d : Dev) (p : Nat) : List Nat :=
  if d.hlk.modeA = 1 then (List.range 512).map (· + 512 * p) else if p = 0 then List.range nFn else []

/-- Whether a domain of R21 is powered and out of reset. -/
def Dev.domOn (d : Dev) (x : Dom) : Bool := decide (x ∈ d.blw.on)

/-! ## Tollgate pools -/

/-- Pools with shares (R35). -/
def ePools : List Nat := [0, 2, 3, 20, 21, 22, 23, 25, 26, 27, 28]
def isEPool (p : Nat) : Bool := decide (p ∈ ePools)

/-- Persistent pools (R35). -/
def isPPool (p : Nat) : Bool := decide (p ∈ [5, 6, 7, 23, 28, 29, 30])

/-- Domain of a pool (R35). -/
def poolDom (p : Nat) : Dom :=
  if p ∈ [0, 1, 31] then .host else if p ∈ [15, 17, 18, 19, 20, 21, 22, 23, 24, 25, 26, 27, 28] then .control else .data

/-- Capacity of a pool before anything changes it (R35); pools 5, 6 and 30 follow the media and the namespaces. The
journal ring has 7,168 pages (R176). -/
def poolCap (dramGiB p : Nat) : Nat :=
  match p with
  | 0 => 65536 | 1 => 8192 | 2 => 2048 | 3 => 512 | 4 => dramGiB * 1024 | 7 => 7168 | 8 => 64 | 9 => 8 | 10 => 16
  | 11 => 16 | 12 => 32 | 13 => 2048 | 14 => 512 | 15 => 1536 | 16 => 256 | 17 => 16384 | 18 => 4096 | 19 => 24576
  | 20 => 16384 | 21 => 128 | 22 => dramGiB * 256 | 23 => 4096 | 24 => 1024 | 25 => 128 | 26 => 128 | 27 => 128
  | 28 => 4096 | 29 => 1024 | 31 => 65536
  | _ => 0

def poolInit (dramGiB p : Nat) : Pool := { capacity := poolCap dramGiB p, recCapacity := poolCap dramGiB p }

def Dev.pool (d : Dev) (p : Nat) : Pool := fget d.tol.pools (poolInit d.blw.dramGiB p) p
def Dev.modPool (d : Dev) (p : Nat) (f : Pool → Pool) : Dev :=
  { d with tol := { d.tol with pools := fmod d.tol.pools (poolInit d.blw.dramGiB p) p f } }

/-- Units that a pool has free: those lost are never issued (R40). -/
def Pool.free (p : Pool) : Nat := p.capacity - (p.issued - p.returned)

/-- After a SURPLUS or OVER_CAPACITY no unit is issued while HELD is at the capacity or above (R40). -/
def Pool.blocked (p : Pool) : Bool := decide (p.state = .surplus ∨ p.state = .overCapacity) && decide (p.capacity ≤ p.held)

def Pool.shareOf (p : Pool) (fix : Nat) : Share := fget p.shares {} fix

/-- Whether a request of `n` units can be issued (R60). -/
def Dev.canIssue (d : Dev) (p fix n : Nat) : Bool :=
  let q := d.pool p
  decide (n ≤ q.free) && !q.blocked &&
    (!isEPool p || decide ((q.shareOf fix).held + n ≤ (q.shareOf fix).share ∧ 0 < d.fnm.activeCount))

/-- Issues units to a function and counts them held. -/
def Dev.issue (d : Dev) (p fix n : Nat) : Dev :=
  d.modPool p (fun q => { q with
    issued := q.issued + n, held := q.held + n
    shares := if isEPool p then fmod q.shares {} fix (fun s => { s with held := s.held + n }) else q.shares })

/-- Returns units of a function. -/
def Dev.giveBack (d : Dev) (p fix n : Nat) : Dev :=
  d.modPool p (fun q => { q with
    returned := q.returned + n, held := q.held - n
    shares := if isEPool p then fmod q.shares {} fix (fun s => { s with held := s.held - n }) else q.shares })

/-- Issues units if that can be, else answers none. -/
def Dev.tryIssue (d : Dev) (p fix n : Nat) : Option Dev := if d.canIssue p fix n then some (d.issue p fix n) else none

/-- A request of a holder for units of an E pool (R60): issued at once if no earlier request of the function waits and
the units fit, else it waits in the order made. The second part says whether it was issued. DESIGN CHOICE (log 94): units
issued at once are no service of the round robin, whose pointer stays. -/
def Dev.request (d : Dev) (p fix n : Nat) (who : Waiter) : Dev × Bool :=
  if (d.pool p).waiting.any (fun r => r.fix = fix) = false ∧ d.canIssue p fix n then (d.issue p fix n, true)
  else (d.modPool p (fun q => { q with waiting := q.waiting ++ [{ fix := fix, n := n, who := who }] }), false)

/-! ## DMA reads of host memory (R49) -/

/-- Read requests that a transfer from host memory takes, each at most Max_Read_Request_Size long: the PF's, which holds for
its VFs too (PRESUMED, log 96). -/
def Dev.tagsFor (d : Dev) (fix bytes : Nat) : Nat := ceilDiv bytes (max 1 (d.fn (pfOf (d.portOf fix))).maxRead)

/-- Whether a DMA read can begin: a tag of pool 1 is free. -/
def Dev.mayRead (d : Dev) : Bool := d.canIssue 1 0 1

/-- A transfer from host memory with its tags of pool 1: one is issued per request and returned with its last completion. No
more than the pool holds are ever outstanding (log 95). -/
def Dev.hostRead (d : Dev) (fix bytes : Nat) : Dev :=
  let n := d.tagsFor fix bytes
  (d.issue 1 0 n).giveBack 1 0 n

/-- The oldest waiting request of a function in a pool. -/
def Pool.oldest (p : Pool) (fix : Nat) : Option Req := p.waiting.find? (fun r => r.fix = fix)

/-- One turn of the round robin of R60: the first function after the one last served whose oldest request fits. -/
def Dev.nextServed (d : Dev) (p : Nat) : Option Req :=
  let q := d.pool p
  match rotFind nFn q.lastServed (fun f => match q.oldest f with
      | some r => d.canIssue p f r.n
      | none => false) with
  | some f => q.oldest f
  | none => none

/-- Serves one waiting request: its units are issued and its holder finds them granted. -/
def Dev.serveOne (d : Dev) (p : Nat) : Dev :=
  match d.nextServed p with
  | none => d
  | some r =>
    (d.issue p r.fix r.n).modPool p (fun q => { q with
      lastServed := r.fix
      waiting := match takeFirst q.waiting (fun x => x.fix = r.fix) with
        | some (_, t) => t
        | none => q.waiting
      granted := q.granted ++ [r] })

/-- Takes up units that were granted to a holder; none if there is no such grant. -/
def Dev.takeGrant (d : Dev) (p : Nat) (who : Waiter) : Option Dev :=
  match takeFirst (d.pool p).granted (fun r => r.who = who) with
  | some (_, t) => some (d.modPool p (fun q => { q with granted := t }))
  | none => none

/-- Withdraws a holder's waiting request, and gives back units granted to it and not taken up. -/
def Dev.withdraw (d : Dev) (p : Nat) (who : Waiter) : Dev :=
  let d := d.modPool p (fun q => { q with waiting := q.waiting.filter (fun r => r.who ≠ who) })
  match takeFirst (d.pool p).granted (fun r => r.who = who) with
  | some (r, t) => (d.modPool p (fun q => { q with granted := t })).giveBack p r.fix r.n
  | none => d

/-! ## Current time (R222) -/

/-- Milliseconds that a number of ticks of the 32.768 kHz clock takes. -/
def tickMs (t : Nat) : Nat := t * 1000 / 32768

/-- The current time in milliseconds since 1970-01-01 UTC. -/
def Dev.nowMs (d : Dev) : Nat :=
  match d.clk.stamp with
  | some (ms, t) => ms + tickMs (d.clk.ticks - t)
  | none => d.clk.timeBase + d.offAssumeDays * 86400000 + tickMs d.clk.ticks

/-! ## Event log -/

/-- Severity that the table of R444 gives a code; for 0x0106, 0x0109 and 0x0301 the writer gives it. -/
def evSeverity (code : Nat) : Nat :=
  if code ∈ [0x0102, 0x0103] then 2 else if code ∈ [0x0107, 0x010C] then 3 else if code ∈ [0x0108, 0x0202] then 0 else 1

/-- Units of the ring that a record of `n` data bytes occupies: the header and LEN units, the CRC within them. -/
def evUnits (n : Nat) : Nat := 1 + max 1 (ceilDiv (n + 4) 32)

/-- Whether a record meets a span of the ring. -/
def Ev.meets (e : Ev) (lo hi : Nat) : Bool := decide (e.pos < hi ∧ lo < e.pos + e.units)

/-- Writes a record to the ring and its mirror (R445); the records that it overwrites are counted. -/
def Evl.write (l : Evl) (code sev unit time epoch : Nat) (data : Bytes) : Evl :=
  let u := evUnits data.length
  let wraps := decide (4096 < l.slotAt + u)
  let pos := if wraps then 0 else l.slotAt
  let hit := fun (e : Ev) => e.meets pos (pos + u) || (wraps && e.meets l.slotAt 4096)
  let e : Ev := { seq := l.next, timeMs := time, epoch := epoch, code := code, severity := sev, unit := unit,
                  data := data, pos := pos, units := u }
  { l with
    ring := (l.ring.filter (fun x => !hit x)) ++ [e]
    slotAt := (pos + u) % 4096
    next := l.next + 1
    lost := satAdd 32 l.lost (l.ring.filter hit).length }

/-- Writes an event with a severity given. -/
def Dev.logSev (d : Dev) (code sev unit : Nat) (data : Bytes) : Dev :=
  { d with evl := d.evl.write code sev unit d.nowMs d.clk.epoch data }

/-- Writes an event with the severity of its code. -/
def Dev.log (d : Dev) (code unit : Nat) (data : Bytes) : Dev := d.logSev code (evSeverity code) unit data

/-- UNIT_ID of no unit. -/
def noUnit : Nat := 0xFFFFFFFF

/-- The bytes of an event record (R444): header, data padded with zeros, CRC32C. -/
def Ev.bytes (e : Ev) : Bytes :=
  let len := e.units - 1
  let b := leBytes 8 e.seq ++ leBytes 8 e.timeMs ++ leBytes 8 e.epoch ++ leBytes 2 e.code ++ leBytes 1 e.severity ++
    leBytes 1 len ++ leBytes 4 e.unit ++ padTo (32 * len - 4) e.data
  b ++ leBytes 4 (crc32c b)

/-! ## Manifest -/

/-- A unit ID of R435. -/
def uid (ty ix : Nat) : Nat := ty * 2 ^ 24 + ix

/-- How many units a type has (R435). -/
def unitCount (ty : Nat) : Nat :=
  match ty with
  | 1 => 48 | 2 => 6 | 3 => 64 | 4 => 4096 | 5 => 8 | 6 => 32 | 7 => 8 | 8 => 8 | 9 => 8 | 10 => 16 | 11 => 2 | 12 => 1024
  | 13 => 32
  | _ => 0

/-- The record at manufacture (R442). -/
def unitInit (id : Nat) : MUnit :=
  let p : UState × Reason :=
    match id / 2 ^ 24 with
    | 3 => (.absent, .parent) | 4 => (.absent, .parent) | 5 => (.absent, .none)
    | 11 => (.absent, .notEnabled) | 12 => (.absent, .notEnabled)
    | _ => (.alive, .none)
  { state := p.1, reason := p.2, prevState := p.1, prevReason := p.2 }

def Dev.unit (d : Dev) (id : Nat) : MUnit := fget d.mnf.units (unitInit id) id
def Dev.modUnit (d : Dev) (id : Nat) (f : MUnit → MUnit) : Dev :=
  { d with mnf := { d.mnf with units := fmod d.mnf.units (unitInit id) id f } }

/-- All unit IDs in ascending order. -/
def unitIds : List Nat := ((List.range 13).map (fun t => (List.range (unitCount (t + 1))).map (uid (t + 1)))).flatten

def UState.code (s : UState) : Nat :=
  match s with
  | .alive => 0 | .degraded => 1 | .quiesced => 2 | .retired => 3 | .absent => 4

def Reason.code (r : Reason) : Nat :=
  match r with
  | .none => 0 | .tollgate => 1 | .linkDown => 2 | .rateDown => 3 | .trainFail => 4 | .dieUnsupported => 5
  | .dieMismatch => 6 | .noDie => 7 | .railMismatch => 8 | .timeout => 9 | .pgoodFail => 10 | .removed => 11
  | .surpriseRemoval => 12 | .prepared => 13 | .rebuild => 14 | .allChannels => 15 | .engineEcc => 16 | .hardware => 17
  | .draining => 18 | .notEnabled => 19 | .resetting => 20 | .parent => 21

/-! ## Health, pool records and telemetry capture (R36, R446) -/

/-- The record of R36 for a pool, as of its last check. -/
def Dev.poolRecord (d : Dev) (p : Nat) : Bytes :=
  let q := d.pool p
  let st : Nat := match q.state with
    | .balanced => 0 | .deficit => 1 | .surplus => 2 | .overCapacity => 3 | .frozen => 4
  leBytes 1 p ++ leBytes 1 st ++ leBytes 1 (b2n (isPPool p)) ++ leBytes 1 (b2n (isEPool p) + 2 * b2n q.violated) ++
    leBytes 4 q.recLost ++ leBytes 8 q.recIssued ++ leBytes 8 q.recReturned ++ leBytes 8 q.recHeld ++
    leBytes 8 (if q.checkEpoch = 0 then q.capacity else q.recCapacity) ++ leBytes 8 q.checkEpoch ++
    leBytes 8 q.firstViolation ++ leBytes 4 q.violations ++ zeroBytes 4

/-- Number of units in a state. Records that no transition has touched hold their manufacture state. -/
def Dev.unitsIn (d : Dev) (s : UState) : Nat :=
  (d.mnf.units.filter (fun p => p.2.state = s)).length +
    ((unitIds.filter (fun id => (unitInit id).state = s)).length -
      (d.mnf.units.filter (fun p => (unitInit p.1).state = s)).length)

/-- Die profiles of the running image. -/
def Dev.profiles (d : Dev) : List DieProfile :=
  match fget d.bot.slots none d.bot.slot with
  | some i => i.profiles
  | none => []

/-- VERSION of the running firmware. -/
def Dev.fwVersion (d : Dev) : Nat :=
  match fget d.bot.slots none d.bot.slot with
  | some i => i.version
  | none => 0

/-- Area 1 of the telemetry logs (R446). -/
def Dev.telemetry (d : Dev) : Bytes :=
  let head := leBytes 8 d.fwVersion ++ leBytes 8 d.clk.epoch ++ leBytes 8 d.nowMs ++
    ([UState.alive, .degraded, .quiesced, .retired, .absent].map (fun s => leBytes 4 (d.unitsIn s))).flatten ++
    leBytes 4 (maskOf d.mgt.health) ++ leBytes 4 (maskOf d.emb.cause) ++ zeroBytes 8
  padTo 4096 (padTo 0x40 head ++ ((List.range 32).map d.poolRecord).flatten ++
    leBytes 2 d.profiles.length ++ (d.profiles.map (fun p => leBytes 2 p.number)).flatten)

/-- A capture of all three areas (R446). -/
def Dev.capture (d : Dev) (t : Telem) : Telem :=
  { gen := (t.gen + 1) % 256, area1 := d.telemetry, units := d.mnf.units, ring := d.evl.ring }

/-- TELEMETRY_CAPTURE, controller-initiated. -/
def Dev.captureTelemetry (d : Dev) : Dev := { d with mgt := { d.mgt with telemCtrl := d.capture d.mgt.telemCtrl } }

/-! ## Interrupts (R85 to R89) -/

def Fn.vec (f : Fn) (v : Nat) : Vec := fget f.vecs {} v
def Fn.modVec (f : Fn) (v : Nat) (g : Vec → Vec) : Fn := { f with vecs := fmod f.vecs {} v g }
def Dev.modVec (d : Dev) (fix v : Nat) (g : Vec → Vec) : Dev := d.modFn fix (fun f => f.modVec v g)

/-- Whether a port can carry a message now, if need be after an exit from L1 (R89). -/
def Ltssm.carries (l : Ltssm) : Bool :=
  match l with
  | .l0 | .l1 | .l11 | .l12 | .recovery => true
  | _ => false

/-- Brings a port back from L1 to L0 (R89). -/
def Dev.wakeLink (d : Dev) (n : Nat) : Dev :=
  d.modPort n (fun p => match p.ltssm with
    | .l1 | .l11 | .l12 => { p with ltssm := .l0 }
    | _ => p)

/-- The single message of a PF without MSI-X, by MSI or INTx: it pends while the function is in D3hot, the link cannot carry
it, or the message is masked or disabled (R85, R89). -/
def Dev.sendSingle (d : Dev) (fix v : Nat) : Dev :=
  let f := d.fn fix
  let pn := d.portOf fix
  if (d.port pn).ltssm.carries && f.d0 && (f.msiEn || !f.intxDis) && !bit f.intMask 0 then
    ((d.wakeLink pn).modFn fix (fun f => { f with msgPending := false })).emit
      (if f.msiEn then .msix fix v f.msiAddr f.msiData else .intx fix)
  else d.modFn fix (fun f => { f with msgPending := true })

/-- Sends a vector's message, which covers its unsignalled entries (R86); where it cannot be sent its PBA bit is set
(R89). A PF without MSI-X uses MSI or INTx with its single vector, under the same rules (R85). -/
def Dev.sendMsg (d : Dev) (fix v : Nat) : Dev :=
  let f := d.fn fix
  let x := f.vec v
  let pn := d.portOf fix
  let up := (d.port pn).ltssm.carries && f.d0
  let d := d.modVec fix v (fun x => { x with unsignalled := 0, timer := false })
  if f.msixEn then
    if up && !x.masked && !f.fnMask then
      ((d.wakeLink pn).modVec fix v (fun x => { x with pba := false })).emit (.msix fix v x.addr x.data)
    else d.modVec fix v (fun x => { x with pba := true })
  else if d.isPf fix then d.sendSingle fix v
  else d

/-- Sends what pends on a vector once nothing holds it any more (R89). -/
def Dev.flushPba (d : Dev) (fix v : Nat) : Dev :=
  let f := d.fn fix
  let x := f.vec v
  if x.pba && f.msixEn && !x.masked && !f.fnMask && f.d0 && (d.port (d.portOf fix)).ltssm.carries then
    (d.wakeLink (d.portOf fix)).modVec fix v (fun x => { x with pba := false }) |>.emit (.msix fix v x.addr x.data)
  else d

/-- The same for every vector of a function that has been used, and for the single message of a PF without MSI-X. -/
def Dev.flushPbaAll (d : Dev) (fix : Nat) : Dev :=
  let d := d.forEach ((d.fn fix).vecs.map (·.1)) (fun d v => d.flushPba fix v)
  if (d.fn fix).msgPending && !(d.fn fix).msixEn then d.sendSingle fix 0 else d

/-- The vector that a CQ of a function signals: vector 0 for the admin CQ and for a function without MSI-X. -/
def Fn.vecOf (f : Fn) (qid : Nat) : Nat :=
  if qid = 0 || !f.msixEn then 0 else match fget f.cqs none qid with
    | some c => c.vector
    | none => 0

/-- TMAX of a vector without and with table 0x07 (R87). -/
def Dev.tMax (d : Dev) (f : Fn) : Nat := min (d.tf 7 0x26 2) (100 * f.feat.aggTime)

/-- T in effect for a vector, in microseconds (R86, R87). -/
def Dev.tInEffect (d : Dev) (f : Fn) (x : Vec) : Nat :=
  if d.adaptiveOn then x.adaptive.getD (d.tMax f) else 100 * f.feat.aggTime

/-- An entry has been written on a CQ: the vector's moderation (R85, R86). -/
def Dev.signal (d : Dev) (fix qid : Nat) : Dev :=
  let v := (d.fn fix).vecOf qid
  let d := d.modVec fix v (fun x => { x with unsignalled := x.unsignalled + 1, entries := x.entries + 1 })
  let f := d.fn fix
  let x := f.vec v
  if qid = 0 || f.feat.aggTime = 0 || x.noCoalesce || decide (f.feat.aggThr + 1 ≤ x.unsignalled) then d.sendMsg fix v
  else d.modVec fix v (fun x => { x with timer := true })

/-! ## Completions (R80) -/

/-- The Do Not Retry bit of a status (R474). -/
def Status.dnr (s : Status) : Bool :=
  match s with
  | .success | .tongsUnitBusy | .cartridgeState | .nsNotReady | .sanitizeInProgress | .abortRequested
  | .abortedSqDeletion | .aerLimit
  | .dataTransferError | .internalError | .controllerNotReady | .fwProhibited | .fwNeedsReset
  | .selfTestInProgress => false
  | _ => true

def Fn.sq (f : Fn) (q : Nat) : Option Sq := fget f.sqs none q
def Fn.cq (f : Fn) (q : Nat) : Option Cq := fget f.cqs none q

/-- The completion queue of a submission queue. -/
def Fn.cqOf (f : Fn) (q : Nat) : Nat := if q = 0 then 0 else match f.sq q with
  | some s => s.cqid
  | none => 0

/-- Whether a CQ has no room. -/
def Cq.full (c : Cq) : Bool := decide ((c.tail + 1) % c.size = c.head)

def Dev.cmd (d : Dev) (r : CmdRef) : Option Cmd := d.nvm.cmds.find? (fun c => c.ref = r)
def Dev.modCmd (d : Dev) (r : CmdRef) (f : Cmd → Cmd) : Dev :=
  { d with nvm := { d.nvm with cmds := mapWhere d.nvm.cmds (fun c => c.ref = r) f } }
def Dev.dropCmd (d : Dev) (r : CmdRef) : Dev :=
  { d with nvm := { d.nvm with cmds := d.nvm.cmds.filter (fun c => c.ref ≠ r) } }

/-- The epoch that a command's work items carry: that in which it was fetched (R64). -/
def Dev.epochOf (d : Dev) (ref : CmdRef) : Nat :=
  match d.cmd ref with
  | some c => c.epoch
  | none => (d.fn ref.fix).epoch

/-- Writes a completion entry: COMPLETION_POST. The command's unit of pool 0 is returned. -/
def Dev.postCqe (d : Dev) (r : CmdRef) (cqid : Nat) (st : Status) (dw0 dw1 : Nat) : Dev :=
  let f := d.fn r.fix
  match f.cq cqid with
  | none => d
  | some c =>
    let t := (c.tail + 1) % c.size
    let hd := match f.sq r.qid with
      | some s => s.head
      | none => 0
    let d := d.modFn r.fix (fun f => { f with
      cqs := fset f.cqs cqid (some { c with tail := t, phase := if t = 0 then !c.phase else c.phase }) })
    let d := (d.emit (.cqe r st st.dnr dw0 dw1 hd c.phase)).giveBack 0 r.fix 1
    if c.ien then d.signal r.fix cqid else d

/-- An Error Information entry of a controller: the last 64 are kept (R72). -/
def Dev.addError (d : Dev) (r : CmdRef) (st : Status) : Dev :=
  let n := fget d.nvm.errCounts 0 r.fix + 1
  let mine := d.nvm.errors.filter (fun e => e.ref.fix = r.fix)
  let others := d.nvm.errors.filter (fun e => e.ref.fix ≠ r.fix)
  { d with nvm := { d.nvm with
    errCounts := fset d.nvm.errCounts r.fix n
    errors := ({ count := n, ref := r, status := st } :: mine.take 63) ++ others } }

/-- Status Code Type and Status Code of a status: the vendor codes are R94's, the others NVMe 2.1's (log 38). -/
def Status.code (s : Status) : Nat :=
  match s with
  | .success => 0x000 | .invalidOpcode => 0x001 | .invalidField => 0x002 | .dataTransferError => 0x004
  | .internalError => 0x006 | .abortRequested => 0x007 | .abortedSqDeletion => 0x008 | .invalidNsid => 0x00B
  | .sglCount => 0x00E | .dataSglLength => 0x00F | .metaSglLength => 0x010 | .sglType => 0x011
  | .sanitizeInProgress => 0x01D | .writeProtected => 0x020 | .lbaOutOfRange => 0x080 | .capacityExceeded => 0x081
  | .nsNotReady => 0x082 | .reservationConflict => 0x083 | .controllerNotReady => 0x024
  | .cqInvalid => 0x100 | .invalidQueueId => 0x101 | .invalidQueueSize => 0x102 | .aerLimit => 0x105
  | .invalidFwSlot => 0x106 | .invalidFwImage => 0x107 | .invalidVector => 0x108 | .invalidLogPage => 0x109
  | .invalidFormat => 0x10A | .invalidQueueDeletion => 0x10C | .featureNotSaveable => 0x10D
  | .featureNotChangeable => 0x10E | .fwNeedsReset => 0x110 | .fwProhibited => 0x113 | .overlappingRange => 0x114
  | .nsInsufficientCapacity => 0x115 | .nsIdUnavailable => 0x116 | .nsAlreadyAttached => 0x118 | .nsIsPrivate => 0x119
  | .nsNotAttached => 0x11A | .ctrlListInvalid => 0x11C | .selfTestInProgress => 0x11D
  | .compareFailure => 0x285 | .unrecoveredRead => 0x281 | .accessDenied => 0x286
  | .staleGeneration => 0x780 | .policyInvalid => 0x781 | .policyStale => 0x782 | .tableCrc => 0x783
  | .imageInvalid => 0x784 | .signatureFail => 0x785 | .imageHandleInvalid => 0x786 | .keySlotExhausted => 0x787
  | .keyTagUnbound => 0x788 | .tongsUnitBusy => 0x789 | .cartridgeState => 0x78A | .waybillInvalid => 0x78B

/-- Whether a command came over the management endpoint: its number is 65,536 + its command slot (R432). -/
def isTunnel (r : CmdRef) : Bool := decide (65536 ≤ r.cid)

/-- A tunnelled command has ended: its slot is free, and it is answered with Dwords 0 and 1 and the status. -/
def Dev.endTunnel (d : Dev) (r : CmdRef) (answer : Bool) (st : Status) (dw0 dw1 : Nat) : Dev :=
  let d : Dev := { d with mgt := { d.mgt with busySlots := d.mgt.busySlots.filter (· ≠ r.cid - 65536) } }
  if !answer then d
  else ({ d with mgt := { d.mgt with tx := d.mgt.tx + 1 } }).emit
    (Output.mi MiStatus.success (leBytes 4 dw0 ++ leBytes 4 dw1 ++ leBytes 2 (2 * st.code)))

/-- Completes one fetched command: exactly one entry, held while its queue is full (R80). A command of an old epoch gets
none. -/
def Dev.completeOne (d : Dev) (r : CmdRef) (st : Status) (dw0 dw1 : Nat) : Dev :=
  match d.cmd r with
  | none => d
  | some c =>
    let d := d.dropCmd r
    if isTunnel r then d.endTunnel r (decide (c.epoch = (d.fn r.fix).epoch)) st dw0 dw1
    else if c.epoch ≠ (d.fn r.fix).epoch then d
    else
      let d := if st = .success then d else d.addError r st
      let cqid := (d.fn r.fix).cqOf r.qid
      match (d.fn r.fix).cq cqid with
      | none => d
      | some q =>
        if q.full || !q.held.isEmpty then
          d.modFn r.fix (fun f => { f with cqs := fset f.cqs cqid (some { q with held := q.held ++ [(r, st, dw0, dw1)] }) })
        else d.postCqe r cqid st dw0 dw1

/-- Whether completions of an SQ, or of any SQ, still wait for room in a CQ of their function. -/
def Fn.holdsFor (f : Fn) (qid : Option Nat) : Bool :=
  f.cqs.any (fun p => match p.2 with
    | some c => c.held.any (fun h => decide (qid = none ∨ qid = some h.1.qid))
    | none => false)

/-- Ends a deletion of a queue: that of an SQ once no fetched command of it is left and every completion is in its CQ (R32,
R79); that of a CQ once it holds none back. -/
def Dev.endDelete (d : Dev) (c : Cmd) : Dev :=
  let f := d.fn c.ref.fix
  match c.job with
  | .sqDelete q =>
    if d.nvm.cmds.any (fun x => decide (x.ref.fix = c.ref.fix ∧ x.ref.qid = q)) || f.holdsFor (some q) then d
    else (d.modFn c.ref.fix (fun f => { f with sqs := fset f.sqs q none })).completeOne c.ref .success 0 0
  | .cqDelete q =>
    if (f.cq q).any (fun x => !x.held.isEmpty) then d
    else (d.modFn c.ref.fix (fun f => { f with cqs := fset f.cqs q none })).completeOne c.ref .success 0 0
  | _ => d

/-- Ends the deletions of a function's queues that can end now. -/
def Dev.endDeletes (d : Dev) (fix : Nat) : Dev :=
  d.forEach (d.nvm.cmds.filter (fun c => decide (c.ref.fix = fix))) Dev.endDelete

/-- Completes a fetched command; a Delete I/O SQ that waits for the last command of its queue then ends. -/
def Dev.complete (d : Dev) (r : CmdRef) (st : Status) (dw0 : Nat := 0) (dw1 : Nat := 0) : Dev :=
  let d := d.completeOne r st dw0 dw1
  match d.nvm.cmds.find? (fun c => decide (c.job = .sqDelete r.qid ∧ c.ref.fix = r.fix)) with
  | some c => d.endDelete c
  | none => d

/-! ## Asynchronous events (R443) -/

/-- Key of an event under which later occurrences merge. -/
def aenKey (ty info : Nat) : Nat := 256 * ty + info

/-- Posts an event to one controller: answered by its oldest outstanding request, or kept for the next one. -/
def Dev.postAen (d : Dev) (fix ty info page : Nat) : Dev :=
  let f := d.fn fix
  if aenKey ty info ∈ f.merged then d
  else
    let d := d.modFn fix (fun f => { f with merged := setIns f.merged (aenKey ty info) })
    match f.aers with
    | [] => d.modFn fix (fun f => { f with events := f.events ++ [(ty, info, page)] })
    | r :: t =>
      ((d.modFn fix (fun f => { f with aers := t })).emit (.aen fix ty info page)).complete r .success
        (ty + 256 * info + 65536 * page)

/-- ASYNC_EVENT_POST of a vendor value to every PF, with its telemetry capture. -/
def Dev.vendorEvent (d : Dev) (value : Nat) : Dev :=
  (d.captureTelemetry).forEach d.pfs (fun d fix => d.postAen fix 7 value 8)

/-! ## Manifest transitions (R439) -/

/-- MANIFEST_TRANSITION: a change of STATE or REASON. It goes to the MRAM copy at once while the data domain is on. -/
def Dev.transition (d : Dev) (id : Nat) (st : UState) (rs : Reason) : Dev :=
  let u := d.unit id
  if u.state = st ∧ u.reason = rs then d.modUnit id (fun u => { u with quiescing := false, pending := none })
  else
    let v : MUnit := { u with
      state := st, reason := rs, quiescing := false, pending := none, generation := u.generation + 1
      epoch := d.clk.epoch, timeMs := d.nowMs, prevState := u.state, prevReason := u.reason
      transitions := satAdd 32 u.transitions 1 }
    let d := { d with mnf := { d.mnf with
      units := fset d.mnf.units id v, changes := d.mnf.changes + 1, last := id
      copy := if d.domOn .data then fset d.mnf.copy id v else d.mnf.copy } }
    let sev := match st with
      | .alive | .quiesced => 0
      | .degraded | .absent => 1
      | .retired => 2
    let d := d.logSev 0x0106 sev id (fields [(1, u.state.code), (1, u.reason.code), (1, st.code), (1, rs.code),
      (8, v.generation)])
    let ty := id / 2 ^ 24
    if (ty = 3 ∨ ty = 4 ∨ ty = 5 ∨ ty = 11) ∧ d.aenMask 0 then d.vendorEvent 0x81 else d

/-- A loop's run of pinned evaluations (R160): the new run, and whether an event falls due. -/
def pinRun (run epochs : Nat) (pinned : Bool) : Nat × Bool :=
  if pinned then (if epochs ≤ run + 1 then (0, true) else (run + 1, false)) else (0, false)

/-- A clamp into a window (R160, item 1): the value applied and whether the evaluation is pinned. -/
def clampTo (lo hi v : Int) : Int × Bool :=
  if hi < lo then (hi, true) else if v < lo then (lo, true) else if hi < v then (hi, true) else (v, false)

/-- LOOP_PINNED_EVENT. -/
def Dev.logPinned (d : Dev) (table : Nat) (value : Int) : Dev :=
  d.log 0x0105 noUnit (fields [(1, table), (4, (value % 2 ^ 32).toNat)])

/-! ## Deficit round robin over functions (R62) -/

/-- The quantum of R62 in bytes, and the size of a submission entry. -/
def quantum : Nat := 32768
def entryBytes : Nat := 64

/-- The deficit round robin of R62 over functions: who is served, and the pointer after a service of `cost` bytes. -/
def Drr.next (r : Drr) (cost : Nat) (work : Nat → Bool) : Option (Nat × Drr) :=
  if work r.cur && decide (cost ≤ r.deficit) then some (r.cur, { r with deficit := r.deficit - cost })
  else match rotFind nFn r.cur work with
    | some f =>
      let left := if f = r.cur then r.deficit else 0
      some (f, { cur := f, deficit := left + quantum - cost })
    | none => none

end Sys2Proof.Machine
end

