-- ==== Sys2Proof/Machine/Icu.lean ====
section
/-! DEFINITION. The interrupt controller (R365 to R381): sources, banks, presentation, claims, commits, the wake watcher. -/

namespace Sys2Proof.Machine

/-- ROLE of a Hearth: 0 firmware, 1 owner, 2 draining (R258, R260). -/
def Dev.hearthRole (d : Dev) (h : Nat) : Nat := (fget d.hrt.hearths { role := if 2 ≤ h ∧ h ≤ 5 then 1 else 0 } h).role

def Dev.src (d : Dev) (n : Nat) : Src := fget d.icu.srcs {} n
def Dev.modSrc (d : Dev) (n : Nat) (f : Src → Src) : Dev := { d with icu := { d.icu with srcs := fmod d.icu.srcs {} n f } }
def Dev.bank (d : Dev) (b : Nat) : Bank := fget d.icu.banks {} b
def Dev.modBank (d : Dev) (b : Nat) (f : Bank → Bank) : Dev := { d with icu := { d.icu with banks := fmod d.icu.banks {} b f } }

/-! ## Sources (R366, R367) -/

/-- Whether a shared ID is a level source. -/
def isLevel (n : Nat) : Bool :=
  decide (n = 78) || decide (96 ≤ n ∧ n ≤ 183) || decide (184 ≤ n ∧ n ≤ 200) || decide (202 ≤ n ∧ n ≤ 216)

/-- Whether a shared ID never pends: a reserved one, or an arrival that a sequencer takes directly. -/
def neverPends (n : Nat) : Bool := decide (84 ≤ n ∧ n ≤ 95) || decide (217 ≤ n ∧ n ≤ 511) || decide (n = 66 ∨ n = 68)

/-- Whether a shared ID is an Ember source. -/
def isEmber (n : Nat) : Bool := decide (70 ≤ n ∧ n ≤ 83)

/-- Whether a shared ID is raised by software. -/
def isSoft (n : Nat) : Bool := decide (512 ≤ n ∧ n ≤ 1022)

/-- The private level source: an uncorrectable error in the core. -/
def privIsLevel (n : Nat) : Bool := decide (n = 2)

/-- Whether a bank has a power supply and is out of reset. -/
def Dev.bankOn (d : Dev) (b : Nat) : Bool := decide (b = 48) || (decide (b < 48) && d.domOn .control)

/-- COUNT and OVERFLOW after one event (R369). -/
def countUp (count : Nat) (ovf : Bool) : Nat × Bool := if 255 ≤ count then (255, true) else (count + 1, ovf)

/-! ## Presentation (R370, R371) -/

/-- Whether a shared source is pending. -/
def Dev.srcPending (d : Dev) (n : Nat) : Bool :=
  let x := d.src n
  (if isLevel n then x.level else decide (1 ≤ x.count)) && x.enA && x.claimedBy.isNone && !neverPends n

/-- Whether a private source of a bank is pending. -/
def Bank.privPending (k : Bank) (i : Nat) : Bool :=
  (if privIsLevel i then decide (i ∈ k.privLevel) else decide (1 ≤ fget k.privCount 0 i)) && decide (i ∈ k.privEn) &&
    decide (i ∉ k.privSvc)

/-- The running priority of a bank. -/
def Dev.running (d : Dev) (b : Nat) : Nat :=
  let k := d.bank b
  let shared := (d.icu.srcs.filter (fun p => p.2.claimedBy = some b)).map (fun p => p.2.prioA)
  let own := k.privSvc.map (fun i => fget k.privPrio 0 i)
  (shared ++ own).foldl max 0

/-- The IDs presented at a bank with their priorities, in ascending order. -/
def Dev.presented (d : Dev) (b : Nat) : List (Nat × Nat) :=
  let k := d.bank b
  let floor := max k.threshold (d.running b)
  let own := ((List.range 64).filter k.privPending).map (fun i => (i, fget k.privPrio 0 i))
  let shared := (d.icu.srcs.filter (fun p => decide (p.2.targetA = b) && d.srcPending p.1)).map (fun p => (p.1, p.2.prioA))
  (own ++ shared).filter (fun p => floor < p.2)

/-- The first presented ID of a bank: the highest priority, then the lowest ID. -/
def Dev.firstPresented (d : Dev) (b : Nat) : Option Nat :=
  ((d.presented b).foldl (fun (a : Option (Nat × Nat)) p => match a with
    | none => some p
    | some q => if q.2 < p.2 ∨ (q.2 = p.2 ∧ p.1 < q.1) then some p else a) none).map (·.1)

/-- INTERRUPT_PRESENT: an ID that is now presented at a bank interrupts the context that DELIVER names. -/
def Dev.presentId (d : Dev) (b id : Nat) : Dev :=
  if d.bankOn b && (d.presented b).any (fun p => p.1 = id) then d.emit (.present b id) else d

/-! ## Events (R366, R369, R374, R381) -/

/-- One event of a shared source. -/
def Dev.srcEvent (d : Dev) (n : Nat) : Dev :=
  let x := d.src n
  if isLevel n && x.level then d
  else
    let c := countUp x.count x.ovf
    (d.modSrc n (fun x => { x with count := c.1, ovf := c.2, level := isLevel n })).presentId x.targetA n

/-- One event of a private source. -/
def Dev.privEvent (d : Dev) (b i : Nat) : Dev :=
  let k := d.bank b
  if privIsLevel i && decide (i ∈ k.privLevel) then d
  else
    let c := countUp (fget k.privCount 0 i) (decide (i ∈ k.privOvf))
    (d.modBank b (fun k => { k with
      privCount := fset k.privCount i c.1, privOvf := setPut k.privOvf i c.2
      privLevel := setPut k.privLevel i (privIsLevel i) })).presentId b i

/-- Whether the fast domains are powered, so that sources outside Ember can assert: in a wake they are before it ends. -/
def Dev.fastOn (d : Dev) : Bool := d.domOn .host && d.domOn .data && d.domOn .control

/-- INTERRUPT_SOURCE_EVENT: an event of a private source (IDs below 64) of a bank, or of a shared one. -/
def execInterruptSourceEvent (bank id : Nat) (s : State) : Host.Outcome State Fault Refusal :=
  act s fun d =>
    if id < 64 then (if bank < 48 ∧ id < 12 ∧ d.domOn .control then d.privEvent bank id else d)
    else if 1022 < id ∨ neverPends id ∨ isSoft id ∨ (isEmber id || d.fastOn) = false then d
    else d.srcEvent id

/-- LEVEL_REQUEST_WITHDRAW: a withdrawn request no longer pends; a claim of it stands. -/
def execLevelRequestWithdraw (bank id : Nat) (s : State) : Host.Outcome State Fault Refusal :=
  act s fun d =>
    if id < 64 then d.modBank bank (fun k => { k with privLevel := setDel k.privLevel id })
    else d.modSrc id (fun x => { x with level := false })

/-- A write of ICU_NUDGE: private ID 4 + nudge of a bank. -/
def Dev.nudge (d : Dev) (n bank : Nat) : Dev :=
  if n < 8 ∧ bank < 48 ∧ d.domOn .control then d.privEvent bank (4 + n) else d

/-- ICU_NUDGE. -/
def execIcuNudge (nudge bank : Nat) (s : State) : Host.Outcome State Fault Refusal := act s fun d => d.nudge nudge bank

/-- A write of 1 to RAISE: one event of a software source; ignored for any other. -/
def Dev.raise (d : Dev) (id : Nat) : Dev := if isSoft id then d.srcEvent id else d

/-- ICU_RAISE. -/
def execIcuRaise (id : Nat) (s : State) : Host.Outcome State Fault Refusal := act s fun d => d.raise id

/-! ## Claims and completions (R372, R373) -/

/-- A read of a bank's CLAIM: the ID claimed, or 1,023. -/
def Dev.claim (d : Dev) (bank : Nat) : Dev × Nat :=
  if d.bankOn bank = false then (d, 1023)
  else match d.firstPresented bank with
    | none => (d.modBank bank (fun k => { k with spurious := satAdd 32 k.spurious 1 }), 1023)
    | some i =>
      let d := if i < 64 then
          d.modBank bank (fun k => { k with
            privCount := fmod k.privCount 0 i (· - 1), privSvc := setIns k.privSvc i })
        else d.modSrc i (fun x => { x with count := x.count - 1, claimedBy := some bank })
      (d.modBank bank (fun k => { k with claims := satAdd 32 k.claims 1 }), i)

/-- ICU_CLAIM. -/
def execIcuClaim (bank : Nat) (s : State) : Host.Outcome State Fault Refusal :=
  act s fun d => if d.bankOn bank = false then d else let r := d.claim bank; r.1.emit (.claim bank r.2)

/-- A write of an ID to a bank's COMPLETE. What is then first presented there interrupts again. -/
def Dev.completeId (d : Dev) (bank id : Nat) : Dev :=
  if d.bankOn bank = false ∨ id = 1023 then d
  else
    let mine : Bool := if id < 64 then decide (id ∈ (d.bank bank).privSvc) else decide ((d.src id).claimedBy = some bank)
    if mine = false then d.modBank bank (fun k => { k with badComplete := satAdd 32 k.badComplete 1 })
    else
      let d := if id < 64 then d.modBank bank (fun k => { k with privSvc := setDel k.privSvc id })
        else d.modSrc id (fun x => { x with claimedBy := none })
      let d := if id < 64 then d else d.presentId (d.src id).targetA id
      match d.firstPresented bank with
      | some i => if i = id ∧ 64 ≤ id then d else d.emit (.present bank i)
      | none => d

/-- ICU_COMPLETE. -/
def execIcuComplete (bank id : Nat) (s : State) : Host.Outcome State Fault Refusal := act s fun d => d.completeId bank id

/-! ## Configuration (R376, R377) -/

/-- Whether a staged target is allowed for a source. -/
def Dev.targetOk (d : Dev) (n t : Nat) : Bool :=
  let fw := decide (t < 48) && decide (d.hearthRole (t / 8) = 0)
  if n = 64 ∨ n = 69 then fw else if n = 65 ∨ n = 67 then decide (t = 48) else fw || decide (t = 48)

/-- What a change of the configuration newly presents at a bank interrupts there (R370, R377). -/
def Dev.presentNew (d old : Dev) (b : Nat) : Dev :=
  match d.firstPresented b with
  | some i => if (old.presented b).any (fun p => p.1 = i) || !d.bankOn b then d else d.emit (.present b i)
  | none => d

/-- A commit of all sources and watcher slots, or of none. -/
def Dev.commitIcu (d : Dev) : Dev :=
  match ((List.range 959).map (· + 64)).find? (fun n => !d.targetOk n (d.src n).target) with
  | some n => { d with icu := { d.icu with refused := true, firstBad := n } }
  | none =>
    let srcs : FMap Src := d.icu.srcs.map (fun p => (p.1, { p.2 with
      enA := p.2.en, prioA := p.2.prio, targetA := p.2.target }))
    let watch : FMap Watch := d.icu.watch.map (fun p => (p.1, { p.2 with idA := p.2.id, enA := p.2.en }))
    let e : Dev := { d with icu := { d.icu with srcs := srcs, watch := watch } }
    e.forEach (List.range 49) (fun e b => e.presentNew d b)

/-- ICU_COMMIT. -/
def execIcuCommit (s : State) : Host.Outcome State Fault Refusal := act s fun d => d.commitIcu

/-! ## Wakes (R380, R418) -/

/-- A wake request reaches Bellows; during entry it is held and counted (R416). -/
def Dev.requestWake (d : Dev) (cause : Nat) : Dev :=
  match d.emb.mode with
  | .dormant | .deep => { d with blw := { d.blw with wakeReq := d.blw.wakeReq.or (some cause) } }
  | .entering => { d with blw := { d.blw with
      wakeReq := d.blw.wakeReq.or (some cause), heldWakes := satAdd 32 d.blw.heldWakes 1 } }
  | _ => d

/-- Watcher slots that fire, in ascending order. While the other domains are off, only an Ember source has an effect. -/
def Dev.firing (d : Dev) : List (Nat × Nat) :=
  (d.icu.watch.filter (fun p => p.2.enA && isEmber p.2.idA && d.srcPending p.2.idA)).map
    (fun p => (p.1, p.2.idA))

/-- WAKE_WATCHER_FIRE: the lowest slot that fires is recorded, and the watcher requests a wake. -/
def execWakeWatcherFire (s : State) : Host.Outcome State Fault Refusal :=
  act s fun d =>
    match d.firing with
    | (w, i) :: _ =>
      if d.emb.mode = .dormant ∨ d.emb.mode = .deep then
        ({ d with icu := { d.icu with wakeSlot := w, wakeId := i, wakeValid := true } }).requestWake 3
      else d
    | [] => d

end Sys2Proof.Machine
end

