-- ==== Sys2Proof/Machine/Function.lean ====
section
/-! DEFINITION. The host link and the functions: training and rates (R46 to R48), power states (R53), function numbering
(R55), activation (R58), and function reset (R63 to R67, R471). -/

namespace Sys2Proof.Machine

/-! ## Training, rates and widths -/

/-- Whether a port is used in the mode in force (R43). -/
def Dev.portInUse (d : Dev) (n : Nat) : Bool := decide (n ∈ d.portsUsed)

/-- The highest rate that training reaches (R46, R47). -/
def trainRate (cap partnerMax : Nat) (passing : List Nat) (flit : Bool) : Option Nat :=
  ((List.range 7).reverse).find? (fun r => decide (r ≤ cap ∧ r ≤ partnerMax ∧ r ∈ passing) && (flit || decide (r ≤ 4)))

/-- The widest of x16 to x1 that the working lanes form, counting from lane 0 (R47). -/
def trainWidth (limit : Nat) (lanes : List Nat) : Option Nat :=
  [16, 8, 4, 2, 1].find? (fun w => decide (w ≤ limit) && (List.range w).all (fun l => decide (l ∈ lanes)))

/-- Training ends in L0 with the highest rate and the widest width found; without either the port stays as it is. The counts
of R47 within a second go on while the rate is the same. -/
def execLinkTraining (port partnerMax : Nat) (passing lanes : List Nat) (flit : Bool) (s : State) :
    Host.Outcome State Fault Refusal :=
  act s fun d =>
    let p := d.port port
    let limit := if d.hlk.modeA = 1 then 8 else 16
    match trainRate (min p.cap d.hlk.maxRateA) partnerMax passing flit, trainWidth limit lanes with
    | some r, some w =>
      if d.portInUse port && !p.perst && d.domOn .host && decide (d.bot.stage ≠ 3) then
        (d.modPort port (fun p => { p with
          ltssm := .l0, rate := r, width := w, l0pWidth := w, flit := flit
          recTimes := if r = p.rate then p.recTimes else [], fecTimes := if r = p.rate then p.fecTimes else []
          hotReset := false })).srcEvent (210 + port)
      else d
    | _, _ => d

/-- Times of a list that lie in the last second before `us`, with `us` added. -/
def lastSecond (l : List Nat) (us : Nat) : List Nat := (l.filter (fun t => us < t + 1000000)) ++ [us]

/-- A Recovery entry is counted and timed (R47, R70). -/
def execLinkRecoveryEntry (port us : Nat) (s : State) : Host.Outcome State Fault Refusal :=
  act s fun d => if !d.portInUse port then d else
    (d.modPort port (fun p => { p with
      ltssm := .recovery, recovery := satAdd 32 p.recovery 1, recTimes := lastSecond p.recTimes us })).srcEvent (210 + port)

/-- A FEC-uncorrectable flit is counted and timed (R47, R70). -/
def execFecUncorrectableFlit (port us : Nat) (s : State) : Host.Outcome State Fault Refusal :=
  act s fun d => if !d.portInUse port then d else
    d.modPort port (fun p => { p with fecUncorr := satAdd 32 p.fecUncorr 1, fecTimes := lastSecond p.fecTimes us })

/-- Whether R47 makes the port step down: more than 8 Recovery entries, or more than 16 flits, within a second. -/
def Port.mustStepDown (p : Port) : Bool := decide (8 < p.recTimes.length) || decide (16 < p.fecTimes.length)

/-- A port that must step down retrains at the next lower rate, with DOWNGRADED and event 0x0104 (port, rate, cause:
0 Recovery entries, 1 flits). The host is told by Link Bandwidth Notification (R52). -/
def execLinkRateDowngrade (port : Nat) (s : State) : Host.Outcome State Fault Refusal :=
  act s fun d =>
    let p := d.port port
    if d.portInUse port && p.mustStepDown && decide (0 < p.rate) then
      let cause := if 8 < p.recTimes.length then 0 else 1
      (((d.modPort port (fun p => { p with
        rate := p.rate - 1, cap := p.rate - 1, downgraded := true, ltssm := .l0, recTimes := [], fecTimes := []
        l0pWidth := p.width })).emit (.linkBandwidth port)).srcEvent (210 + port)).log 0x0104 (uid 11 port)
        (fields [(1, port), (1, p.rate - 1), (1, cause)])
    else d

/-- Retrain Link: the port enters Recovery, the Target Link Speed bounds what it tries (R47), and a downgrade is cleared
(R428). -/
def execRetrainLink (port target : Nat) (s : State) : Host.Outcome State Fault Refusal :=
  act s fun d =>
    if d.portInUse port && (d.port port).ltssm.carries then
      d.modPort port (fun p => { p with cap := min target 6, ltssm := .recovery, downgraded := false })
    else d

/-- An L0p width change that the partner requests (R48): FLIT mode only, down to x4 on an x16 port and x2 on an x8. -/
def execL0pWidthChange (port width : Nat) (s : State) : Host.Outcome State Fault Refusal :=
  act s fun d =>
    let p := d.port port
    let least := if d.hlk.modeA = 1 then 2 else 4
    if d.portInUse port && p.flit && decide (p.ltssm = .l0 ∧ width ∈ [16, 8, 4, 2] ∧ least ≤ width ∧ width ≤ p.width) then
      d.modPort port (fun p => { p with l0pWidth := width })
    else d

/-- The functions of a port send what pends on their vectors. -/
def Dev.flushPort (d : Dev) (port : Nat) : Dev :=
  d.forEach ((d.fnm.fns.map (·.1)).filter (fun f => d.portOf f = port)) (fun d f => d.flushPbaAll f)

/-- Link states of R53 by number. -/
def linkState (n : Nat) : Option Ltssm :=
  match n with
  | 0 => some .l0 | 1 => some .l1 | 2 => some .l11 | 3 => some .l12 | 4 => some .l23
  | _ => none

/-- A change among the states of R53; back in L0, what pends on the port's vectors is sent (R89). -/
def execLinkPowerStateChange (port state : Nat) (s : State) : Host.Outcome State Fault Refusal :=
  act s fun d =>
    match linkState state with
    | some l =>
      if d.portInUse port && decide ((d.port port).ltssm ∈ [.l0, .l1, .l11, .l12, .l23]) then
        let d := d.modPort port (fun p => { p with ltssm := l })
        if l = .l0 then d.flushPort port else d
      else d
    | none => d

/-- A function takes a power state: D0 or D3hot (R53). On return to D0 pending messages go out (R89). -/
def Dev.setPower (d : Dev) (fix : Nat) (d0 : Bool) : Dev :=
  let d := d.modFn fix (fun f => { f with d0 := d0 })
  if d0 then d.flushPbaAll fix else d

/-- Whether a function answers configuration requests: it exists, and no reset other than a controller reset is under way
(R65 step 7). -/
def Dev.answersConfig (d : Dev) (fix : Nat) : Bool :=
  d.fnExists fix && d.domOn .host && !((d.fn fix).resetting && (d.fn fix).flr)

/-- A write of the power state of a function. -/
def execFunctionPowerStateWrite (fix : Nat) (d0 : Bool) (s : State) : Host.Outcome State Fault Refusal :=
  act s fun d => if d.answersConfig fix then d.setPower fix d0 else d

/-- A vector is unmasked; a pending message is sent at once (R89). -/
def execMsixVectorUnmask (fix vec : Nat) (s : State) : Host.Outcome State Fault Refusal :=
  act s fun d =>
    if d.fnExists fix && decide (vec < 257) then
      (d.modVec fix vec (fun x => { x with masked := false })).flushPba fix vec
    else d

/-- A port has reached L0: its unit is alive, and messages held for the link are sent (R68, R89). -/
def execPortLinkUp (port : Nat) (s : State) : Host.Outcome State Fault Refusal :=
  act s fun d =>
    if d.portInUse port && decide ((d.port port).ltssm = .l0) then
      (d.transition (uid 11 port) .alive .none).flushPort port
    else d

/-! ## Function reset -/

/-- Whether a granule read works for a command or a Waybill, and not for a move in the background. -/
def RGran.forHost (g : RGran) : Bool :=
  match g.dest with
  | .move _ => false
  | _ => true

/-- Name of a job or call that waits for a context: CXE from 3,000 on, DGE from 5,000 on, by its caller and ticket. -/
def CJob.queuedAs (j : CJob) : Nat := 3000 + 8 * j.caller + j.ticket
def DCtx.queuedAs (j : DCtx) : Nat := 5000 + 8 * j.caller + j.ticket

/-- Searches of a function's instances, by unit and caller. -/
def Dev.searchesOf (d : Dev) (fix : Nat) : List Waiter :=
  (d.tng.units.map (fun p => (p.2.searches.filter (fun s =>
    (d.hrt.wbs.any (fun w => decide (w.id = s.wb ∧ w.ref.fix = fix))))).map (fun s => Waiter.search p.1 s.caller))).flatten

/-- The old-epoch items of a function (R65, step 3): its fetched commands, its granules in the pipelines, its Waybills, its
jobs in CXE (`i`), DGE (1,000 + `i`) and AEE (2,000 + `i`) and those that wait there, its searches and its threads. -/
def Dev.itemsOf (d : Dev) (fix : Nat) : List Waiter :=
  (d.nvm.cmds.filter (fun c => c.ref.fix = fix)).map (fun c => Waiter.cmd c.ref) ++
  (d.wrp.grans.filter (fun g => g.ref.fix = fix ∧ g.cause = 0)).map (fun g => Waiter.wgran g.id) ++
  (d.rdp.grans.filter (fun g => decide (g.ref.fix = fix) && g.forHost)).map (fun g => Waiter.rgran g.id) ++
  (d.hrt.wbs.filter (fun w => w.ref.fix = fix)).map (fun w => Waiter.waybill w.id) ++
  (d.cxe.jobs.filter (fun j => j.2.state ≠ 0 ∧ j.2.fix = fix)).map (fun j => Waiter.job j.1) ++
  (d.dge.ctxs.filter (fun j => j.2.state ≠ 0 ∧ j.2.fix = fix)).map (fun j => Waiter.job (1000 + j.1)) ++
  (d.aee.jobs.filter (fun j => j.2.state ≠ 0 ∧ j.2.fix = fix)).map (fun j => Waiter.job (2000 + j.1)) ++
  (d.cxe.waiting.filter (fun j => j.fix = fix)).map (fun j => Waiter.job j.queuedAs) ++
  (d.dge.waiting.filter (fun j => j.fix = fix)).map (fun j => Waiter.job j.queuedAs) ++
  d.searchesOf fix ++
  (d.drv.threads.filter (fun p => decide (p.2.fix = some fix ∧ p.2.state ≠ .free))).map (fun p => Waiter.thread p.1)

/-- Units of pool 31 for old-epoch items of a function that hold none yet, as far as the pool issues them (R40, R65). -/
def Dev.issueFence (d : Dev) (fix : Nat) : Dev :=
  let q := d.pool 31
  let f := d.fn fix
  let n := if q.blocked then 0 else min (f.oldItems.length - f.fence) q.free
  (d.issue 31 fix n).modFn fix (fun f => { f with fence := f.fence + n })

/-- The same for every function under reset, once a unit has come back. -/
def Dev.issueFences (d : Dev) : Dev :=
  d.forEach ((d.fnm.fns.filter (fun p => decide (p.2.fence < p.2.oldItems.length))).map (·.1)) Dev.issueFence

/-- The vector state after a reset: moderation and PBA cleared (R471); the MSI-X table too after any reset but one by
CC.EN. QEN_SEL_PINNED keeps its count. -/
def Vec.afterReset (x : Vec) (conventional : Bool) : Vec :=
  if conventional then { pinned := x.pinned } else { masked := x.masked, addr := x.addr, data := x.data, pinned := x.pinned }

/-- A Device Self-test ends with a result code of NVMe 2.1: it is logged, the last 20 being kept (R75, R353). -/
def Dev.endSelfTest (d : Dev) (result : Nat) : Dev :=
  let t := d.nvm.selfTest
  { d with nvm := { d.nvm with selfTest := { t with running := 0, results := ((t.running, result) :: t.results).take 20 } } }

/-- FUNCTION_RESET, in the cycle of the reset (R65 steps 1 to 3, R66, R471). `keepTable` holds for a controller reset by
CC.EN alone. -/
def Dev.resetFn (d : Dev) (fix : Nat) (keepTable : Bool) : Dev :=
  let items := (d.itemsOf fix).filter (fun w => decide (w ∉ (d.fn fix).oldItems))
  let held := ((d.fn fix).cqs.map (fun p => match p.2 with
    | some c => c.held.length
    | none => 0)).sum
  let d := d.modFn fix (fun f => { f with
    epoch := f.epoch + 1, resetting := true, flr := !keepTable, resets := satAdd 32 f.resets 1
    oldItems := f.oldItems ++ items
    ccEn := false, cfs := false, shst := 0, noFetch := true
    asqs := if keepTable then f.asqs else 0, acqs := if keepTable then f.acqs else 0
    asq := if keepTable then f.asq else 0, acq := if keepTable then f.acq else 0
    d0 := keepTable && f.d0 || !keepTable
    msixEn := keepTable && f.msixEn, fnMask := keepTable && f.fnMask
    bar0 := if keepTable then f.bar0 else 0, bar2 := if keepTable then f.bar2 else 0, bar4 := if keepTable then f.bar4 else 0
    maxPayload := if keepTable then f.maxPayload else 128, maxRead := if keepTable then f.maxRead else 512
    relaxed := !keepTable || f.relaxed, msgPending := false, iosqes := 0, iocqes := 0, mps := 0, css := 0, ams := 0, shn := 0
    intMask := 0
    msiEn := keepTable && f.msiEn, msiAddr := if keepTable then f.msiAddr else 0
    msiData := if keepTable then f.msiData else 0, intxDis := keepTable && f.intxDis
    vecs := f.vecs.map (fun p => (p.1, p.2.afterReset (!keepTable)))
    sqs := [], cqs := [], lastSq := 0, feat := {}, aers := [], events := [], merged := [], changedNs := [], resvLog := []
    tempPast := false })
  let d := (d.giveBack 0 fix held).issueFence fix
  let d := if d.nvm.selfTest.running = 1 ∧ d.nvm.selfTest.fix = fix then d.endSelfTest 2 else d
  let d := d.forEach ePools (fun d p =>
    d.modPool p (fun q => { q with waiting := q.waiting.filter (fun r => r.fix ≠ fix) }))
  let d := { d with qen := { d.qen with cached := d.qen.cached.filter (fun c => c.1 ≠ fix) } }
  d.transition (uid 12 fix) .quiesced .resetting

/-- Functions of a port that exist, the PF first. -/
def Dev.existing (d : Dev) (port : Nat) : List Nat := (d.fnsOfPort port).filter (fun f => d.fnExists f)

/-- VFs of a port that exist. -/
def Dev.vfsOf (d : Dev) (port : Nat) : List Nat := (d.existing port).filter (fun f => !d.isPf f)

/-- Clears VF Enable: every VF of the port is reset and ceases to exist (R55, R63). -/
def Dev.clearVfs (d : Dev) (port : Nat) : Dev :=
  let vfs := d.vfsOf port
  (d.modPort port (fun p => { p with vfEnable := false })).forEach vfs (fun d f => d.resetFn f false)

/-- The SR-IOV capability of a port's PF at its reset values (R55, R57, R63). -/
def Port.clearSriov (p : Port) : Port :=
  { p with vfEnable := false, numVfs := 0, pageSize := 1, vfBar0 := 0, vfBar4 := 0 }

/-- A conventional reset of a port's functions in mode 1 (R63): the SR-IOV capability is cleared with the rest. -/
def Dev.resetPort (d : Dev) (port : Nat) : Dev :=
  let fns := d.existing port
  (d.forEach fns (fun d f => d.resetFn f false)).modPort port Port.clearSriov

/-- VF Enable is written. Set, the port's VFs exist and answer, those under reset only after it (R55). -/
def Dev.setVfEnable (d : Dev) (port : Nat) (enable : Bool) : Dev :=
  if (d.port port).vfEnable == enable then d
  else if enable then
    let d := d.modPort port (fun p => { p with vfEnable := true })
    d.forEach (d.vfsOf port) (fun d f => if (d.fn f).resetting then d else d.transition (uid 12 f) .alive .none)
  else d.clearVfs port

/-- A write of VF Enable, which the port's PF takes once it answers configuration requests (R65 step 7). -/
def execVfEnableWrite (port : Nat) (enable : Bool) (s : State) : Host.Outcome State Fault Refusal :=
  act s fun d => if d.portInUse port && d.answersConfig (pfOf port) then d.setVfEnable port enable else d

/-- An FLR of one function; of a PF it also clears VF Enable and so resets the port's VFs (R63). -/
def execFunctionLevelReset (fix : Nat) (s : State) : Host.Outcome State Fault Refusal :=
  act s fun d =>
    if !d.fnExists fix then d
    else
      let d := if d.isPf fix then (d.clearVfs (d.portOf fix)).modPort (d.portOf fix) Port.clearSriov else d
      d.resetFn fix false

/-- The checks of R473 on a configuration. -/
def Fn.configBad (f : Fn) (css ams mps : Nat) : Bool :=
  decide (f.asqs < 1) || decide (f.acqs < 1) || decide (4 < mps) || decide (css ≠ 0) || decide (ams ≠ 0) ||
    decide (f.asq % 2 ^ (12 + mps) ≠ 0) || decide (f.acq % 2 ^ (12 + mps) ≠ 0)

/-- CC.EN becomes 1: the configuration is checked, and the admin queues stand (R473). The function becomes active and
CSTS.RDY 1 at a boundary (R58). -/
def execControllerEnable (fix css ams mps : Nat) (s : State) : Host.Outcome State Fault Refusal :=
  act s fun d =>
    let f := d.fn fix
    if !d.fnExists fix || f.resetting || f.ccEn || !d.domOn .host then d
    else if f.configBad css ams mps then
      (d.modFn fix (fun f => { f with ccEn := true, cfs := true, mps := mps, css := css, ams := ams })).captureTelemetry
    else
      d.modFn fix (fun f => { f with
        ccEn := true, mps := mps, css := css, ams := ams, noFetch := false
        sqs := fset f.sqs 0 (some { base := f.asq, size := f.asqs + 1 })
        cqs := fset f.cqs 0 (some { base := f.acq, size := f.acqs + 1 }) })

/-- CC.EN goes from 1 to 0: a function reset that keeps the MSI-X table (R63, R471). -/
def execControllerDisable (fix : Nat) (s : State) : Host.Outcome State Fault Refusal :=
  act s fun d => if d.fnExists fix && (d.fn fix).ccEn then d.resetFn fix true else d

/-- Transient E pools (R65, step 6). -/
def transientE : List Nat := [0, 2, 3, 20, 21, 22, 25, 26, 27]

/-- Whether step 6 of R65 has been reached for a function. -/
def Dev.drained (d : Dev) (fix : Nat) : Bool :=
  (d.fn fix).oldItems.isEmpty && decide ((d.fn fix).fence = 0) &&
    transientE.all (fun p => decide (((d.pool p).shareOf fix).held = 0))

/-- A port that went down is quiesced once all its functions have reached step 6 (R68). -/
def Dev.quiescePort (d : Dev) (port : Nat) : Dev :=
  let u := d.unit (uid 11 port)
  if u.quiescing && (d.fnsOfPort port).all (fun f => !(d.fn f).resetting || d.drained f) then
    d.transition (uid 11 port) .quiesced .linkDown
  else d

/-- Step 7 of R65: the reset is reported complete, its duration is kept, and the function answers again if it exists. -/
def execFunctionResetComplete (fix us : Nat) (s : State) : Host.Outcome State Fault Refusal :=
  act s fun d =>
    if (d.fn fix).resetting && d.drained fix then
      let d := d.modFn fix (fun f => { f with resetting := false, rdy := false, lastResetUs := us })
      let d := if d.fnExists fix then d.transition (uid 12 fix) .alive .none else d.transition (uid 12 fix) .absent .notEnabled
      d.quiescePort (d.portOf fix)
    else d

/-! ## Activation and shares at an epoch boundary (R58, R59) -/

/-- FUNCTION_ACTIVATION: functions whose CC.EN changed are counted; CSTS.RDY is set for those counted active. -/
def Dev.activate (d : Dev) : Dev :=
  let step (f : Fn) : Fn :=
    let on := f.ccEn && !f.cfs && !f.resetting
    { f with active := on, rdy := f.rdy || on }
  let fns := d.fnm.fns.map (fun p => (p.1, step p.2))
  { d with fnm := { d.fnm with fns := fns, activeCount := (fns.filter (fun p => p.2.active)).length } }

/-- Active functions in ascending FIX. -/
def Dev.activeList (d : Dev) : List Nat := (d.fnm.fns.filter (fun p => p.2.active)).map (·.1)

/-- Whether list position `i` of `a` receives an extra unit: the `x` positions from `rot` on (R59). -/
def getsExtra (a rot x i : Nat) : Bool := decide ((i + a - rot % a) % a < x)

/-- Shares of one pool for the epoch that begins, and the rotation after it. `rot` is the pointer in force. -/
def shareOut (cap : Nat) (fns : List Nat) (rot : Nat) : List (Nat × Nat) :=
  let a := fns.length
  fns.zipIdx.map (fun p => (p.1, cap / a + (if getsExtra a rot (cap % a) p.2 then 1 else 0)))

/-- SHARE_RECOMPUTE of one pool. `oldA` is the number of active functions in the epoch that ends: its rotation is
advanced first, and taken modulo the new number. -/
def Pool.recompute (q : Pool) (oldA : Nat) (fns : List Nat) : Pool :=
  let a := fns.length
  let adv := if oldA = 0 then q.rot else (q.rot + q.extra) % oldA
  let rot := if a = 0 then adv else adv % a
  let none : FMap Share := (q.shares.map (fun p => (p.1, { p.2 with share := 0 }))).filter (fun p => p.2.held ≠ 0)
  { q with
    rot := rot
    extra := if a = 0 then 0 else q.capacity % a
    shares := if a = 0 then none
      else (shareOut q.capacity fns rot).foldl (fun m p => fmod m {} p.1 (fun s => { s with share := p.2 })) none }

/-- SHARE_RECOMPUTE of every E pool. -/
def Dev.recomputeShares (d : Dev) (oldA : Nat) : Dev :=
  d.forEach ePools (fun d p => d.modPool p (fun q => q.recompute oldA d.activeList))

end Sys2Proof.Machine
end

