-- ==== Sys2Proof/Machine/Queue.lean ====
section
/-! DEFINITION. Doorbells, submission fetch, moderation timers and the end of a shutdown (R77 to R80, R86, R472). -/

namespace Sys2Proof.Machine

/-- Whether a doorbell write of a function is taken at all (R78). -/
def Dev.doorbellTaken (d : Dev) (fix : Nat) : Bool := d.fnExists fix && !(d.fn fix).resetting && d.domOn .host

/-- An ignored doorbell write: the event of NVMe 2.1 (0 Invalid Doorbell Register, 1 Invalid Doorbell Write Value) and
QEN_DB_INVALID. -/
def Dev.badDoorbell (d : Dev) (fix info : Nat) : Dev :=
  ({ d with qen := { d.qen with dbInvalid := satAdd 32 d.qen.dbInvalid 1 } }).postAen fix 0 info 1

/-- A write of a submission queue tail doorbell sets the queue's ready bit (R78, R79). -/
def Dev.sqTail (d : Dev) (fix qid value : Nat) : Dev :=
  if !d.doorbellTaken fix then d
  else match (d.fn fix).sq qid with
    | none => d.badDoorbell fix 0
    | some q =>
      if q.size ≤ value then d.badDoorbell fix 1
      else d.modFn fix (fun f => { f with sqs := fset f.sqs qid (some { q with tail := value, ready := true }) })

def execSqTailDoorbell (fix qid value : Nat) (s : State) : Host.Outcome State Fault Refusal :=
  act s fun d => d.sqTail fix qid value

/-- Whether a CQ head value lies within the span of entries posted (R78). -/
def Cq.inSpan (c : Cq) (v : Nat) : Bool :=
  decide ((v + c.size - c.head) % c.size ≤ (c.tail + c.size - c.head) % c.size)

/-- Posts held completions of a CQ while it has room (R80). -/
def Dev.releaseHeld (d : Dev) (fix qid n : Nat) : Dev :=
  match n with
  | 0 => d
  | k + 1 =>
    match (d.fn fix).cq qid with
    | some c =>
      match c.held with
      | (r, st, dw0, dw1) :: t =>
        if c.full then d
        else ((d.modFn fix (fun f => { f with cqs := fset f.cqs qid (some { c with held := t }) })).postCqe r qid st
          dw0 dw1).releaseHeld fix qid k
      | [] => d
    | none => d

/-- A write of a completion queue head doorbell frees entries (R78). -/
def Dev.cqHead (d : Dev) (fix qid value : Nat) : Dev :=
  if !d.doorbellTaken fix then d
  else match (d.fn fix).cq qid with
    | none => d.badDoorbell fix 0
    | some c =>
      if c.size ≤ value || !c.inSpan value then d.badDoorbell fix 1
      else ((d.modFn fix (fun f => { f with cqs := fset f.cqs qid (some { c with head := value }) })).releaseHeld fix qid
        c.held.length).endDeletes fix

def execCqHeadDoorbell (fix qid value : Nat) (s : State) : Host.Outcome State Fault Refusal :=
  act s fun d => d.cqHead fix qid value

/-- The doorbell that lies at an offset of BAR0 (R77): its queue, and whether it is the head of the CQ. -/
def doorbellAt (off : Nat) : Option (Nat × Bool) :=
  if 0x1000 ≤ off ∧ off < 0x1808 ∧ off % 4 = 0 then some ((off - 0x1000) / 8, decide (off % 8 = 4)) else none

/-- A 32-bit write at an offset of BAR0 where a doorbell lies (R77). -/
def Dev.doorbell (d : Dev) (fix off v : Nat) : Dev :=
  match doorbellAt off with
  | some (q, true) => d.cqHead fix q (v % 65536)
  | some (q, false) => d.sqTail fix q (v % 65536)
  | none => d

/-! ## Submission fetch -/

/-- Whether a submission queue has an entry to fetch. -/
def Sq.hasWork (q : Sq) : Bool := q.ready && decide (q.head ≠ q.tail)

/-- Whether the fetch engine may take an entry of a function (R79, R472, R60). -/
def Dev.fetchable (d : Dev) (fix : Nat) : Bool :=
  let f := d.fn fix
  f.ccEn && f.rdy && !f.noFetch && !f.resetting && !d.qen.pausedAct &&
    f.sqs.any (fun p => match p.2 with
      | some q => q.hasWork
      | none => false) && d.canIssue 0 fix 1 && d.mayRead

/-- The SQ that a function's round robin takes from: the one served last within its Arbitration Burst, else the next
one with work (R79). A burst without a limit lasts while the function's turn of R62 does. -/
def Fn.pickSq (f : Fn) (sameTurn : Bool) : Option (Nat × Sq) :=
  let work (i : Nat) : Bool := match f.sq i with
    | some q => q.hasWork
    | none => false
  let cont : Bool := match f.sq f.lastSq with
    | some q => q.hasWork && (if f.feat.burst = 7 then sameTurn else decide (0 < q.burst ∧ q.burst < 2 ^ f.feat.burst))
    | none => false
  if cont then (f.sq f.lastSq).map (fun q => (f.lastSq, q))
  else match rotFind 257 f.lastSq work with
    | some i => (f.sq i).map (fun q => (i, { q with burst := 0 }))
    | none => none

/-- A queue context is used: a hit, or a miss that brings it on chip among the 8,192 most recent (R79). -/
def Qen.touch (q : Qen) (c : Nat × Nat) : Qen :=
  { q with
    ctxHit := if c ∈ q.cached then q.ctxHit + 1 else q.ctxHit
    ctxMiss := if c ∈ q.cached then q.ctxMiss else q.ctxMiss + 1
    cached := (c :: q.cached.filter (· ≠ c)).take 8192 }

/-- SUBMISSION_FETCH: the function and the queue follow R62 and R79; the entry takes a unit of pool 0. A PSDT that selects
SGLs on an admin command, and a fused entry, complete with Invalid Field in Command at once (R83, R475, R74). -/
def execSubmissionFetch (cid : Nat) (sgl fused : Bool) (s : State) : Host.Outcome State Fault Refusal :=
  act s fun d =>
    match d.qen.drr.next entryBytes d.fetchable with
    | none => d
    | some (fix, drr) =>
      match (d.fn fix).pickSq (decide (fix = d.qen.drr.cur ∧ entryBytes ≤ d.qen.drr.deficit)) with
      | none => d
      | some (qid, q) =>
        let r : CmdRef := ⟨fix, qid, cid⟩
        if (d.cmd r).isSome then d
        else
          let h := (q.head + 1) % q.size
          let d := d.modFn fix (fun f => { f with
            lastSq := qid
            sqs := fset f.sqs qid (some { q with head := h, burst := q.burst + 1, ready := decide (h ≠ q.tail) }) })
          let d : Dev := { d with
            qen := { d.qen.touch (fix, qid) with drr := drr }
            nvm := { d.nvm with cmds := d.nvm.cmds ++ [{ ref := r, epoch := (d.fn fix).epoch }] } }
          let d := (d.issue 0 fix 1).hostRead fix entryBytes
          if fused || (sgl && decide (qid = 0)) then d.complete r .invalidField else d

/-- The moderation timer of a vector expires: its message is sent, or its PBA bit set (R86, R89). -/
def execModerationTimerExpiry (fix vec : Nat) (s : State) : Host.Outcome State Fault Refusal :=
  act s fun d => if ((d.fn fix).vec vec).timer then d.sendMsg fix vec else d

/-- CSTS.SHST becomes 10b once every fetched command of the controller has its completion written (R472). DESIGN CHOICE
(log 73): an Asynchronous Event Request that still waits for an event is not waited for, in a normal shutdown as in an
abrupt one. -/
def execShutdownComplete (fix : Nat) (s : State) : Host.Outcome State Fault Refusal :=
  act s fun d =>
    let f := d.fn fix
    let left := d.nvm.cmds.any (fun c => c.ref.fix = fix ∧ c.job ≠ .aer)
    if f.shst = 1 ∧ left = false ∧ f.holdsFor none = false then d.modFn fix (fun f => { f with shst := 2 }) else d

end Sys2Proof.Machine
end

