-- ==== Sys2Proof/Machine/ConfigSpace.lean ====
section
/-! DEFINITION. What the host reads and writes in a function's configuration space and in its BAR0 and BAR4: the Revision ID
(R2), capabilities and SR-IOV fields (R52, R55), BARs (R57), Device Control (R49, R50), the NVMe registers and doorbells (R72,
R77, R473), the MSI-X table and PBA (R85, R89). -/

namespace Sys2Proof.Machine

/-! ## Capabilities (R52) -/

/-- Revision ID of stepping B0 (R1, R2). -/
def revisionB0 : Nat := 0x10

/-- Capabilities of R52 that a PF presents, and of those the ones that a VF has too. -/
def capOfVf (c : Capability) : Bool :=
  match c with
  | .powerManagement | .pciExpress | .msix | .aer | .ari => true
  | _ => false
def capOfPf (c : Capability) : Bool :=
  match c with
  | .ats | .pri | .pasid | .ide | .tph | .acs | .ptm | .resizableBar | .multicast => false
  | _ => true

/-! ## BARs (R57) -/

/-- Sizes: 16 KiB of BAR0/1 and BAR4/5, 64 MiB of BAR2/3. -/
def bar0Bytes : Nat := 16384
def bar2Bytes : Nat := 2 ^ 26

/-- Size of a VF BAR: 16 KiB, or the System Page Size if larger. -/
def Port.vfBarBytes (p : Port) : Nat := max bar0Bytes (4096 * p.pageSize)

/-- Half `n` of a 64-bit, non-prefetchable BAR that holds an address. -/
def barRead (addr n : Nat) : Nat := if n % 2 = 0 then addr % 2 ^ 32 + 4 else addr / 2 ^ 32

/-- The address after a write of half `n` of a BAR of a size: the bits below the size stay 0. -/
def barWrite (size addr n v : Nat) : Nat :=
  (if n % 2 = 0 then addr / 2 ^ 32 * 2 ^ 32 + v % 2 ^ 32 else addr % 2 ^ 32 + v % 2 ^ 32 * 2 ^ 32) / size * size

/-- BAR `n` of a function: a VF's read as 0, as do unused ones. -/
def Dev.readBar (d : Dev) (fix n : Nat) : Nat :=
  let f := d.fn fix
  if !d.isPf fix then 0
  else match n / 2 with
    | 0 => barRead f.bar0 n
    | 1 => barRead f.bar2 n
    | 2 => barRead f.bar4 n
    | _ => 0

def Dev.writeBar (d : Dev) (fix n v : Nat) : Dev :=
  if !d.isPf fix then d
  else match n / 2 with
    | 0 => d.modFn fix (fun f => { f with bar0 := barWrite bar0Bytes f.bar0 n v })
    | 1 => d.modFn fix (fun f => { f with bar2 := barWrite bar2Bytes f.bar2 n v })
    | 2 => d.modFn fix (fun f => { f with bar4 := barWrite bar0Bytes f.bar4 n v })
    | _ => d

/-- VF BAR `n` in the SR-IOV capability of a port's PF: BAR2/3 is unused. -/
def Port.readVfBar (p : Port) (n : Nat) : Nat :=
  match n / 2 with
  | 0 => barRead p.vfBar0 n
  | 2 => barRead p.vfBar4 n
  | _ => 0

def Port.writeVfBar (p : Port) (n v : Nat) : Port :=
  match n / 2 with
  | 0 => { p with vfBar0 := barWrite p.vfBarBytes p.vfBar0 n v }
  | 2 => { p with vfBar4 := barWrite p.vfBarBytes p.vfBar4 n v }
  | _ => p

/-! ## Configuration space -/

/-- Supported System Page Sizes 4, 8, 16 and 64 KiB in the coding of PCIe, bit n for 4 KiB × 2^n (R57). -/
def pageSizes : Nat := 0x17

/-- TotalVFs and InitialVFs (R55). -/
def Dev.totalVfs (d : Dev) : Nat := if d.hlk.modeA = 1 then 511 else 1023

/-- What a field of configuration space reads as. The SR-IOV capability is the PF's; in a VF Device Control holds no sizes
(PRESUMED, log 96). -/
def Dev.readConfig (d : Dev) (fix : Nat) (c : ConfigField) : Nat :=
  let f := d.fn fix
  let pf := d.isPf fix
  let p := d.port (d.portOf fix)
  let ofPf (v : Nat) : Nat := if pf then v else 0
  match c with
  | .revisionId => revisionB0
  | .msixEnable => b2n f.msixEn
  | .functionMask => b2n f.fnMask
  | .msixTableSize => nVec - 1
  | .msiEnable => ofPf (b2n f.msiEn)
  | .msiAddress => ofPf f.msiAddr
  | .msiData => ofPf f.msiData
  | .interruptDisable => ofPf (b2n f.intxDis)
  | .bar n => d.readBar fix n
  | .expansionRom => 0
  | .vfBar n => ofPf (p.readVfBar n)
  | .systemPageSize => ofPf p.pageSize
  | .supportedPageSizes => ofPf pageSizes
  | .firstVfOffset => ofPf 1
  | .vfStride => ofPf 1
  | .totalVfs => ofPf d.totalVfs
  | .initialVfs => ofPf d.totalVfs
  | .numVfs => ofPf p.numVfs
  | .vfEnable => ofPf (b2n p.vfEnable)
  | .routingId => p.rid + (fix - pfOf (d.portOf fix))
  | .maxPayload => ofPf f.maxPayload
  | .maxPayloadSupported => 512
  | .maxReadRequest => ofPf f.maxRead
  | .relaxedOrdering => ofPf (b2n f.relaxed)
  | .powerState => if f.d0 then 0 else 3
  | .noSoftReset => 1
  | .flrCapable => 1
  | .flitSupported => 1
  | .deviceSerial => ofPf Config.serialNumber.toNat
  | .capability x => b2n (capOfPf x && (pf || capOfVf x))

/-- Payload and read request sizes that a host may set (R49). -/
def payloadSizes : List Nat := [128, 256, 512]
def readSizes : List Nat := [128, 256, 512, 1024, 2048, 4096]

/-- A write to a field of configuration space. Fields that are read-only ignore it; a power state other than D0 and D3hot is
absent and leaves the function where it is (R52). -/
def Dev.writeConfig (d : Dev) (fix : Nat) (c : ConfigField) (v : Nat) : Dev :=
  let pf := d.isPf fix
  let pn := d.portOf fix
  let idle := pf && !(d.port pn).vfEnable
  match c with
  | .msixEnable => (d.modFn fix (fun f => { f with msixEn := bit v 0 })).flushPbaAll fix
  | .functionMask => (d.modFn fix (fun f => { f with fnMask := bit v 0 })).flushPbaAll fix
  | .msiEnable => d.doIf pf (fun d => (d.modFn fix (fun f => { f with msiEn := bit v 0 })).flushPbaAll fix)
  | .msiAddress => d.doIf pf (fun d => d.modFn fix (fun f => { f with msiAddr := v % 2 ^ 64 }))
  | .msiData => d.doIf pf (fun d => d.modFn fix (fun f => { f with msiData := v % 2 ^ 32 }))
  | .interruptDisable => d.doIf pf (fun d => (d.modFn fix (fun f => { f with intxDis := bit v 0 })).flushPbaAll fix)
  | .bar n => d.writeBar fix n v
  | .vfBar n => d.doIf pf (fun d => d.modPort pn (fun p => p.writeVfBar n v))
  | .systemPageSize => d.doIf (idle && decide (v ∈ [1, 2, 4, 16])) (fun d => d.modPort pn (fun p => { p with pageSize := v }))
  | .numVfs => d.doIf idle (fun d => d.modPort pn (fun p => { p with numVfs := min v d.totalVfs }))
  | .vfEnable => d.doIf pf (fun d => d.setVfEnable pn (bit v 0))
  | .routingId => d.doIf pf (fun d => d.modPort pn (fun p => { p with rid := v % 65536 }))
  | .maxPayload => d.doIf (pf && decide (v ∈ payloadSizes)) (fun d => d.modFn fix (fun f => { f with maxPayload := v }))
  | .maxReadRequest => d.doIf (pf && decide (v ∈ readSizes)) (fun d => d.modFn fix (fun f => { f with maxRead := v }))
  | .relaxedOrdering => d.doIf pf (fun d => d.modFn fix (fun f => { f with relaxed := bit v 0 }))
  | .powerState => if v = 0 then d.setPower fix true else if v = 3 then d.setPower fix false else d
  | .revisionId | .expansionRom | .supportedPageSizes | .firstVfOffset | .vfStride | .totalVfs | .initialVfs
  | .maxPayloadSupported | .noSoftReset | .flrCapable | .flitSupported | .msixTableSize | .deviceSerial | .capability _ => d

/-! ## NVMe registers in BAR0 (R57, R72, R77, R472, R473) -/

/-- CAP of every controller (R72): NVMe 2.1's places. -/
def capRegister : Nat :=
  0xFFFF + 2 ^ 16 * 1 + 2 ^ 17 * 0 + 2 ^ 24 * 1 + 2 ^ 32 * 0 + 2 ^ 36 * 1 + 2 ^ 37 * 1 + 2 ^ 48 * 0 + 2 ^ 52 * 4

/-- VS: NVMe 2.1. -/
def vsRegister : Nat := 0x00020100

/-- CC as it stands, and CSTS. -/
def Fn.ccWord (f : Fn) : Nat :=
  b2n f.ccEn + 2 ^ 4 * (f.css % 8) + 2 ^ 7 * (f.mps % 16) + 2 ^ 11 * (f.ams % 8) + 2 ^ 14 * (f.shn % 4) + 2 ^ 16 * (f.iosqes % 16) +
    2 ^ 20 * (f.iocqes % 16)
def Fn.cstsWord (f : Fn) : Nat := b2n f.rdy + 2 * b2n f.cfs + 4 * f.shst

/-- A 32-bit word of the controller registers; doorbells and reserved offsets read as 0. -/
def Fn.readNvme (f : Fn) (off : Nat) : Nat :=
  match off with
  | 0x00 => capRegister % 2 ^ 32
  | 0x04 => capRegister / 2 ^ 32
  | 0x08 => vsRegister
  | 0x0C => f.intMask
  | 0x10 => f.intMask
  | 0x14 => f.ccWord
  | 0x1C => f.cstsWord
  | 0x24 => f.asqs + 2 ^ 16 * f.acqs
  | 0x28 => f.asq % 2 ^ 32
  | 0x2C => f.asq / 2 ^ 32
  | 0x30 => f.acq % 2 ^ 32
  | 0x34 => f.acq / 2 ^ 32
  | _ => 0

/-- A 32-bit write to a controller register that has no row of its own: INTMS and INTMC, the entry sizes of CC, AQA, ASQ and
ACQ. -/
def Fn.writeNvme (f : Fn) (off v : Nat) : Fn :=
  let w := v % 2 ^ 32
  let lo (old : Nat) : Nat := old / 2 ^ 32 * 2 ^ 32 + w
  let hi (old : Nat) : Nat := old % 2 ^ 32 + w * 2 ^ 32
  match off with
  | 0x0C => { f with intMask := f.intMask ||| w }
  | 0x10 => { f with intMask := maskOf ((bitsSet f.intMask 32).filter (fun i => !bit w i)) }
  | 0x14 => { f with iosqes := bitsOf v 16 4, iocqes := bitsOf v 20 4 }
  | 0x24 => { f with asqs := bitsOf v 0 12, acqs := bitsOf v 16 12 }
  | 0x28 => { f with asq := lo f.asq }
  | 0x2C => { f with asq := hi f.asq }
  | 0x30 => { f with acq := lo f.acq }
  | 0x34 => { f with acq := hi f.acq }
  | _ => f

/-- A 32-bit write in BAR0: a doorbell from 0x1000 on, else a controller register. -/
def Dev.writeBar0Word (d : Dev) (fix off v : Nat) : Dev :=
  if 0x1000 ≤ off then d.doorbell fix off v
  else
    let d := d.modFn fix (fun f => f.writeNvme off v)
    if off = 0x10 then d.flushPbaAll fix else d

/-- A write in BAR0 of 32 or 64 bits, the lower word first. -/
def Dev.writeBar0 (d : Dev) (fix off : Nat) (wide : Bool) (v : Nat) : Dev :=
  let d := d.writeBar0Word fix off v
  if wide then d.writeBar0Word fix (off + 4) (v / 2 ^ 32) else d

/-! ## The MSI-X table and the PBA in BAR4 (R57, R85, R89) -/

/-- A 32-bit word of a table entry: Message Address, Message Data and the mask bit of Vector Control. -/
def Vec.readWord (x : Vec) (k : Nat) : Nat :=
  match k with
  | 0 => x.addr % 2 ^ 32
  | 1 => x.addr / 2 ^ 32
  | 2 => x.data
  | _ => b2n x.masked

def Vec.writeWord (x : Vec) (k v : Nat) : Vec :=
  match k with
  | 0 => { x with addr := x.addr / 2 ^ 32 * 2 ^ 32 + v % 2 ^ 32 }
  | 1 => { x with addr := x.addr % 2 ^ 32 + v % 2 ^ 32 * 2 ^ 32 }
  | 2 => { x with data := v % 2 ^ 32 }
  | _ => { x with masked := bit v 0 }

/-- A 32-bit word of BAR4: the table from 0, the PBA from 0x2000. -/
def Fn.readMsix (f : Fn) (off : Nat) : Nat :=
  if off < 16 * nVec then (f.vec (off / 16)).readWord (off % 16 / 4)
  else if 0x2000 ≤ off ∧ off < 0x2028 then
    maskOf ((List.range 32).filter (fun i => decide (8 * (off - 0x2000) + i < nVec) && (f.vec (8 * (off - 0x2000) + i)).pba))
  else 0

/-- A write to the MSI-X table, after which what no longer is held goes out (R89). -/
def Dev.writeMsix (d : Dev) (fix off : Nat) (wide : Bool) (v : Nat) : Dev :=
  if 16 * nVec ≤ off then d
  else
    let i := off / 16
    let k := off % 16 / 4
    (d.modVec fix i (fun x => if wide then (x.writeWord k v).writeWord (k + 1) (v / 2 ^ 32) else x.writeWord k v)).flushPba fix i

/-- A read of 32 or 64 bits from words. -/
def pairRead (word : Nat → Nat) (off : Nat) (wide : Bool) : Nat := word off + (if wide then 2 ^ 32 * word (off + 4) else 0)

end Sys2Proof.Machine
end

