-- ==== Sys2Proof/Machine/Crypto.lean ====
section
/-! DEFINITION. The cryptographic standards that the spec names (R319 FIPS 180-4, FIPS 202 and RFC 2104; R337 SP 800-38D;
R234 and R331 P-384), written from those standards (PRESUMED, log 34). -/

namespace Sys2Proof.Machine

/-! ## SHA-2 -/

/-- Round constants of SHA-512; those of SHA-256 are their upper halves. -/
def sha512K : List (BitVec 64) :=
  [0x428A2F98D728AE22#64, 0x7137449123EF65CD#64, 0xB5C0FBCFEC4D3B2F#64, 0xE9B5DBA58189DBBC#64,
   0x3956C25BF348B538#64, 0x59F111F1B605D019#64, 0x923F82A4AF194F9B#64, 0xAB1C5ED5DA6D8118#64,
   0xD807AA98A3030242#64, 0x12835B0145706FBE#64, 0x243185BE4EE4B28C#64, 0x550C7DC3D5FFB4E2#64,
   0x72BE5D74F27B896F#64, 0x80DEB1FE3B1696B1#64, 0x9BDC06A725C71235#64, 0xC19BF174CF692694#64] ++
  [0xE49B69C19EF14AD2#64, 0xEFBE4786384F25E3#64, 0x0FC19DC68B8CD5B5#64, 0x240CA1CC77AC9C65#64,
   0x2DE92C6F592B0275#64, 0x4A7484AA6EA6E483#64, 0x5CB0A9DCBD41FBD4#64, 0x76F988DA831153B5#64,
   0x983E5152EE66DFAB#64, 0xA831C66D2DB43210#64, 0xB00327C898FB213F#64, 0xBF597FC7BEEF0EE4#64,
   0xC6E00BF33DA88FC2#64, 0xD5A79147930AA725#64, 0x06CA6351E003826F#64, 0x142929670A0E6E70#64] ++
  [0x27B70A8546D22FFC#64, 0x2E1B21385C26C926#64, 0x4D2C6DFC5AC42AED#64, 0x53380D139D95B3DF#64,
   0x650A73548BAF63DE#64, 0x766A0ABB3C77B2A8#64, 0x81C2C92E47EDAEE6#64, 0x92722C851482353B#64,
   0xA2BFE8A14CF10364#64, 0xA81A664BBC423001#64, 0xC24B8B70D0F89791#64, 0xC76C51A30654BE30#64,
   0xD192E819D6EF5218#64, 0xD69906245565A910#64, 0xF40E35855771202A#64, 0x106AA07032BBD1B8#64] ++
  [0x19A4C116B8D2D0C8#64, 0x1E376C085141AB53#64, 0x2748774CDF8EEB99#64, 0x34B0BCB5E19B48A8#64,
   0x391C0CB3C5C95A63#64, 0x4ED8AA4AE3418ACB#64, 0x5B9CCA4F7763E373#64, 0x682E6FF3D6B2B8A3#64,
   0x748F82EE5DEFB2FC#64, 0x78A5636F43172F60#64, 0x84C87814A1F0AB72#64, 0x8CC702081A6439EC#64,
   0x90BEFFFA23631E28#64, 0xA4506CEBDE82BDE9#64, 0xBEF9A3F7B2C67915#64, 0xC67178F2E372532B#64] ++
  [0xCA273ECEEA26619C#64, 0xD186B8C721C0C207#64, 0xEADA7DD6CDE0EB1E#64, 0xF57D4F7FEE6ED178#64,
   0x06F067AA72176FBA#64, 0x0A637DC5A2C898A6#64, 0x113F9804BEF90DAE#64, 0x1B710B35131C471B#64,
   0x28DB77F523047D84#64, 0x32CAAB7B40C72493#64, 0x3C9EBE0A15C9BEBC#64, 0x431D67C49C100D4C#64,
   0x4CC5D4BECB3E42B6#64, 0x597F299CFC657E2A#64, 0x5FCB6FAB3AD6FAEC#64, 0x6C44198C4A475817#64]

/-- Initial hash of SHA-512; that of SHA-256 is its upper halves. -/
def sha512H : List (BitVec 64) :=
  [0x6A09E667F3BCC908#64, 0xBB67AE8584CAA73B#64, 0x3C6EF372FE94F82B#64, 0xA54FF53A5F1D36F1#64,
   0x510E527FADE682D1#64, 0x9B05688C2B3E6C1F#64, 0x1F83D9ABFB41BD6B#64, 0x5BE0CD19137E2179#64]

/-- Initial hash of SHA-384. -/
def sha384H : List (BitVec 64) :=
  [0xCBBB9D5DC1059ED8#64, 0x629A292A367CD507#64, 0x9159015A3070DD17#64, 0x152FECD8F70E5939#64,
   0x67332667FFC00B31#64, 0x8EB44A8768581511#64, 0xDB0C2E0D64F98FA7#64, 0x47B5481DBEFA4FA4#64]

/-- What differs between the 32-bit and the 64-bit hashes: word bits, rounds, rotations. -/
structure ShaParam where
  /-- bits of a word -/
  w : Nat
  /-- rounds -/
  rounds : Nat
  /-- rotations of the upper-case sigmas, three each -/
  s0 : Nat × Nat × Nat
  /-- second upper-case sigma -/
  s1 : Nat × Nat × Nat
  /-- lower-case sigmas: two rotations and a shift -/
  t0 : Nat × Nat × Nat
  /-- second lower-case sigma -/
  t1 : Nat × Nat × Nat

def sha256P : ShaParam := ⟨32, 64, (2, 13, 22), (6, 11, 25), (7, 18, 3), (17, 19, 10)⟩
def sha512P : ShaParam := ⟨64, 80, (28, 34, 39), (14, 18, 41), (1, 8, 7), (19, 61, 6)⟩

/-- A word rotated right. -/
def rotr (w n x : Nat) : Nat := (x / 2 ^ n + x * 2 ^ (w - n)) % 2 ^ w

/-- Three rotations. -/
def sigU (w : Nat) (r : Nat × Nat × Nat) (x : Nat) : Nat := rotr w r.1 x ^^^ rotr w r.2.1 x ^^^ rotr w r.2.2 x

/-- Two rotations and a shift. -/
def sigL (w : Nat) (r : Nat × Nat × Nat) (x : Nat) : Nat := rotr w r.1 x ^^^ rotr w r.2.1 x ^^^ x / 2 ^ r.2.2

/-- The message schedule, newest word first. -/
def shaSchedule (p : ShaParam) (n : Nat) (l : List Nat) : List Nat :=
  match n with
  | 0 => l
  | k + 1 =>
    let g (i : Nat) : Nat := (l[i]?).getD 0
    shaSchedule p k ((sigL p.w p.t1 (g 1) + g 6 + sigL p.w p.t0 (g 14) + g 15) % 2 ^ p.w :: l)

/-- One round on the eight working words. -/
def shaRound (p : ShaParam) (s : List Nat) (kw : Nat × Nat) : List Nat :=
  match s with
  | [a, b, c, d, e, f, g, h] =>
    let m := 2 ^ p.w
    let t1 := h + sigU p.w p.s1 e + ((e &&& f) ^^^ ((m - 1 - e) &&& g)) + kw.1 + kw.2
    let t2 := sigU p.w p.s0 a + ((a &&& b) ^^^ (a &&& c) ^^^ (b &&& c))
    [(t1 + t2) % m, a, b, c, (d + t1) % m, e, f, g]
  | _ => s

/-- One block of 16 words. -/
def shaBlock (p : ShaParam) (k : List Nat) (h : List Nat) (block : Bytes) : List Nat :=
  let n := p.w / 8
  let words := (List.range 16).map (fun i => ofBe (slice block (n * i) n))
  let sched := (shaSchedule p (p.rounds - 16) words.reverse).reverse
  let s := (k.zip sched).foldl (shaRound p) h
  (h.zip s).map (fun x => (x.1 + x.2) % 2 ^ p.w)

/-- All blocks. -/
def shaBlocks (p : ShaParam) (k : List Nat) (fuel : Nat) (h : List Nat) (m : Bytes) : List Nat :=
  match fuel with
  | 0 => h
  | f + 1 => if m.isEmpty then h else shaBlocks p k f (shaBlock p k h m) (m.drop (2 * p.w))

/-- A hash of the SHA-2 family with an initial hash. -/
def sha2 (p : ShaParam) (k h : List Nat) (m : Bytes) : Bytes :=
  let blk := 2 * p.w
  let lenBytes := p.w / 4
  let pad := (blk - (m.length + 1 + lenBytes) % blk) % blk
  let msg := m ++ [0x80#8] ++ zeroBytes pad ++ beBytes lenBytes (8 * m.length)
  ((shaBlocks p k (msg.length / blk) h msg).map (beBytes (p.w / 8))).flatten

def k512 : List Nat := sha512K.map BitVec.toNat
def k256 : List Nat := (k512.take 64).map (· / 2 ^ 32)

def sha256 (m : Bytes) : Bytes := sha2 sha256P k256 ((sha512H.map BitVec.toNat).map (· / 2 ^ 32)) m
def sha512 (m : Bytes) : Bytes := sha2 sha512P k512 (sha512H.map BitVec.toNat) m
def sha384 (m : Bytes) : Bytes := (sha2 sha512P k512 (sha384H.map BitVec.toNat) m).take 48

/-! ## SHA3-256 -/

/-- Round constants of Keccak-f[1600]. -/
def keccakRC : List (BitVec 64) :=
  [0x0000000000000001#64, 0x0000000000008082#64, 0x800000000000808A#64, 0x8000000080008000#64,
   0x000000000000808B#64, 0x0000000080000001#64, 0x8000000080008081#64, 0x8000000000008009#64,
   0x000000000000008A#64, 0x0000000000000088#64, 0x0000000080008009#64, 0x000000008000000A#64,
   0x000000008000808B#64, 0x800000000000008B#64, 0x8000000000008089#64, 0x8000000000008003#64] ++
  [0x8000000000008002#64, 0x8000000000000080#64, 0x000000000000800A#64, 0x800000008000000A#64,
   0x8000000080008081#64, 0x8000000000008080#64, 0x0000000080000001#64, 0x8000000080008008#64]

/-- Lane (x, y) of a state of 25 lanes. -/
def kLane (s : List (BitVec 64)) (x y : Nat) : BitVec 64 := (s[x % 5 + 5 * (y % 5)]?).getD 0

/-- The rotation offsets of rho, met in the order of its walk: lane number and offset. -/
def rhoWalk (n t x y : Nat) : List (Nat × Nat) :=
  match n with
  | 0 => []
  | k + 1 => (x + 5 * y, (t + 1) * (t + 2) / 2 % 64) :: rhoWalk k (t + 1) y ((2 * x + 3 * y) % 5)

/-- Rotation of a lane. -/
def rhoOf (i : Nat) : Nat := (((rhoWalk 24 0 1 0).find? (fun p => p.1 = i)).map (·.2)).getD 0

/-- One round. -/
def keccakRound (s : List (BitVec 64)) (rc : BitVec 64) : List (BitVec 64) :=
  let c (x : Nat) : BitVec 64 := kLane s x 0 ^^^ kLane s x 1 ^^^ kLane s x 2 ^^^ kLane s x 3 ^^^ kLane s x 4
  let a := (List.range 25).map (fun i => kLane s i (i / 5) ^^^ c ((i + 4) % 5) ^^^ (c ((i + 1) % 5)).rotateLeft 1)
  let r := (List.range 25).map (fun i => ((a[i]?).getD 0).rotateLeft (rhoOf i))
  let b := (List.range 25).map (fun i =>
    let x := i % 5
    let y := i / 5
    kLane r (x + 3 * y) x)
  (List.range 25).map (fun i =>
    let x := i % 5
    let y := i / 5
    (kLane b x y ^^^ (~~~ kLane b (x + 1) y &&& kLane b (x + 2) y)) ^^^ (if i = 0 then rc else 0))

/-- The permutation. -/
def keccakF (s : List (BitVec 64)) : List (BitVec 64) := keccakRC.foldl keccakRound s

/-- Absorbs blocks of 136 bytes. -/
def absorb (fuel : Nat) (s : List (BitVec 64)) (m : Bytes) : List (BitVec 64) :=
  match fuel with
  | 0 => s
  | f + 1 =>
    if m.isEmpty then s
    else
      let t := s.zipIdx.map (fun p => if p.2 < 17 then p.1 ^^^ BitVec.ofNat 64 (fieldAt m (8 * p.2) 8) else p.1)
      absorb f (keccakF t) (m.drop 136)

def sha3_256 (m : Bytes) : Bytes :=
  let n := 136 - m.length % 136
  let pad : Bytes := if n = 1 then [0x86#8] else [0x06#8] ++ zeroBytes (n - 2) ++ [0x80#8]
  let msg := m ++ pad
  (((absorb (msg.length / 136) (List.replicate 25 0) msg).take 4).map (fun w => leBytes 8 w.toNat)).flatten

/-! ## The algorithms of service 4 (R319) and HMAC (RFC 2104) -/

/-- The hash of an algorithm number 0 to 3. -/
def hashOf (alg : Nat) (m : Bytes) : Bytes :=
  match alg with
  | 0 => sha256 m
  | 1 => sha384 m
  | 2 => sha512 m
  | _ => sha3_256 m

/-- Digest and block bytes of an algorithm number 0 to 3. -/
def digestLen (alg : Nat) : Nat := if alg = 1 then 48 else if alg = 2 then 64 else 32
def blockLen (alg : Nat) : Nat := if alg = 0 then 64 else if alg = 3 then 136 else 128

/-- HMAC over a hash. -/
def hmac (alg : Nat) (key m : Bytes) : Bytes :=
  let k := padTo (blockLen alg) (if blockLen alg < key.length then hashOf alg key else key)
  hashOf alg (k.map (· ^^^ 0x5C#8) ++ hashOf alg (k.map (· ^^^ 0x36#8) ++ m))

/-- The digest of service 4 under its algorithm number, 0 to 3 or 8 to 11. -/
def service4Digest (alg : Nat) (key m : Bytes) : Bytes := if alg < 8 then hashOf alg m else hmac (alg - 8) key m

/-! ## AES-256 and GCM -/

/-- Doubling in the field of AES. -/
def aesDouble (x : Byte) : Byte := if x.msb then (x <<< 1) ^^^ 0x1B#8 else x <<< 1

/-- Product in the field of AES. -/
def aesMul (x y : Byte) : Byte :=
  ((List.range 8).foldl (fun (p : Byte × Byte) i => (if y.getLsbD i then p.1 ^^^ p.2 else p.1, aesDouble p.2)) (0, x)).1

/-- Inverse in the field of AES (0 for 0), as the 254th power. -/
def aesInv (x : Byte) : Byte := iter 253 (aesMul x) x

/-- The S-box. -/
def sbox (x : Byte) : Byte :=
  let b := aesInv x
  b ^^^ b.rotateLeft 1 ^^^ b.rotateLeft 2 ^^^ b.rotateLeft 3 ^^^ b.rotateLeft 4 ^^^ 0x63#8

/-- Words of the key schedule of AES-256, newest first. -/
def aesExpand (n : Nat) (l : List Bytes) : List Bytes :=
  match n with
  | 0 => l
  | k + 1 =>
    let i := l.length
    let prev := (l.head?).getD []
    let t : Bytes :=
      if i % 8 = 0 then
        match (prev.drop 1 ++ prev.take 1).map sbox with
        | x :: r => (x ^^^ iter (i / 8 - 1) aesDouble 1#8) :: r
        | [] => []
      else if i % 8 = 4 then prev.map sbox else prev
    aesExpand k (List.zipWith (· ^^^ ·) ((l[7]?).getD []) t :: l)

/-- Round keys of 16 bytes, first round first. -/
def aesKeys (key : Bytes) : List Bytes :=
  let w := (aesExpand 52 ((List.range 8).map (fun i => slice key (4 * i) 4)).reverse).reverse.flatten
  (List.range 15).map (fun i => slice w (16 * i) 16)

/-- ShiftRows of a block in column order. -/
def shiftRows (b : Bytes) : Bytes := (List.range 16).map (fun i => (b[(i + 4 * (i % 4)) % 16]?).getD 0)

/-- MixColumns. -/
def mixColumns (b : Bytes) : Bytes :=
  (List.range 16).map (fun i =>
    let g (k : Nat) : Byte := (b[i / 4 * 4 + (i + k) % 4]?).getD 0
    aesDouble (g 0) ^^^ (aesDouble (g 1) ^^^ g 1) ^^^ g 2 ^^^ g 3)

/-- AES-256 of one block. -/
def aes256 (key block : Bytes) : Bytes :=
  match aesKeys key with
  | [] => block
  | k0 :: ks =>
    let s := List.zipWith (· ^^^ ·) (padTo 16 block) k0
    (ks.zipIdx.foldl (fun s p =>
      let t := shiftRows (s.map sbox)
      List.zipWith (· ^^^ ·) (if p.2 = 13 then t else mixColumns t) p.1) s)

/-- Product in the field of GHASH; bit 0 of the standard is the most significant bit. -/
def ghashMul (x y : BitVec 128) : BitVec 128 :=
  ((List.range 128).foldl (fun (p : BitVec 128 × BitVec 128) i =>
    (if x.getMsbD i then p.1 ^^^ p.2 else p.1,
     if p.2.getLsbD 0 then (p.2 >>> 1) ^^^ (0xE1#128 <<< 120) else p.2 >>> 1)) (0, y)).1

/-- GHASH over whole blocks. -/
def ghash (h : BitVec 128) (fuel : Nat) (y : BitVec 128) (m : Bytes) : BitVec 128 :=
  match fuel with
  | 0 => y
  | f + 1 => if m.isEmpty then y else ghash h f (ghashMul (y ^^^ BitVec.ofNat 128 (ofBe (slice m 0 16))) h) (m.drop 16)

/-- A string padded with zeros to whole blocks. -/
def pad16 (b : Bytes) : Bytes := padTo (ceilDiv b.length 16 * 16) b

/-- The text of a GCM operation in counter mode: encryption and decryption are the same. -/
def gcmText (key iv text : Bytes) : Bytes :=
  let stream := ((List.range (ceilDiv text.length 16)).map (fun i => aes256 key (padTo 12 iv ++ beBytes 4 (i + 2)))).flatten
  List.zipWith (· ^^^ ·) text stream

/-- The tag of a GCM ciphertext with its additional data. -/
def gcmTag (key iv aad cipher : Bytes) : Bytes :=
  let h := BitVec.ofNat 128 (ofBe (aes256 key (zeroBytes 16)))
  let m := pad16 aad ++ pad16 cipher ++ beBytes 8 (8 * aad.length) ++ beBytes 8 (8 * cipher.length)
  List.zipWith (· ^^^ ·) (beBytes 16 (ghash h (m.length / 16) 0 m).toNat) (aes256 key (padTo 12 iv ++ beBytes 4 1))

/-- A GCM decryption: the plaintext, if the tag verifies. -/
def gcmOpen (key iv aad cipher tag : Bytes) : Option Bytes :=
  if gcmTag key iv aad cipher = tag then some (gcmText key iv cipher) else none

/-! ## P-384 and ECDSA -/

def p384 : Nat := 2 ^ 384 - 2 ^ 128 - 2 ^ 96 + 2 ^ 32 - 1
def p384N : Nat := 0xFFFFFFFFFFFFFFFFFFFFFFFFFFFFFFFFFFFFFFFFFFFFFFFFC7634D81F4372DDF581A0DB248B0A77AECEC196ACCC52973
def p384B : Nat := 0xB3312FA7E23EE7E4988E056BE3F82D19181D9C6EFE8141120314088F5013875AC656398D8A2ED19D2A85C8EDD3EC2AEF
def p384G : Nat × Nat :=
  (0xAA87CA22BE8B05378EB1C71EF320AD746E1D3B628BA79B9859F741E082542A385502F25DBF55296C3A545E3872760AB7,
   0x3617DE4A96262C6F5D9E98BF9292DC29F8F41DBD289A147CE9DA3113B5F0B8C00A60B1CE1D7E819D7A431D7C90EA0E5F)

/-- Power modulo `m`, over `n` bits of the exponent. -/
def powMod (m n b e : Nat) : Nat :=
  match n with
  | 0 => 1 % m
  | k + 1 => let h := powMod m k (b * b % m) (e / 2); if e % 2 = 1 then b * h % m else h

/-- Inverse modulo a prime. -/
def invMod (m x : Nat) : Nat := powMod m 384 (x % m) (m - 2)

/-- Whether coordinates lie on the curve. -/
def onP384 (x y : Nat) : Bool :=
  decide (x < p384 ∧ y < p384 ∧ y * y % p384 = (x * x * x + (p384 - 3) * x + p384B) % p384)

/-- Sum of two points; none is the point at infinity. -/
def p384Add (a b : Option (Nat × Nat)) : Option (Nat × Nat) :=
  match a, b with
  | none, q => q
  | p, none => p
  | some (x1, y1), some (x2, y2) =>
    if x1 = x2 ∧ (y1 + y2) % p384 = 0 then none
    else
      let l := if x1 = x2 then (3 * x1 * x1 + (p384 - 3)) * invMod p384 (2 * y1) % p384
        else (y2 + p384 - y1) * invMod p384 (x2 + p384 - x1) % p384
      let x := (l * l + 2 * p384 - x1 - x2) % p384
      some (x, (l * (x1 + p384 - x) + p384 - y1) % p384)

/-- Multiple of a point, over `n` bits of the factor. -/
def p384Mul (n k : Nat) (a : Option (Nat × Nat)) : Option (Nat × Nat) :=
  match n with
  | 0 => none
  | m + 1 => let h := p384Mul m (k / 2) (p384Add a a); if k % 2 = 1 then p384Add a h else h

/-- ECDSA over P-384 on a digest of 48 bytes: public key X‖Y, r and s big-endian. -/
def ecdsaVerify (pub digest r s : Bytes) : Bool :=
  let x := ofBe (slice pub 0 48)
  let y := ofBe (slice pub 48 48)
  let r := ofBe r
  let s := ofBe s
  if onP384 x y ∧ 0 < r ∧ r < p384N ∧ 0 < s ∧ s < p384N then
    let w := invMod p384N s
    match p384Add (p384Mul 384 (ofBe digest * w % p384N) (some p384G)) (p384Mul 384 (r * w % p384N) (some (x, y))) with
    | some (v, _) => decide (v % p384N = r)
    | none => false
  else false

end Sys2Proof.Machine
end

