-- ==== Sys2Proof/Machine/Zstd.lean ====
section
/-! DEFINITION. Decoding of Zstandard frames, as R305 to R309 take it from RFC 8878 (PRESUMED, log 35): bitstreams, FSE and
Huffman tables, literals, sequences, blocks, frames. -/

namespace Sys2Proof.Machine

/-! ## Bitstreams -/

/-- Bits of a number. -/
def log2Of (n : Nat) : Nat := n.log2

/-- A stream read from its end towards its start: its bits as one number, and how many are left. -/
structure BackBits where
  /-- the bits, the first byte's lowest -/
  bits : Nat
  /-- bits left -/
  left : Int
  deriving DecidableEq, Repr

/-- Opens a backward stream: the highest set bit of the last byte marks its end. -/
def openBack (b : Bytes) : Option BackBits :=
  match b.getLast? with
  | some x => if x = 0 then none else some { bits := ofLe b, left := (8 * (b.length - 1) + log2Of x.toNat : Nat) }
  | none => none

/-- Reads `n` bits; bits beyond the start read as 0. -/
def BackBits.read (s : BackBits) (n : Nat) : Nat × BackBits :=
  let lo := s.left - n
  let v := if 0 ≤ lo then bitsOf s.bits lo.toNat n else (bitsOf s.bits 0 s.left.toNat) * 2 ^ (-(max lo (-n))).toNat
  (if s.left ≤ 0 then 0 else v, { s with left := lo })

/-! ## FSE tables -/

/-- An entry of an FSE decoding table. -/
structure FseRow where
  /-- symbol -/
  sym : Nat
  /-- bits to read for the next state -/
  nb : Nat
  /-- base of the next state -/
  base : Nat
  deriving DecidableEq, Repr

/-- An FSE decoding table. -/
structure FseTable where
  /-- Accuracy_Log -/
  log : Nat
  /-- rows by state -/
  rows : List FseRow
  deriving DecidableEq, Repr

/-- Repeated zero counts after a probability of 0. -/
def zeroRuns (bits pos : Nat) (fuel : Nat) : Nat × Nat :=
  match fuel with
  | 0 => (0, pos)
  | k + 1 =>
    let r := bitsOf bits pos 2
    if r = 3 then let (n, p) := zeroRuns bits (pos + 2) k; (n + 3, p) else (r, pos + 2)

/-- Reads normalised probabilities from bit `pos` on; −1 stands for "less than 1". -/
def normRead (bits pos remaining : Nat) (acc : List Int) (fuel : Nat) : Option (List Int × Nat) :=
  match fuel with
  | 0 => none
  | k + 1 =>
    if remaining = 0 then some (acc.reverse, pos)
    else
      let nb := log2Of (remaining + 1) + 1
      let v := bitsOf bits pos nb
      let low := v % 2 ^ (nb - 1)
      let thr := 2 ^ nb - 1 - (remaining + 1)
      let short := decide (low < thr)
      let val := if short then low else if 2 ^ (nb - 1) ≤ v then v - thr else v
      let pos := if short then pos + nb - 1 else pos + nb
      let p : Int := (val : Int) - 1
      let used := p.natAbs
      if remaining < used then none
      else if p = 0 then
        let (z, pos) := zeroRuns bits pos 300
        normRead bits pos remaining (List.replicate z 0 ++ (0 :: acc)) k
      else normRead bits pos (remaining - used) (p :: acc) k

/-- Places a symbol of probability `n` on the free cells. -/
def spreadSym (size high pos sym n : Nat) (cells : FMap Nat) : FMap Nat × Nat :=
  match n with
  | 0 => (cells, pos)
  | k + 1 =>
    let cells := fset cells pos sym
    let step := size / 2 + size / 8 + 3
    let next := ((List.range size).map (fun i => (pos + (i + 1) * step) % size)).find? (fun p => decide (p < high))
    spreadSym size high (next.getD 0) sym k cells

/-- Builds a decoding table from probabilities. -/
def fseBuild (log : Nat) (norm : List Int) : Option FseTable :=
  let size := 2 ^ log
  let less := (norm.zipIdx.filter (fun p => p.1 = -1)).map (·.2)
  let high := size - less.length
  let start : FMap Nat := less.zipIdx.foldl (fun m p => fset m (size - 1 - p.2) p.1) []
  let (cells, pos) := norm.zipIdx.foldl (fun (a : FMap Nat × Nat) p =>
    if 0 < p.1 then spreadSym size high a.2 p.2 p.1.toNat a.1 else a) (start, 0)
  if pos ≠ 0 ∧ high ≠ 0 then none
  else
    let count0 : FMap Nat := norm.zipIdx.foldl (fun m p => fset m p.2 p.1.natAbs) []
    let (rows, _) := (List.range size).foldl (fun (a : List FseRow × FMap Nat) i =>
      let s := fget cells 0 i
      let n := fget a.2 1 s
      let nb := log - log2Of n
      (({ sym := s, nb := nb, base := n * 2 ^ nb - size } : FseRow) :: a.1, fset a.2 s (n + 1))) ([], count0)
    some { log := log, rows := rows.reverse }

/-- Reads a table description: the table, and the bytes it takes. -/
def fseRead (b : Bytes) (maxLog maxSym : Nat) : Option (FseTable × Nat) :=
  let bits := ofLe (b.take 600)
  let log := bitsOf bits 0 4 + 5
  if b.isEmpty ∨ maxLog < log then none
  else match normRead bits 4 (2 ^ log) [] 600 with
    | none => none
    | some (norm, pos) =>
      let used := (pos + 7) / 8
      if b.length < used ∨ maxSym + 1 < norm.length then none else (fseBuild log norm).map (fun t => (t, used))

/-- The table of one symbol. -/
def fseOne (sym : Nat) : FseTable := { log := 0, rows := [{ sym := sym, nb := 0, base := 0 }] }

/-- The row of a state. -/
def FseTable.row (t : FseTable) (s : Nat) : FseRow := t.rows.getD s { sym := 0, nb := 0, base := 0 }

/-! ## Huffman -/

/-- A Huffman decoding table: symbol and code length by the next `bits` bits. -/
structure Huff where
  /-- Max_Number_of_Bits -/
  bits : Nat
  /-- entries -/
  rows : List (Nat × Nat)
  deriving DecidableEq, Repr

/-- Two interleaved FSE states decode the weights (both end with the stream). -/
def weightsRead (t : FseTable) (s1 s2 : Nat) (b : BackBits) (fuel : Nat) : Option (List Nat) :=
  match fuel with
  | 0 => none
  | k + 1 =>
    let r := t.row s1
    let (v, b) := b.read r.nb
    if b.left < 0 then some [r.sym, (t.row s2).sym]
    else (weightsRead t s2 (r.base + v) b k).map (fun l => r.sym :: l)

/-- Whether a number is a power of two. -/
def isPow2 (n : Nat) : Bool := decide (0 < n) && decide (2 ^ log2Of n = n)

/-- The table of a list of weights without the last. -/
def huffBuild (w : List Nat) : Option Huff :=
  let sum := (w.map (fun x => if x = 0 then 0 else 2 ^ (x - 1))).sum
  if sum = 0 ∨ w.any (fun x => decide (11 < x)) then none
  else
    let bits := log2Of sum + 1
    let left := 2 ^ bits - sum
    if isPow2 left = false ∨ 11 < bits then none
    else
      let all := w ++ [log2Of left + 1]
      -- symbols of the smallest weight, which have the longest codes, take the lowest codes
      let rows := ((List.range bits).map (fun k => ((all.zipIdx.filter (fun p => p.1 = k + 1)).map (fun p =>
        List.replicate (2 ^ k) (p.2, bits - k))).flatten)).flatten
      some { bits := bits, rows := rows }

/-- Reads a Huffman tree description: the table, and the bytes it takes. -/
def huffRead (b : Bytes) : Option (Huff × Nat) :=
  match b with
  | [] => none
  | h :: t =>
    let n := h.toNat
    if 128 ≤ n then
      let count := n - 127
      let len := (count + 1) / 2
      if t.length < len then none
      else
        let w := (List.range count).map (fun i =>
          let x := fieldAt t (i / 2) 1
          if i % 2 = 0 then x / 16 else x % 16)
        (huffBuild w).map (fun h => (h, 1 + len))
    else if t.length < n then none
    else
      let src := t.take n
      match fseRead src 6 255 with
      | none => none
      | some (tb, used) =>
        match openBack (src.drop used) with
        | none => none
        | some s =>
          let (a, s) := s.read tb.log
          let (c, s) := s.read tb.log
          if s.left < 0 then none
          else match weightsRead tb a c s 256 with
            | none => none
            | some w => if 255 < w.length then none else (huffBuild w).map (fun h => (h, 1 + n))

/-- Decodes one stream of `n` literals, which must end with its first bit. -/
def huffStream (h : Huff) (s : BackBits) (n : Nat) : Option Bytes :=
  match n with
  | 0 => if s.left = 0 then some [] else none
  | k + 1 =>
    let (v, _) := s.read h.bits
    let (sym, nb) := h.rows.getD v (0, 0)
    if s.left < nb then none
    else (huffStream h { s with left := s.left - nb } k).map (fun l => BitVec.ofNat 8 sym :: l)

/-- Decodes a stream of bytes. -/
def huffBytes (h : Huff) (b : Bytes) (n : Nat) : Option Bytes := (openBack b).bind (fun s => huffStream h s n)

/-! ## Blocks -/

/-- What a frame's blocks share. -/
structure ZState where
  /-- Huffman table of the last tree -/
  huff : Option Huff := none
  /-- tables of literal lengths, offsets and match lengths -/
  ll : Option FseTable := none
  of' : Option FseTable := none
  ml : Option FseTable := none
  /-- repeated offsets -/
  rep : Nat × Nat × Nat := (1, 4, 8)
  /-- output of the frame, newest byte first -/
  out : Bytes := []
  deriving DecidableEq, Repr

/-- The literals section: literals, new state, bytes taken. -/
def litRead (z : ZState) (b : Bytes) (maxSize : Nat) : Option (Bytes × ZState × Nat) :=
  let h := fieldAt b 0 1
  let ty := h % 4
  let sf := h / 4 % 4
  if b.isEmpty then none
  else if ty < 2 then
    let (hl, n) := if sf % 2 = 0 then (1, h / 8) else if sf = 1 then (2, fieldAt b 0 2 / 16) else (3, fieldAt b 0 3 / 16)
    if ty = 0 then (if b.length < hl + n then none else some ((b.drop hl).take n, z, hl + n))
    else match b[hl]? with
      | some x => if maxSize < n then none else some (List.replicate n x, z, hl + 1)
      | none => none
  else
    let (hl, w) := if sf < 2 then (3, 10) else if sf = 2 then (4, 14) else (5, 18)
    let x := fieldAt b 0 hl
    let n := bitsOf x 4 w
    let c := bitsOf x (4 + w) w
    if b.length < hl + c ∨ maxSize < n then none
    else
      let src := (b.drop hl).take c
      let tree := if ty = 2 then huffRead src else z.huff.map (fun h => (h, 0))
      match tree with
      | none => none
      | some (hf, used) =>
        let src := src.drop used
        let lits :=
          if sf = 0 then huffBytes hf src n
          else
            let s1 := fieldAt src 0 2
            let s2 := fieldAt src 2 2
            let s3 := fieldAt src 4 2
            let per := (n + 3) / 4
            let d := src.drop 6
            if src.length < 6 + s1 + s2 + s3 ∨ n < 3 * per then none
            else match huffBytes hf (d.take s1) per, huffBytes hf ((d.drop s1).take s2) per,
                huffBytes hf ((d.drop (s1 + s2)).take s3) per, huffBytes hf (d.drop (s1 + s2 + s3)) (n - 3 * per) with
              | some a, some b, some c, some e => some (a ++ b ++ c ++ e)
              | _, _, _, _ => none
        lits.map (fun l => (l, { z with huff := some hf }, hl + c))

/-- Predefined distributions. -/
def llNorm : List Int := [4, 3, 2, 2, 2, 2, 2, 2, 2, 2, 2, 2, 2, 1, 1, 1, 2, 2, 2, 2, 2, 2, 2, 2, 2, 3, 2, 1, 1, 1, 1, 1,
  -1, -1, -1, -1]
def ofNorm : List Int := [1, 1, 1, 1, 1, 1, 2, 2, 2, 1, 1, 1, 1, 1, 1, 1, 1, 1, 1, 1, 1, 1, 1, 1, -1, -1, -1, -1, -1]
def mlNorm : List Int := [1, 4, 3, 2, 2, 2, 2, 2, 2] ++ List.replicate 37 1 ++ List.replicate 7 (-1)

/-- Baselines and extra bits of the length codes. -/
def llCode (c : Nat) : Nat × Nat :=
  if c < 16 then (c, 0)
  else [(16, 1), (18, 1), (20, 1), (22, 1), (24, 2), (28, 2), (32, 3), (40, 3), (48, 4), (64, 6), (128, 7), (256, 8),
    (512, 9), (1024, 10), (2048, 11), (4096, 12), (8192, 13), (16384, 14), (32768, 15), (65536, 16)].getD (c - 16) (0, 0)
def mlCode (c : Nat) : Nat × Nat :=
  if c < 32 then (c + 3, 0)
  else [(35, 1), (37, 1), (39, 1), (41, 1), (43, 2), (47, 2), (51, 3), (59, 3), (67, 4), (83, 4), (99, 5), (131, 7),
    (259, 8), (515, 9), (1027, 10), (2051, 11), (4099, 12), (8195, 13), (16387, 14), (32771, 15),
    (65539, 16)].getD (c - 32) (0, 0)

/-- One table of the sequences section by its mode: the table, and the bytes it takes. -/
def seqTable (mode : Nat) (b : Bytes) (log maxLog maxSym : Nat) (norm : List Int) (old : Option FseTable) :
    Option (FseTable × Nat) :=
  match mode with
  | 0 => (fseBuild log norm).map (fun t => (t, 0))
  | 1 => match b with
    | x :: _ => if maxSym < x.toNat then none else some (fseOne x.toNat, 1)
    | [] => none
  | 2 => fseRead b maxLog maxSym
  | _ => old.map (fun t => (t, 0))

/-- The offset that a code stands for, with the repeated offsets after it. -/
def takeOffset (v ll : Nat) (r : Nat × Nat × Nat) : Nat × (Nat × Nat × Nat) :=
  if 3 < v then (v - 3, (v - 3, r.1, r.2.1))
  else
    let i := if ll = 0 then v else v - 1
    match i with
    | 0 => (r.1, r)
    | 1 => (r.2.1, (r.2.1, r.1, r.2.2))
    | 2 => (r.2.2, (r.2.2, r.1, r.2.1))
    | _ => (r.1 - 1, (r.1 - 1, r.1, r.2.1))

/-- Copies `n` bytes from `off` back. -/
def copyMatch (out : Bytes) (off n : Nat) : Bytes :=
  match n with
  | 0 => out
  | k + 1 => copyMatch (out.getD (off - 1) 0 :: out) off k

/-- Runs `n` sequences on the literals; answers the state reached, the literals left, and whether all went well. -/
def seqRun (tl to' tm : FseTable) (window produced0 : Nat) (sl so sm : Nat) (s : BackBits) (z : ZState) (lits : Bytes)
    (n : Nat) : ZState × Bytes × Bool :=
  match n with
  | 0 => (z, lits, decide (s.left = 0))
  | k + 1 =>
    let rl := tl.row sl
    let ro := to'.row so
    let rm := tm.row sm
    let (ov, s) := s.read ro.sym
    let (mx, s) := s.read (mlCode rm.sym).2
    let (lx, s) := s.read (llCode rl.sym).2
    let ll := (llCode rl.sym).1 + lx
    let ml := (mlCode rm.sym).1 + mx
    let (off, rep) := takeOffset (2 ^ ro.sym + ov) ll z.rep
    if s.left < 0 ∨ lits.length < ll then (z, lits, false)
    else
      let out := (lits.take ll).reverse ++ z.out
      let z := { z with out := out, rep := rep }
      if off = 0 ∨ out.length < off ∨ window < off then (z, lits.drop ll, false)
      else
        let z := { z with out := copyMatch out off ml }
        if k = 0 then (z, lits.drop ll, decide (s.left = 0))
        else
          let (a, s) := s.read rl.nb
          let (c, s) := s.read rm.nb
          let (e, s) := s.read ro.nb
          if s.left < 0 then (z, lits.drop ll, false)
          else seqRun tl to' tm window produced0 (rl.base + a) (ro.base + e) (rm.base + c) s z (lits.drop ll) k

/-- A Compressed block: the state reached, and whether it is valid. -/
def zstdCompressed (z : ZState) (b : Bytes) (window maxSize : Nat) : ZState × Bool :=
  match litRead z b maxSize with
  | none => (z, false)
  | some (lits, z, used) =>
    let b := b.drop used
    let b0 := fieldAt b 0 1
    let (hl, n) := if b0 < 128 then (1, b0) else if b0 < 255 then (2, (b0 - 128) * 256 + fieldAt b 1 1)
      else (3, fieldAt b 1 2 + 0x7F00)
    if b.length < hl then (z, false)
    else if n = 0 then ({ z with out := lits.reverse ++ z.out }, decide (b.length = hl))
    else
      let modes := fieldAt b hl 1
      if b.length < hl + 1 ∨ modes % 4 ≠ 0 then (z, false)
      else
        let b := b.drop (hl + 1)
        match seqTable (modes / 64) b 6 9 35 llNorm z.ll with
        | none => (z, false)
        | some (tl, u) =>
          let b := b.drop u
          match seqTable (modes / 16 % 4) b 5 8 31 ofNorm z.of' with
          | none => (z, false)
          | some (to', u) =>
            let b := b.drop u
            match seqTable (modes / 4 % 4) b 6 9 52 mlNorm z.ml with
            | none => (z, false)
            | some (tm, u) =>
              match openBack (b.drop u) with
              | none => (z, false)
              | some s =>
                let z := { z with ll := some tl, of' := some to', ml := some tm }
                let (sl, s) := s.read tl.log
                let (so, s) := s.read to'.log
                let (sm, s) := s.read tm.log
                if s.left < 0 then (z, false)
                else
                  let start := z.out.length
                  let (z, rest, ok) := seqRun tl to' tm window start sl so sm s z lits n
                  let z := if ok then { z with out := rest.reverse ++ z.out } else z
                  (z, ok && decide (z.out.length - start ≤ maxSize))

/-! ## Frames (R305 to R309) -/

/-- How a decompression ends: its status of R251, its bytes, and what it consumed and produced piece by piece: source
bytes, output bytes, and whether the two go byte by byte. -/
structure ZEnd where
  /-- status of R251 -/
  status : Nat
  /-- output, newest byte first -/
  out : Bytes
  /-- pieces, newest first -/
  pieces : List (Nat × Nat × Bool)
  deriving DecidableEq, Repr

/-- The header of a frame. -/
structure ZHead where
  /-- header bytes -/
  len : Nat
  /-- Window_Size -/
  window : Nat
  /-- Frame_Content_Size -/
  size : Option Nat
  /-- Content_Checksum_Flag -/
  check : Bool
  deriving DecidableEq, Repr

/-- Reads the header after the magic number; none where R305 or R306 refuses it or the source ends in it. -/
def zHeader (b : Bytes) : Option ZHead :=
  let f := fieldAt b 0 1
  let single := decide (f / 32 % 2 = 1)
  let dict := [0, 1, 2, 4].getD (f % 4) 0
  let fcs := if f / 64 = 0 then b2n single else [0, 2, 4, 8].getD (f / 64) 0
  let wl := 1 - b2n single
  let len := 1 + wl + dict + fcs
  let w := fieldAt b 1 1
  let base := 2 ^ (10 + w / 8)
  let raw := fieldAt b (1 + wl + dict) fcs
  let size := if fcs = 2 then raw + 256 else raw
  let window := if single then size else base + base / 8 * (w % 8)
  if b.length < len ∨ f / 8 % 2 = 1 ∨ fieldAt b (1 + wl) dict ≠ 0 ∨ 8388608 < window then none
  else some { len := len, window := window, size := if fcs = 0 then none else some size, check := decide (f / 4 % 2 = 1) }

/-- What a block gives. -/
structure ZBlock where
  /-- state after it -/
  z : ZState
  /-- source bytes -/
  src : Nat
  /-- source and output go byte by byte -/
  linear : Bool
  /-- valid -/
  ok : Bool
  deriving DecidableEq, Repr

/-- Decodes a block of a type and a size. -/
def zBlock (z : ZState) (b : Bytes) (ty size window : Nat) : ZBlock :=
  let m := min window 131072
  if ty = 3 ∨ m < size then { z := z, src := 3, linear := false, ok := false }
  else if ty = 0 then
    { z := { z with out := ((b.drop 3).take size).reverse ++ z.out }, src := 3 + size, linear := true
      ok := decide (3 + size ≤ b.length) }
  else if ty = 1 then
    match b[3]? with
    | some x => { z := { z with out := List.replicate size x ++ z.out }, src := 4, linear := false, ok := true }
    | none => { z := z, src := 3, linear := false, ok := false }
  else if b.length < 3 + size then { z := z, src := 3, linear := false, ok := false }
  else
    let (z, ok) := zstdCompressed z ((b.drop 3).take size) window m
    { z := z, src := 3 + size, linear := false, ok := ok }

/-- The blocks of a frame. `room` is what the frame may still write, `e` what has happened before its blocks; the answer
holds the source after the frame where it ends well. -/
def zBlocks (h : ZHead) (z : ZState) (b : Bytes) (room : Nat) (e : ZEnd) (fuel : Nat) : ZEnd × Option Bytes :=
  match fuel with
  | 0 => ({ e with status := 6 }, none)
  | k + 1 =>
    if b.length < 3 then ({ e with status := 6 }, none)
    else
      let x := fieldAt b 0 3
      let r := zBlock z b (x / 2 % 4) (x / 8) h.window
      let new := r.z.out.length - z.out.length
      let pieces (n : Nat) : List (Nat × Nat × Bool) :=
        if r.linear then [(n, n, true), (3, 0, false)] else [(r.src, n, false)]
      if room < new then
        let cut := r.z.out.drop (new - room)
        ({ status := if h.size.isSome then 7 else 8, out := cut.take room ++ e.out
           pieces := if room = 0 then e.pieces else pieces room ++ e.pieces }, none)
      else
        let e : ZEnd := { e with out := r.z.out.take new ++ e.out, pieces := pieces new ++ e.pieces }
        if r.ok = false then ({ e with status := 6 }, none)
        else if x % 2 = 0 then zBlocks h r.z (b.drop r.src) (room - new) e k
        else if h.size.isSome ∧ room ≠ new then ({ e with status := 7 }, none)
        else
          let rest := b.drop r.src
          if h.check then
            if rest.length < 4 ∨ fieldAt rest 0 4 ≠ xxh64 r.z.out.reverse % 2 ^ 32 then ({ e with status := 6 }, none)
            else ({ e with pieces := (4, 0, false) :: e.pieces }, some (rest.drop 4))
          else (e, some rest)

/-- Frames laid back to back, into a destination of `cap` bytes. -/
def zFrames (b : Bytes) (cap : Nat) (e : ZEnd) (fuel : Nat) : ZEnd :=
  match fuel with
  | 0 => e
  | k + 1 =>
    if b.isEmpty then e
    else
      let magic := fieldAt b 0 4
      if b.length < 4 then { e with status := 6 }
      else if 0x184D2A50 ≤ magic ∧ magic ≤ 0x184D2A5F then
        let n := fieldAt b 4 4
        if b.length < 8 + n then { e with status := 6 }
        else zFrames (b.drop (8 + n)) cap { e with pieces := (8 + n, 0, false) :: e.pieces } k
      else if magic ≠ 0xFD2FB528 then { e with status := 6 }
      else match zHeader (b.drop 4) with
        | none => { e with status := 6 }
        | some h =>
          let left := cap - e.out.length
          let e : ZEnd := { e with pieces := (4 + h.len, 0, false) :: e.pieces }
          if left < h.size.getD 0 then { e with status := 8 }
          else match zBlocks h {} (b.drop (4 + h.len)) (h.size.getD left) e (b.length + 1) with
            | (e, some rest) => zFrames rest cap e k
            | (e, none) => e

/-- A decompression job: status, output and pieces. -/
def zstdDecode (src : Bytes) (cap : Nat) : ZEnd := zFrames src cap { status := 0, out := [], pieces := [] } (src.length + 1)

end Sys2Proof.Machine
end

