-- ==== Sys2Proof/Machine/Granule.lean ====
section
/-! DEFINITION. A granule as it is stored (R117 to R121): header, Zstandard frame, check value and encryption, the checks
that a read makes of its bytes (R127), and the codewords that carry it (R125). -/

namespace Sys2Proof.Machine

/-! ## AES-256 backwards, and XTS (IEEE 1619) -/

/-- The inverse of the S-box. -/
def sboxInv (x : Byte) : Byte := aesInv (x.rotateLeft 1 ^^^ x.rotateLeft 3 ^^^ x.rotateLeft 6 ^^^ 0x05#8)

/-- The inverse of ShiftRows. -/
def unshiftRows (b : Bytes) : Bytes := (List.range 16).map (fun i => (b[(i + 12 * (i % 4)) % 16]?).getD 0)

/-- The inverse of MixColumns. -/
def unmixColumns (b : Bytes) : Bytes :=
  (List.range 16).map (fun i =>
    let g (k : Nat) : Byte := (b[i / 4 * 4 + (i + k) % 4]?).getD 0
    aesMul (g 0) 14#8 ^^^ aesMul (g 1) 11#8 ^^^ aesMul (g 2) 13#8 ^^^ aesMul (g 3) 9#8)

/-- AES-256 decryption of one block. -/
def aes256Inv (key block : Bytes) : Bytes :=
  match (aesKeys key).reverse with
  | [] => block
  | k14 :: ks =>
    let s := List.zipWith (· ^^^ ·) (padTo 16 block) k14
    ks.zipIdx.foldl (fun s p =>
      let t := List.zipWith (· ^^^ ·) ((unshiftRows s).map sboxInv) p.1
      if p.2 = 13 then t else unmixColumns t) s

/-- The tweak of the next block: a doubling in GF(2^128), the first byte being the lowest. -/
def xtsNext (t : Bytes) : Bytes :=
  let n := ofLe t
  leBytes 16 (if 2 ^ 127 ≤ n then ((2 * n) % 2 ^ 128) ^^^ 0x87 else 2 * n)

/-- Blocks of an XTS data unit under a block operation. -/
def xtsBlocks (op : Bytes → Bytes) (t : Bytes) (fuel : Nat) (b : Bytes) : Bytes :=
  match fuel with
  | 0 => []
  | k + 1 => List.zipWith (· ^^^ ·) (op (List.zipWith (· ^^^ ·) (slice b 0 16) t)) t ++ xtsBlocks op (xtsNext t) k (b.drop 16)

/-- The first tweak of a data unit whose number is `tweak`: the second half of the key encrypts it, least byte first. -/
def xtsTweak (key : Bytes) (tweak : Nat) : Bytes := aes256 (slice key 32 32) (leBytes 16 tweak)

/-- XTS-AES-256 of a data unit of whole blocks, with a key of 64 bytes (R121). -/
def xtsEncrypt (key : Bytes) (tweak : Nat) (b : Bytes) : Bytes :=
  xtsBlocks (aes256 (slice key 0 32)) (xtsTweak key tweak) (b.length / 16) b

def xtsDecrypt (key : Bytes) (tweak : Nat) (b : Bytes) : Bytes :=
  xtsBlocks (aes256Inv (slice key 0 32)) (xtsTweak key tweak) (b.length / 16) b

/-! ## The frame (R118, R119) -/

/-- Data bytes of a granule that are all equal. -/
def allEqual (b : Bytes) : Bool := match b with
  | [] => false
  | x :: t => t.all (· == x)

/-- Bytes of the Zstandard frame of a granule in compressed form: 10 bytes of header and block header, then an RLE block
of 1 byte or a Compressed block (R118, R119). -/
def frameLen (data : Bytes) : Nat := 10 + (if allEqual data then 1 else (Config.zstdBlock data).length)

/-- Stored units of a frame with its header and metadata (R117). -/
def unitsFor (frame info : Nat) : Nat := ceilDiv (64 + frame + info) 64

/-- The largest stored length in units: the reservation of R199. -/
def storedLen (m : Nat) : Nat := ceilDiv (32842 + m) 64

/-- The form of R119: (FORM, FRAME_LEN, STORED_UNITS). -/
def storedForm (data : Bytes) (info minSaving : Nat) : Nat × Nat × Nat :=
  let c := unitsFor (frameLen data) info
  let s := storedLen info
  if c + minSaving ≤ s then (0, frameLen data, c) else (1, 32778, s)

/-- Magic number and frame header of R118: Single_Segment_Flag, a 2-byte content size of 32,512, no checksum. -/
def granuleHead : Bytes := leBytes 4 0xFD2FB528 ++ leBytes 1 0x60 ++ leBytes 2 32512

/-- The header of the one block: Last_Block set, its type and its size. -/
def blockHead (ty size : Nat) : Bytes := leBytes 3 (1 + 2 * ty + 8 * size)

/-- The frame of a granule in a form: a Raw block, an RLE block or a Compressed block (R118, R119). -/
def frameBytes (form : Nat) (data : Bytes) : Bytes :=
  granuleHead ++ (
    if form = 1 then blockHead 0 data.length ++ data
    else if allEqual data then blockHead 1 data.length ++ data.take 1
    else blockHead 2 (Config.zstdBlock data).length ++ Config.zstdBlock data)

/-! ## The stored granule (R117) -/

/-- XXH64 over the data bytes and the metadata bytes (R120). -/
def granuleCheck (data info : Bytes) : Nat := xxh64 (data ++ info)

/-- Bytes 0x00 to 0x1B of the header, which HDR_CRC covers. -/
def Stored.head (s : Stored) : Bytes :=
  [0x47#8, 0x52#8, 0x48#8, 0x31#8] ++ fields [(1, 1), (1, s.form), (2, s.keyRef), (8, s.gtag), (8, s.seq), (2, s.units),
    (2, s.info.length)]

/-- The clear part. -/
def Stored.clearPart (s : Stored) : Bytes := s.head ++ leBytes 4 (crc32c s.head)

/-- What the encrypted region holds: the rest of the header, the frame, the metadata and the padding. -/
def Stored.region (s : Stored) : Bytes :=
  padTo (64 * s.units - 32) (fields [(8, s.check), (4, s.frame), (4, 32768)] ++ zeroBytes 16 ++ frameBytes s.form s.data ++
    s.info)

/-- The tweak of R121. -/
def Stored.tweak (s : Stored) : Nat := s.gtag % 2 ^ 64 + 2 ^ 64 * (s.seq % 2 ^ 64)

/-- The bytes on the media: the clear part and the encrypted region. -/
def Stored.bytes (s : Stored) : Bytes := s.clearPart ++ xtsEncrypt s.key s.tweak s.region

/-! ## The checks of a read (R127) -/

/-- Bytes with some that arrive other than they were written. -/
def arrive (b : Bytes) (l : List (Nat × Byte)) : Bytes := l.foldl (fun b p => b.set p.1 p.2) b

/-- What the checks of R127 say of a granule: it passes, its size check fails, or another check fails. -/
inductive Verdict where
  | pass | size | other
  deriving DecidableEq, Repr

/-- The region as a decryption under a key gives it. Under the key it was written with, and with every byte as it was
written, that is what was encrypted (DEDUCED, log 103). -/
def Stored.decrypted (s : Stored) (key : Bytes) (l : List (Nat × Byte)) : Bytes :=
  if l.isEmpty && decide (key = s.key) then s.region
  else xtsDecrypt key s.tweak (arrive (xtsEncrypt s.key s.tweak s.region) l)

/-- The content of the frame in a region: its data bytes, whether its form is that of R118, and whether it gives neither more nor
fewer bytes than it declares (log 104). The frame as it was written decodes to the data that it was made of (DEDUCED, log 103). -/
def Stored.content (s : Stored) (region : Bytes) : Bytes × Bool × Bool :=
  let n := fieldAt region 8 4
  if region = s.region then (s.data, true, true)
  else
    let f := slice region 32 n
    let x := fieldAt f 7 3
    let form := decide (slice f 0 7 = granuleHead) && decide (x % 2 = 1 ∧ x / 2 % 4 ≠ 3) &&
      decide (n = 10 + (if x / 2 % 4 = 1 then 1 else x / 8)) && decide (32 + n ≤ region.length)
    let e := zstdDecode f 32768
    (e.out.reverse, form && decide (e.status = 0 ∨ e.status = 7 ∨ e.status = 8), decide (e.status = 0))

/-- The checks of R127 on a granule that a read was sent to `gtag` for: its verdict, its data and its metadata. Without a key
nothing can be decrypted, and the checks fail. -/
def Stored.verdict (s : Stored) (gtag : Nat) (key : Option Bytes) (clear region : List (Nat × Byte)) :
    Verdict × Bytes × Bytes :=
  let h := arrive s.clearPart clear
  let m := fieldAt h 0x1A 2
  let headOk := decide (slice h 0 5 = slice s.head 0 5) && decide (fieldAt h 0x1C 4 = crc32c (slice h 0 0x1C))
  let tagOk := decide (fieldAt h 8 8 = gtag)
  match key with
  | none => (.other, [], [])
  | some k =>
    let r := s.decrypted k region
    let (data, form, whole) := s.content r
    let info := slice r (32 + fieldAt r 8 4) m
    let sizeOk := whole && decide (data.length = fieldAt r 12 4 ∧ data.length = 32768)
    let sumOk := decide (fieldAt r 0 8 = granuleCheck data info)
    let v : Verdict :=
      if headOk && tagOk && decide (slice r 16 16 = zeroBytes 16) && form then
        (if sizeOk then (if sumOk then .pass else .other) else .size)
      else .other
    (v, data, info)

/-! ## Codewords (R125) -/

/-- Codewords of a byte stream: each data unit of 4,096 bytes with its 512 bytes of parity. -/
def codewordsOf (n : Nat) (b : Bytes) : List Bytes :=
  (List.range n).map (fun i =>
    let u := slice b (4096 * i) 4096
    u ++ padTo 512 (Config.ldpcParity u))

/-! ## The place of a unit in its program unit (R145, R168) -/

/-- Where a 64-byte unit of a program unit lies, on a die with `planes` planes and `pages` page types: plane, page type (0
lower, 1 middle, 2 upper, 3 top), codeword in the page. -/
def unitPlace (pages unit : Nat) : Nat × Nat × Nat := (unit / 256 / pages, unit / 256 % pages, unit / 64 % 4)

end Sys2Proof.Machine
end

