-- ==== Sys2Proof/Machine/MapOps.lean ====
section
/-! DEFINITION. Where data lies and how the map changes: addresses (R143, R144, R168), sets and stripes (R203 to R209),
parity arithmetic (R205), blocks (R189, R190), journal records (R177 to R181), namespaces, headroom (R198). -/

namespace Sys2Proof.Machine

/-! ## Addresses -/

/-- Column of a die, and its group (R203). -/
def colOf (die : Nat) : Nat := 64 * (die / 64 % 8) + die % 64
def groupOf (die : Nat) : Nat := die / 512

/-- The die of a column in a group (R203). -/
def dieOf (col g : Nat) : Nat := 64 * (8 * g + col / 64) + col % 64

/-- The channel of a die (R143). -/
def chanOf (die : Nat) : Nat := die / 64

/-- A physical granule address (R168). -/
def pgaOf (mode die block unit : Nat) : Nat := unit + 2 ^ 22 * block + 2 ^ 38 * die + 2 ^ 50 * mode
def pgaUnit (p : Nat) : Nat := bitsOf p 0 22
def pgaBlock (p : Nat) : Nat := bitsOf p 22 16
def pgaDie (p : Nat) : Nat := bitsOf p 38 12
def pgaMode (p : Nat) : Nat := bitsOf p 50 2

/-- Key of a block in the tables. -/
def blkKey (die block : Nat) : Nat := die * 8160 + block
def pgaKey (p : Nat) : Nat := blkKey (pgaDie p) (pgaBlock p)

/-- A granule tag (R117): NSID − 1 and the granule index. -/
def gtagOf (nsid g : Nat) : Nat := (nsid - 1) + 1024 * g
def gtagNsid (t : Nat) : Nat := t % 1024 + 1
def gtagIndex (t : Nat) : Nat := t / 1024

/-- INDEX of the leaf and of the directory item above a granule (R170, R171). -/
def leafOf (t : Nat) : Nat := t % 1024 + 1024 * (gtagIndex t / 1024)
def dirOf (t : Nat) : Nat := t % 1024 + 1024 * (gtagIndex t / 2 ^ 20)
/-- The directory item above a leaf. -/
def dirOfLeaf (l : Nat) : Nat := l % 1024 + 1024 * (l / 1024 / 1024)

def Dev.die (d : Dev) (n : Nat) : Die := fget d.mch.dies {} n
def Dev.modDie (d : Dev) (n : Nat) (f : Die → Die) : Dev := { d with mch := { d.mch with dies := fmod d.mch.dies {} n f } }
def Dev.chan (d : Dev) (c : Nat) : Chan := fget d.mch.chans {} c
def Dev.modChan (d : Dev) (c : Nat) (f : Chan → Chan) : Dev :=
  { d with mch := { d.mch with chans := fmod d.mch.chans {} c f } }
def Dev.grp (d : Dev) (g : Nat) : Cart := fget d.crt.groups {} g
def Dev.modGrp (d : Dev) (g : Nat) (f : Cart → Cart) : Dev := { d with crt := { d.crt with groups := fmod d.crt.groups {} g f } }
def Dev.blk (d : Dev) (die block : Nat) : Block := fget d.map.blocks {} (blkKey die block)
def Dev.modBlk (d : Dev) (die block : Nat) (f : Block → Block) : Dev :=
  { d with map := { d.map with blocks := fmod d.map.blocks {} (blkKey die block) f } }
def Dev.stored (d : Dev) (pga : Nat) : Option Stored := fget d.mch.stored none pga
def Dev.fillOf (d : Dev) (die block : Nat) : Nat := fget d.mch.fill 0 (blkKey die block)
def Dev.setFill (d : Dev) (die block n : Nat) : Dev :=
  { d with mch := { d.mch with fill := fset d.mch.fill (blkKey die block) n } }

/-! ## Die geometry (R145 to R147, R204) -/

/-- Pages of a program unit on one plane by MODE (R204). -/
def pagesOf (mode : Nat) : Nat := if mode = 0 then 1 else if mode = 1 then 3 else 4

/-- Dies of a column that identification has found. -/
def Dev.columnDies (d : Dev) (col : Nat) : List Die :=
  ((List.range 8).map (fun g => d.die (dieOf col g))).filter (·.known)

/-- Planes and wordlines that the sets of a column use: those that every die of it has, as its block numbers are
(DEDUCED from R209, log 105); the reference die's where none is known. -/
def Dev.planesOf (d : Dev) (col : Nat) : Nat := match d.columnDies col with
  | [] => 4
  | x :: t => t.foldl (fun n y => min n y.geo.planes) x.geo.planes
def Dev.wordlinesOf (d : Dev) (col : Nat) : Nat := match d.columnDies col with
  | [] => 384
  | x :: t => t.foldl (fun n y => min n y.geo.wordlines) x.geo.wordlines

/-- 64-byte data units of a program unit of a column (R168: 64 per codeword, 256 per page). -/
def Dev.puUnits (d : Dev) (col mode : Nat) : Nat := d.planesOf col * pagesOf mode * 256

/-- Units of a whole block's wordlines by MODE. -/
def Dev.blockUnits (d : Dev) (col mode : Nat) : Nat := d.wordlinesOf col * d.puUnits col mode

/-- Where a unit of a block's stream lies in its program unit (R145): plane, page type, codeword. -/
def Dev.placeOf (d : Dev) (col mode unit : Nat) : Nat × Nat × Nat := unitPlace (pagesOf mode) (unit % d.puUnits col mode)

/-! ## Volumes (R143) -/

/-- The volume of a die on its chip enable, and the chip enable on its channel. -/
def Dev.volumeOf (d : Dev) (die : Nat) : Nat := die % 16 / max 1 (d.die die).geo.luns
def ceOf (die : Nat) : Nat := die % 64 / 16

/-- A command to a die. Volume Select goes before the first one to a volume other than the one last selected on the chip
enable (R143). -/
def Dev.tell (d : Dev) (kind : MediaKind) (die block : Nat) : Dev :=
  let v := d.volumeOf die + 1
  let d := if fget (d.chan (chanOf die)).vols 0 (ceOf die) = v then d
    else (d.modChan (chanOf die) (fun c => { c with vols := fset c.vols (ceOf die) v })).emit
      (.mediaCmd .volumeSelect die 0)
  d.emit (.mediaCmd kind die block)

/-- A page read with the offsets of the read references that it is made with (R157). -/
def Dev.tellRead (d : Dev) (kind : MediaKind) (die block : Nat) (offsets : List Int) : Dev :=
  (d.emit (.readOffsets die block offsets)).tell kind die block

/-- ONFI opcodes of a command (R139): first cycle, and the second where it has one. The trainings take
theirs from ONFI 5.1, the other operations theirs from the die profile. -/
def MediaKind.opcodes (k : MediaKind) : List Nat :=
  match k with
  | .reset => [0xFF] | .syncReset => [0xFC] | .dieReset => [0xFA] | .readId => [0x90] | .readParameterPage => [0xEC]
  | .readUniqueId => [0xED] | .setFeatures => [0xEF] | .getFeatures => [0xEE] | .lunSetFeatures => [0xD5]
  | .lunGetFeatures => [0xD4] | .volumeSelect => [0xE1] | .odtConfigure => [0xE2] | .zqLong => [0xF9] | .zqShort => [0xD9]
  | .readStatus => [0x70] | .readStatusEnhanced => [0x78] | .read => [0x00, 0x30] | .changeColumn => [0x06, 0xE0]
  | .pslcProgram => [0x80, 0x10] | .erase => [0x60, 0xD0]
  | .readDqTraining | .writeDqTraining | .program | .readRetry | .readSoft | .suspend | .resume => []

/-- ONFI opcodes of the command that every plane of a multi-plane operation but the last takes (R139). -/
def MediaKind.multiPlane (k : MediaKind) : List Nat :=
  match k with
  | .read => [0x00, 0x32]
  | .pslcProgram => [0x80, 0x11]
  | .erase => [0x60, 0xD1]
  | k => k.opcodes

/-! ## Missing members (R210) and parity places (R205) -/

def Dev.dieAlive (d : Dev) (n : Nat) : Bool := decide ((d.unit (uid 4 n)).state = .alive)

/-- A group that is quiesced, absent or retired is missing. -/
def Dev.groupMissing (d : Dev) (g : Nat) : Bool :=
  decide ((d.unit (uid 5 g)).state ∈ [UState.quiesced, .absent, .retired])

/-- A member is missing (R210). -/
def Dev.missing (d : Dev) (col b g : Nat) : Bool :=
  d.groupMissing g || (d.blk (dieOf col g) b).needs || !d.dieAlive (dieOf col g)

def tolerance (geom : Nat) : Nat := if geom = 0 then 1 else 2

/-- The next group from `p` on, ascending modulo 8, that is not void. -/
def nextGroup (voids : List Nat) (p : Nat) : Nat :=
  match ((List.range 8).map (fun i => (p + i) % 8)).find? (fun g => decide (g ∉ voids)) with
  | some g => g
  | none => p

/-- The parity groups of stripe (K, b, u): P, and Q in 6+2 (R205). -/
def parityGroups (geom b u : Nat) (voids : List Nat) : List Nat :=
  let p := nextGroup voids ((b + u) % 8)
  if geom = 0 then [p] else [p, nextGroup (p :: voids) ((p + 1) % 8)]

/-- The data groups, in ascending group order. -/
def dataGroups (geom b u : Nat) (voids : List Nat) : List Nat :=
  (List.range 8).filter (fun g => decide (g ∉ parityGroups geom b u voids ∧ g ∉ voids))

/-- Program units of a block that are data members, in stream order, of `n` wordlines (R204). -/
def dataPus (n geom b g : Nat) (voids : List Nat) : List Nat :=
  (List.range n).filter (fun u => decide (g ∉ parityGroups geom b u voids))

/-- The void groups of a set in use: FREE blocks where others are OPEN or FULL (R206). -/
def Dev.voidsOf (d : Dev) (col b : Nat) : List Nat := (List.range 8).filter (fun g => decide ((d.blk (dieOf col g) b).state = 0))

/-- Geometry of a set in use. -/
def Dev.geomOf (d : Dev) (col b : Nat) : Nat :=
  match ((List.range 8).map (fun g => d.blk (dieOf col g) b)).find? (fun k => decide (k.state ≠ 0)) with
  | some k => k.geom
  | none => 0

/-- Program units of a block that are data members, in stream order. -/
def Dev.streamPus (d : Dev) (col block grp : Nat) : List Nat :=
  dataPus (d.wordlinesOf col) (d.geomOf col block) block grp (d.voidsOf col block)

/-- The program unit of a block that holds a 64-byte unit of its stream. -/
def Dev.puOf (d : Dev) (die block mode unit : Nat) : Nat :=
  let col := colOf die
  ((d.streamPus col block (groupOf die))[unit / d.puUnits col mode]?).getD 0

/-- Units that a block's stream holds in all. -/
def Dev.streamUnits (d : Dev) (die block mode : Nat) : Nat :=
  (d.streamPus (colOf die) block (groupOf die)).length * d.puUnits (colOf die) mode

/-- The program units that a stored granule touches. -/
def Dev.pusOf (d : Dev) (pga units : Nat) : List Nat :=
  let m := pgaMode pga
  let n := d.puUnits (colOf (pgaDie pga)) m
  let i := pgaUnit pga / n
  let j := (pgaUnit pga + units - 1) / n
  (List.range (j + 1 - i)).map (fun k => d.puOf (pgaDie pga) (pgaBlock pga) m ((i + k) * n))

/-! ## Parity over data bytes (R205, R211) -/

/-- Multiplication by 2 in GF(2^8) with the polynomial 0x11D. -/
def gfDouble (x : Byte) : Byte := if x.msb then (x <<< 1) ^^^ 0x1D#8 else x <<< 1

/-- Product in GF(2^8). -/
def gfMul (x y : Byte) : Byte :=
  (List.range 8).foldl (fun acc i => if y.getLsbD i then acc ^^^ iter i gfDouble x else acc) 0

/-- 2 to the power `i`. -/
def gfPow2 (i : Nat) : Byte := iter i gfDouble 1

/-- The inverse of a non-zero element: its power 254. -/
def gfInv (x : Byte) : Byte := iter 253 (gfMul x) x

/-- P over the data members, at one byte position. -/
def parityP (l : List Byte) : Byte := l.foldl (· ^^^ ·) 0

/-- Q: the sum of 2^i × D_i, at one byte position. -/
def parityQ (l : List Byte) : Byte := (l.zipIdx.map (fun p => gfMul (gfPow2 p.2) p.1)).foldl (· ^^^ ·) 0

/-- One lost data byte from P and the others. -/
def recoverP (p : Byte) (others : List Byte) : Byte := others.foldl (· ^^^ ·) p

/-- One lost data byte, number `i`, from Q and the others with their numbers. -/
def recoverQ (q : Byte) (i : Nat) (others : List (Byte × Nat)) : Byte :=
  gfMul (gfInv (gfPow2 i)) ((others.map (fun p => gfMul (gfPow2 p.2) p.1)).foldl (· ^^^ ·) q)

/-- Two lost data bytes, numbers `i` and `j`, from P and Q and the others with their numbers. -/
def recover2 (p q : Byte) (i j : Nat) (others : List (Byte × Nat)) : Byte × Byte :=
  let a := (others.map (·.1)).foldl (· ^^^ ·) p
  let b := (others.map (fun x => gfMul (gfPow2 x.2) x.1)).foldl (· ^^^ ·) q
  let di := gfMul (gfInv (gfPow2 i ^^^ gfPow2 j)) (b ^^^ gfMul (gfPow2 j) a)
  (di, a ^^^ di)

/-! ## Journal records (R177 to R180) -/

/-- Slots of the ring, slots of a page. -/
def ringSlots : Nat := 458752
def pageSlots : Nat := 64

/-- Records in flight: written and not yet durable. -/
def Jrn.inFlight (j : Jrn) : Nat := (j.ring.filter (fun r => !r.durable)).length

/-- Whether the next record can be written now: at most 16 in flight, and a page for its slot. The first record after a
recovery is its RECOVERY record (R180), so that others wait until host I/O is admitted. -/
def Dev.canWriteRecord (d : Dev) : Bool :=
  d.nvm.ready && decide (d.jrn.inFlight < 16) && (decide (d.jrn.slot % pageSlots ≠ 0) || d.canIssue 7 0 1)

/-- Writes a record with the next SEQ (JOURNAL_RECORD_WRITE). -/
def Dev.writeRecord (d : Dev) (r : JRec) : Dev :=
  let d := if d.jrn.slot % pageSlots = 0 then d.issue 7 0 1 else d
  { d with jrn := { d.jrn with
    ring := d.jrn.ring ++ [{ r with seq := d.jrn.next, slot := d.jrn.slot, durable := false }]
    next := d.jrn.next + 1, slot := (d.jrn.slot + 1) % ringSlots } }

/-- Issues a record: written at once, or in order after those that wait (R181). -/
def Dev.record (d : Dev) (ty a b c e : Nat) (owner : Option CmdRef := none) (wid : Option Nat := none)
    (prev : Nat := 0) : Dev :=
  let r : JRec := { ty := ty, a := a, b := b, c := c, d := e, owner := owner, wid := wid, prev := prev }
  if d.jrn.waiting.isEmpty && d.canWriteRecord then d.writeRecord r
  else
    let noPage := decide (d.jrn.slot % pageSlots = 0) && !d.canIssue 7 0 1
    { d with jrn := { d.jrn with waiting := d.jrn.waiting ++ [r], stalled := d.jrn.stalled || noPage } }

/-- Writes waiting records while they can be written. -/
def Dev.pumpRecords (d : Dev) (n : Nat) : Dev :=
  match n with
  | 0 => d
  | k + 1 =>
    match d.jrn.waiting with
    | r :: t => if d.canWriteRecord then ({ d with jrn := { d.jrn with waiting := t } }.writeRecord r).pumpRecords k else d
    | [] => d

/-- A granule entry as the 64 bits of R169. -/
def entryWord (e : Option GEntry) : Nat :=
  match e with
  | some e => e.pga + 2 ^ 52 * e.units + 2 ^ 62
  | none => 0

/-- The entry that a word stands for. -/
def entryOf (w : Nat) : Option GEntry := if bitsOf w 62 2 = 1 then some ⟨bitsOf w 0 52, bitsOf w 52 10⟩ else none

/-- A block changes state with its record (R190, R179). -/
def Dev.blockState (d : Dev) (die block st reason : Nat) : Dev :=
  let k := d.blk die block
  (d.modBlk die block (fun k => { k with state := st })).record 3 (pgaOf k.mode die block 0) st k.pe reason none none k.state

/-! ## Blocks -/

/-- Free data blocks, and data blocks, as pool 6 counts them. -/
def Dev.freeBlocks (d : Dev) : Nat := (d.pool 6).capacity - (d.pool 6).held
def Dev.freeAbove (d : Dev) (bp : Nat) : Bool := decide ((d.pool 6).capacity * bp < d.freeBlocks * 10000)
def Dev.freeBelow (d : Dev) (bp : Nat) : Bool := decide (d.freeBlocks * 10000 < (d.pool 6).capacity * bp)

/-- Blocks that are not retired, spares included: those of the dies known, whose profiles are TLC or QLC (R196). -/
def Dev.nonRetired (d : Dev) : Nat :=
  ((d.mch.dies.filter (·.2.known)).map (fun p => p.2.geo.blocks)).sum -
    (d.map.blocks.filter (fun p => decide (p.2.state = 4))).length

/-- pSLC blocks held, and the applied size in blocks (R196). -/
def Dev.pslcHeld (d : Dev) : Nat := (d.pool 5).held
def Dev.pslcSize (d : Dev) : Nat := d.nonRetired * d.map.sizeBp / 10000

/-- Whether `n` pSLC blocks may be issued: the last one while the free blocks still exceed GC_START_BP and the blocks held lie
below the applied size (R123, R196). -/
def Dev.pslcFreeFor (d : Dev) (n : Nat) : Bool :=
  d.canIssue 5 0 n && decide ((d.pool 6).capacity * d.gcStartBp < (d.freeBlocks - (n - 1)) * 10000) &&
    decide (d.pslcHeld + n ≤ d.pslcSize)

/-- Whether a pSLC block may be issued (R123, R196). -/
def Dev.pslcFree (d : Dev) : Bool := d.pslcFreeFor 1

/-- Groups that are missing. -/
def Dev.missingGroups (d : Dev) : List Nat := (List.range 8).filter d.groupMissing

/-- Geometry for new sets (R216). -/
def Dev.newGeom (d : Dev) : Nat := d.tf 5 0x27 1

/-- Whether any set can open (R213). -/
def Dev.setsCanOpen (d : Dev) : Bool := decide (d.missingGroups.length ≤ tolerance d.newGeom)

/-- The groups that would be void in a set opened now. -/
def Dev.voidsNow (d : Dev) (col : Nat) : List Nat :=
  (List.range 8).filter (fun g => d.groupMissing g || !d.dieAlive (dieOf col g))

/-- Whether the handling of R220 has passed a block of a die. -/
def Die.reached (x : Die) (b : Nat) : Bool := match x.fresh with
  | some p => decide (b < p)
  | none => true

/-- Whether a set is stranded (R209, R228). -/
def Dev.isStranded (d : Dev) (col b : Nat) : Bool := decide ((col, b) ∈ d.par.strandedSets ∨ col ∈ d.par.strandedCols)

/-- Whether a set can be opened (R209): its blocks outside void groups must be FREE, and no die of its column retired. -/
def Dev.canOpen (d : Dev) (col b : Nat) : Bool :=
  let v := d.voidsNow col
  decide (v.length ≤ tolerance d.newGeom) && !d.isStranded col b && (List.range 8).all (fun g =>
    decide ((d.unit (uid 4 (dieOf col g))).state ≠ .retired) && (
    decide ((d.blk (dieOf col g) b).state ≠ 4 ∧ b < (d.die (dieOf col g)).geo.blocks ∧
      b ∉ (d.die (dieOf col g)).spares) && (d.die (dieOf col g)).reached b &&
      (decide (g ∈ v) || decide ((d.blk (dieOf col g) b).state = 0))))

/-- The open block that a MODE, a USE and the Outrider's order name (R148): 0 host pSLC, 1 host QLC, 2 moves, 3 refresh,
4 map, 5 image. -/
def openRole (mode use : Nat) (refresh : Bool) : Nat :=
  if use = 0 then (if mode = 0 then 0 else 1) else if use = 1 then (if refresh then 3 else 2) else use + 2

/-- Whether a die of the column has an open block of a role: it is closed before another opens (R148). -/
def Dev.roleTaken (d : Dev) (col role : Nat) : Bool :=
  d.map.blocks.any (fun p => decide (p.2.state = 1 ∧ colOf (p.1 / 8160) = col ∧ openRole p.2.mode p.2.use p.2.refresh = role))

/-- FREE blocks of a die that can hold data. -/
def Dev.freeOnDie (d : Dev) (n : Nat) : Nat :=
  let x := d.die n
  x.geo.blocks - x.spares.length -
    (d.map.blocks.filter (fun p => decide (p.1 / 8160 = n ∧ p.2.state ≠ 0 ∧ p.1 % 8160 ∉ x.spares))).length

/-- The groups whose blocks a set opened now would have. -/
def Dev.solidNow (d : Dev) (col : Nat) : List Nat := (List.range 8).filter (fun g => decide (g ∉ d.voidsNow col))

/-- Whether set (K, b) can be opened with a MODE and a USE now: its pSLC blocks are issued together (R123, R196), and host
data leaves RESERVE_PER_DIE blocks of each die (R192). -/
def Dev.canOpenFor (d : Dev) (col b mode use : Nat) (refresh : Bool) : Bool :=
  d.canOpen col b && !d.roleTaken col (openRole mode use refresh) &&
    (decide (mode ≠ 0 ∨ 2 ≤ use) || d.pslcFreeFor (d.solidNow col).length) &&
    (decide (use ≠ 0) || (d.solidNow col).all (fun g => decide (d.reservePerDie < d.freeOnDie (dieOf col g))))

/-- Opens a set with a MODE and a USE: BLOCK_STATE records, and units of pools 5 and 6. -/
def Dev.openSet (d : Dev) (col b mode use : Nat) (refresh : Bool) : Dev :=
  let v := d.voidsNow col
  let geom := d.newGeom
  d.forEach ((List.range 8).filter (fun g => decide (g ∉ v))) (fun d g =>
    let die := dieOf col g
    let d : Dev := { d with mch := { d.mch with given := fset d.mch.given (blkKey die b) 0 } }
    let d := d.modBlk die b (fun k => { k with
      mode := mode, use := use, refresh := refresh, geom := geom, valid := 0, reads := 0, closedAt := 0 })
    let d := ((d.setFill die b 0).blockState die b 1 0).issue 6 0 1
    if mode = 0 ∧ use ≤ 1 then d.issue 5 0 1 else d)

/-- Whether a block is open for a MODE, a USE and the Outrider's order. -/
def Dev.isOpenFor (d : Dev) (die b mode use : Nat) (refresh : Bool) : Bool :=
  let k := d.blk die b
  decide (k.state = 1 ∧ k.mode = mode ∧ k.use = use ∧ k.refresh = refresh)

/-- The pools let go of a block that becomes FREE or RETIRED. -/
def Dev.releaseBlock (d : Dev) (k : Block) : Dev :=
  let d := d.giveBack 6 0 1
  if k.mode = 0 ∧ k.use ≤ 1 then d.giveBack 5 0 1 else d

/-- ERASE_QUEUED: a FULL block without valid units (R190). The erase itself is queued when the record is durable. -/
def Dev.eraseQueued (d : Dev) (die block reason : Nat) : Dev := d.blockState die block 3 reason

/-- An OPEN block goes to FULL with a block reason, behind those closed before it (R190, R191). -/
def Dev.closeBlock (d : Dev) (die block reason : Nat) : Dev :=
  let d : Dev := { d with map := { d.map with tick := d.map.tick + 1 } }
  (d.modBlk die block (fun k => { k with closedAt := d.map.tick })).blockState die block 2 reason

/-- The lowest spare block number of a column whose eight blocks are all unretired (R209). -/
def Dev.lowestSpare (d : Dev) (col : Nat) : Option Nat :=
  let dies := (List.range 8).map (dieOf col)
  let l := ((d.columnDies col).map (·.spares)).flatten.filter (fun b => dies.all (fun n => decide ((d.blk n b).state ≠ 4)))
  match l with
  | [] => none
  | b :: t => some (t.foldl min b)

/-- Partners of a retired block that hold no valid unit are retired with it (R209). -/
def Dev.retirePartners (d : Dev) (col b : Nat) (gs : List Nat) : Dev :=
  d.forEach gs (fun d g =>
    let p := d.blk (dieOf col g) b
    if p.state ≠ 4 ∧ p.valid = 0 then
      let d := d.blockState (dieOf col g) b 4 5
      let d := if p.state = 0 then d else d.releaseBlock p
      d.modPool 6 (fun q => { q with capacity := q.capacity - 1 })
    else d)

/-- Retires a block with a block reason (R190); a spare set of its column is released, and the set is stranded
(SET_STRANDED, R209). Partners follow once they hold no valid unit. -/
def Dev.retireBlock (d : Dev) (die block reason : Nat) : Dev :=
  let k := d.blk die block
  if k.state = 4 then d
  else
    let col := colOf die
    let d := d.blockState die block 4 reason
    let d := if k.state = 1 ∨ k.state = 2 ∨ k.state = 3 then d.releaseBlock k else d
    let d := d.modPool 6 (fun q => { q with capacity := q.capacity - 1 })
    let d := d.retirePartners col block ((List.range 8).filter (fun g => decide (dieOf col g ≠ die)))
    if d.isStranded col block then d
    else
      let d := { d with par := { d.par with
        strandedSets := (col, block) :: d.par.strandedSets, stranded := satAdd 32 d.par.stranded 1 } }
      match d.lowestSpare col with
      | none => d
      | some b =>
        let dies := ((List.range 8).map (dieOf col)).filter (fun n => decide (b ∈ (d.die n).spares))
        let d := d.forEach dies (fun d n => d.modDie n (fun x => { x with spares := x.spares.filter (· ≠ b) }))
        let d := { d with par := { d.par with released := (col, b) :: d.par.released } }
        d.modPool 6 (fun q => { q with capacity := q.capacity + dies.length })

/-! ## Namespaces -/

def Dev.ns (d : Dev) (nsid : Nat) : Option Ns := fget d.nvm.nss none nsid
def Dev.setNs (d : Dev) (nsid : Nat) (n : Option Ns) : Dev := { d with nvm := { d.nvm with nss := fset d.nvm.nss nsid n } }
def Dev.modNs (d : Dev) (nsid : Nat) (f : Ns → Ns) : Dev :=
  match d.ns nsid with
  | some n => d.setNs nsid (some (f n))
  | none => d

/-- LBA formats of R74. -/
def lbaSize (lbaf : Nat) : Nat := if lbaf < 3 then 4096 else 16384
def lbaMeta (lbaf : Nat) : Nat := match lbaf % 3 with
  | 0 => 0 | 1 => 8 | _ => 64
def lbasPer (lbaf : Nat) : Nat := 32768 / lbaSize lbaf

/-- Metadata bytes of a granule. -/
def metaLen (lbaf : Nat) : Nat := lbasPer lbaf * lbaMeta lbaf

/-- The entry of a granule; none is UNMAPPED. -/
def Dev.entry (d : Dev) (t : Nat) : Option GEntry := fget d.map.entries none t

/-- Units reserved between stage 2 and the MAP_SET (X of R198). -/
def Dev.reserved (d : Dev) : Nat := (d.wrp.grans.map (fun g => if g.cause = 0 then g.reserve else 0)).sum

/-- Stored units of all namespaces (V of R198). -/
def Dev.mappedUnits (d : Dev) : Nat := (d.nvm.nss.map (fun p => match p.2 with
  | some n => n.mappedUnits
  | none => 0)).sum

/-- Headroom H (R198), from QF as counted at the last boundary. -/
def Dev.headroom (d : Dev) : Int := (d.map.qf : Int) - d.mappedUnits - d.reserved

/-- Alive dies. -/
def Dev.aliveDies (d : Dev) : List Nat :=
  ((d.mnf.units.filter (fun p => decide (p.1 / 2 ^ 24 = 4 ∧ p.2.state = .alive))).map (fun p => p.1 % 2 ^ 24))

/-- Blocks of alive dies that are neither retired nor spare. -/
def Dev.dataBlocks (d : Dev) : Nat :=
  let dies := d.aliveDies
  let all := (dies.map (fun n => (d.die n).geo.blocks - (d.die n).spares.length)).sum
  all - (d.map.blocks.filter (fun p => decide (p.2.state = 4 ∧ p.1 / 8160 ∈ dies ∧
    p.1 % 8160 ∉ (d.die (p.1 / 8160)).spares))).length

/-- Blocks that can hold data on the dies known: those of their profiles, less spare and retired ones (pool 6, R35). -/
def Dev.mediaBlocks (d : Dev) : Nat :=
  let known := d.mch.dies.filter (·.2.known)
  (known.map (fun p => p.2.geo.blocks - p.2.spares.length)).sum -
    (d.map.blocks.filter (fun p => decide (p.2.state = 4 ∧ p.1 % 8160 ∉ (d.die (p.1 / 8160)).spares))).length

/-- The capacities of pools 6 and 5 follow the media and the pSLC size. -/
def Dev.recapMedia (d : Dev) : Dev :=
  let n := d.mediaBlocks
  let size := d.pslcSize
  (d.modPool 6 (fun q => { q with capacity := n })).modPool 5 (fun q => { q with capacity := max size q.held })

/-- QLC data units of a block of a die. -/
def Dev.qlcUnits (d : Dev) (die : Nat) : Nat := d.blockUnits (colOf die) 2

/-- QF of R198 in eighths of a unit, counted from the block table over the alive dies. The PSLC_MIN_BP floor is a share of the
non-retired blocks (R196); its blocks count with the mean size of an alive die's (log 107). -/
def Dev.countQf (d : Dev) : Nat :=
  let dies := d.aliveDies
  let here := d.map.blocks.filter (fun p => decide (p.1 / 8160 ∈ dies ∧ p.1 % 8160 ∉ (d.die (p.1 / 8160)).spares))
  let used := here.filter (fun p => decide (p.2.state ≠ 0))
  let host := used.filter (fun p => decide (p.2.state ≠ 4 ∧ p.2.use ≤ 1))
  let full := if d.newGeom = 0 then 7 else 6
  let all := (dies.map (fun n => d.qlcUnits n * ((d.die n).geo.blocks - (d.die n).spares.length - d.reservePerDie))).sum
  let taken := (used.map (fun p => d.qlcUnits (p.1 / 8160))).sum
  let floor := ceilDiv ((dies.map d.qlcUnits).sum * (d.nonRetired * d.tf 2 0x20 2 / 10000)) (max 1 dies.length)
  let kept := (host.map (fun p => d.qlcUnits (p.1 / 8160) * (if p.2.geom = 1 then 6 else 7))).sum
  ((all - taken - floor) * full + kept) / 8

/-- Whether a namespace is attached to a controller. -/
def Dev.anyAttached (d : Dev) : Bool := d.nvm.nss.any (fun p => match p.2 with
  | some n => !n.attached.isEmpty
  | none => false)

/-- Critical Warning bit set or cleared. A bit that sets is an event of NVMe 2.1 for the controllers whose Asynchronous
Event Configuration names it (log 38). -/
def Dev.warn (d : Dev) (b : Nat) (on : Bool) : Dev :=
  let new := on && decide (b ∉ d.nvm.critical)
  let d := { d with nvm := { d.nvm with critical := setPut d.nvm.critical b on } }
  if new then
    let info := if b = 0 then 2 else if b = 1 then 1 else 0
    d.forEach ((d.fnm.fns.filter (fun p => p.2.ccEn && bit p.2.feat.asyncCfg b)).map (·.1)) (fun d f => d.postAen f 1 info 2)
  else d

/-- A Namespace Attribute Changed notice (NVMe 2.1) to some controllers: the list of each names the namespace, and the event is
posted where its Asynchronous Event Configuration enables it (R75). -/
def Dev.noticeTo (d : Dev) (nsid : Nat) (fixes : List Nat) : Dev :=
  d.forEach fixes (fun d f =>
    let d := d.modFn f (fun x => { x with changedNs := setIns x.changedNs nsid })
    if bit (d.fn f).feat.asyncCfg 8 then d.postAen f 2 0 4 else d)

/-- The notice to every controller that the namespace is attached to. -/
def Dev.nsChanged (d : Dev) (nsid : Nat) : Dev :=
  match d.ns nsid with
  | some n => d.noticeTo nsid n.attached
  | none => d

/-- Temperature Threshold (R75): whether the Composite Temperature in kelvin stands at or above the over threshold of a
controller, or at or below its under threshold. -/
def Fn.tooHotOrCold (f : Fn) (kelvin : Int) : Bool :=
  decide ((f.feat.tempOver : Int) ≤ kelvin) || decide (kelvin ≤ (f.feat.tempUnder : Int))

/-- The Composite Temperature against the thresholds of every controller: one that it newly passes is an event where the
controller's Asynchronous Event Configuration enables it. -/
def Dev.checkTemps (d : Dev) : Dev :=
  d.forEach ((d.fnm.fns.filter (fun p => p.2.ccEn)).map (·.1)) (fun d f =>
    let now := (d.fn f).tooHotOrCold (d.emb.tj + 273)
    let new := now && !(d.fn f).tempPast
    let d := d.modFn f (fun x => { x with tempPast := now })
    if new && bit (d.fn f).feat.asyncCfg 1 then d.postAen f 1 1 2 else d)

/-! ## Map items (R170 to R174, R181) -/

/-- Kinds of items: 0 leaf, 1 directory, 2 block-table chunk. -/
def Dev.item (d : Dev) (kind ix : Nat) : Item :=
  fget (if kind = 0 then d.map.leaves else if kind = 1 then d.map.dirs else d.map.chunkItems) {} ix
def Dev.setItem (d : Dev) (kind ix : Nat) (i : Item) : Dev :=
  { d with map :=
      if kind = 0 then { d.map with leaves := fset d.map.leaves ix i }
      else if kind = 1 then { d.map with dirs := fset d.map.dirs ix i }
      else { d.map with chunkItems := fset d.map.chunkItems ix i } }
def Dev.modItem (d : Dev) (kind ix : Nat) (f : Item → Item) : Dev := d.setItem kind ix (f (d.item kind ix))

/-- The block-table chunk of a block (R189). -/
def chunkOf (key : Nat) : Nat := key / 2040

/-- Extent records of a leaf: runs of its granules that are stored back to back in one block (R172). -/
def Dev.leafRecords (d : Dev) (leaf : Nat) : Nat :=
  let mine := (d.map.entries.filter (fun p => leafOf p.1 = leaf)).filterMap (fun p => p.2.map (fun e => (gtagIndex p.1, e)))
  (mine.foldl (fun (acc : Nat × Nat × Nat) x =>
    (if acc.2 = (x.1, x.2.pga) then acc.1 else acc.1 + 1, x.1 + 1, x.2.pga + x.2.units)) (0, 0, 0)).1

/-- Whether a leaf is written in extent form: the shorter one, and on a tie the extent form (R172). -/
def Dev.extentForm (d : Dev) (leaf : Nat) : Bool := decide (0x840 + 16 * d.leafRecords leaf ≤ 0x2040)

/-- BYTES of an item (R171 to R173, R189). -/
def Dev.itemBytes (d : Dev) (kind ix : Nat) : Nat :=
  if kind = 0 then (if d.extentForm ix then 0x840 + 16 * d.leafRecords ix else 0x2040)
  else if kind = 1 then 0x2040 else 0x4000

/-- Cache chunks that an item occupies (R174). -/
def Dev.itemChunks (d : Dev) (kind ix : Nat) : Nat := ceilDiv (d.itemBytes kind ix) 1024

/-- KIND of an item as it is written, and the kind that a KIND stands for (R171). -/
def Dev.kindCode (d : Dev) (kind ix : Nat) : Nat := if kind = 0 then b2n (d.extentForm ix) else kind + 1
def kindOf (code : Nat) : Nat := if code = 2 then 1 else if code = 3 then 2 else 0

/-- Marks the cache use of an item. -/
def Dev.useItem (d : Dev) (kind ix : Nat) : Dev :=
  let d := { d with map := { d.map with tick := d.map.tick + 1 } }
  d.modItem kind ix (fun i => { i with used := d.map.tick })

/-- Chunks that the map cache holds, three eighths of installed DRAM (R24, R174), and those that items occupy. -/
def Dev.cacheChunks (d : Dev) : Nat := d.blw.dramGiB * 2 ^ 20 * 3 / 8
def Dev.cacheUsed (d : Dev) : Nat :=
  let held (m : FMap Item) : Nat := ((m.filter (fun p => p.2.cached)).map (fun p => p.2.chunks)).sum
  held d.map.leaves + held d.map.dirs + held d.map.chunkItems

/-- The clean item of a map that was used longest ago, among those a test allows. -/
def oldestClean (m : FMap Item) (may : Nat → Bool) : Option (Nat × Item) :=
  (m.filter (fun p => p.2.cached && !p.2.dirty && may p.1)).foldl (fun a p => match a with
    | some q => if p.2.used < q.2.used then some p else some q
    | none => some p) none

/-- Evicts one item: the least recently used clean leaf, else a clean directory item without a cached leaf, other than
the one being used (R174). -/
def Dev.evictOne (d : Dev) (keep : Nat) : Option Dev :=
  let out (kind ix : Nat) : Dev := d.modItem kind ix (fun i => { i with cached := false, chunks := 0 })
  match oldestClean d.map.leaves (fun _ => true) with
  | some (ix, _) => some (out 0 ix)
  | none =>
    (oldestClean d.map.dirs (fun ix => decide (ix ≠ keep) &&
      !d.map.leaves.any (fun p => p.2.cached && decide (dirOfLeaf p.1 = ix)))).map (fun p => out 1 p.1)

/-- Room for `n` chunks in the map cache, with what must be evicted for it; none while only dirty items could go, which
are flushed first (R174). -/
def Dev.makeRoom (d : Dev) (n keep fuel : Nat) : Option Dev :=
  if d.cacheUsed + n ≤ d.cacheChunks then some d
  else match fuel with
    | 0 => none
    | fuel + 1 =>
      match d.evictOne keep with
      | some d => d.makeRoom n keep fuel
      | none => none

/-- Room for a leaf, directory item or chunk, or none. -/
def Dev.roomFor (d : Dev) (n keep : Nat) : Option Dev := d.makeRoom n keep (d.map.leaves.length + d.map.dirs.length)

/-- Room for what a cached item grows by: clean items go for it as far as there are any, and what is left over goes when dirty
items have been flushed (log 108). -/
def Dev.roomOver (d : Dev) (n keep : Nat) : Dev := (d.roomFor n keep).getD d

/-- A record pends for an item at SEQ `seq`. An item that was never written comes to be in the cache; one that is not
cached takes the record when it is loaded (R174, R181). -/
def Dev.dirty (d : Dev) (kind ix seq : Nat) : Dev :=
  let i := d.item kind ix
  let new := !(i.cached || i.there)
  let n := d.itemChunks kind ix
  let d := if new then d.roomOver n (if kind = 0 then dirOfLeaf ix else ix) else d
  d.modItem kind ix (fun i =>
    let i : Item := { i with oldest := if i.dirty then i.oldest else seq, dirty := true }
    if new then { i with cached := true, chunks := n } else i)

/-- Items that lie in a block are flushed to a new page, and an image that lies in it is written elsewhere (R191). -/
def Dev.layAgain (d : Dev) (hit : Nat → Bool) : Dev :=
  let there' (p : Nat × Item) : Bool := p.2.there && hit p.2.ptr
  let d := d.forEach (d.map.leaves.filter there') (fun d p => d.dirty 0 p.1 d.jrn.next)
  let d := d.forEach (d.map.dirs.filter there') (fun d p => d.dirty 1 p.1 d.jrn.next)
  let d := d.forEach (d.map.chunkItems.filter there') (fun d p => d.dirty 2 p.1 d.jrn.next)
  { d with
    map := { d.map with laying := d.map.laying.filter (fun l => !hit l.pga) }
    hrt := { d.hrt with images := d.hrt.images.map (fun p => (p.1, p.2.map (fun i =>
      if hit i.pga then { i with moving := true } else i))) } }

/-- A look-up of a granule's leaf: whether the entry is known now, and the counters of R201. A leaf that does not exist
is known to map nothing. -/
def Dev.lookup (d : Dev) (t : Nat) : Dev × Bool :=
  let l := d.item 0 (leafOf t)
  if l.cached then (({ d with map := { d.map with hits := d.map.hits + 1 } }).useItem 0 (leafOf t), true)
  else if l.there then (d, false)
  else if l.dirty then ((d.dirty 0 (leafOf t) d.jrn.next).useItem 0 (leafOf t), true)
  else (d, true)

/-- The items that a record changes (R181), as (kind, index). -/
def JRec.items (r : JRec) : List (Nat × Nat) :=
  let blkOf (w : Nat) : List (Nat × Nat) := match entryOf w with
    | some e => [(2, chunkOf (pgaKey e.pga))]
    | none => []
  match r.ty with
  | 1 => (0, leafOf r.a) :: (blkOf r.b ++ blkOf r.c)
  | 2 => (0, leafOf r.a) :: r.chunks.map (fun c => (2, c))
  | 9 => r.chunks.map (fun c => (2, c))
  | 3 => [(2, chunkOf (pgaKey r.a))]
  | 4 => if bitsOf r.a 60 4 ≤ 1 then [(1, dirOfLeaf (r.a % 2 ^ 60))] else []
  | _ => []

/-- The SEQ of the newest record applied to an item (R171). -/
def Dev.appliedSeq (d : Dev) (kind ix : Nat) : Nat :=
  (d.jrn.ring.filter (fun r => r.durable && decide ((kind, ix) ∈ r.items))).foldl
    (fun m r => max m r.seq) (d.item kind ix).flushSeq

/-- The oldest record that pends for an item beyond a FLUSH_SEQ. -/
def Dev.oldestBeyond (d : Dev) (kind ix seq : Nat) : Option Nat :=
  (d.jrn.ring.find? (fun r => r.durable && decide ((kind, ix) ∈ r.items ∧ seq < r.seq))).map (·.seq)

/-- The chunks of cached leaves follow what a record changed. -/
def Dev.resizeItems (d : Dev) (r : JRec) : Dev :=
  d.forEach (r.items.filter (fun p => decide (p.1 = 0) && (d.item 0 p.2).cached)) (fun d p =>
    let n := d.itemChunks 0 p.2
    let d := if (d.item 0 p.2).chunks < n then d.roomOver (n - (d.item 0 p.2).chunks) (dirOfLeaf p.2) else d
    d.modItem 0 p.2 (fun i => { i with chunks := n }))

/-- Whether data are still on their way into a block: a granule of the pipeline laid in it, or an item or image laid in it
whose pointer is not durable. Such a block is neither erased nor collected. -/
def Dev.filling (d : Dev) (key : Nat) : Bool :=
  d.wrp.grans.any (fun g => decide (g.pga ≠ 0 ∧ pgaKey g.pga = key)) || d.map.laying.any (fun l => decide (pgaKey l.pga = key)) ||
    (d.jrn.ring.filter (fun r => !r.durable) ++ d.jrn.waiting).any (fun r => decide (r.ty = 4 ∧ pgaKey (r.b % 2 ^ 52) = key))

/-- Whether a record is still needed: an item it changes has not been flushed with a FLUSH_SEQ at or above its SEQ. -/
def Dev.needed (d : Dev) (r : JRec) : Bool :=
  !r.durable || r.items.any (fun p => decide ((d.item p.1 p.2).flushSeq < r.seq))

end Sys2Proof.Machine
end

