-- ==== Sys2Proof/Machine/Items.lean ====
section
/-! DEFINITION. What the map and the journal hold as bytes: map items on the media (R171 to R173, R189), and the contents of
MRAM (R170, R173, R176, R177, R182, R183, R442). -/

namespace Sys2Proof.Machine

/-! ## Map items on the media -/

/-- A pointer to a map item (R173). -/
def Item.pointer (i : Item) : Nat := if i.there then i.ptr % 2 ^ 52 + 2 ^ 63 else 0

/-- Bits 63 to 10 of an INDEX: the leaf, the directory or nothing; and its namespace (R171). -/
def itemTag (ix i : Nat) : Nat := ix % 1024 + 1024 * (1024 * (ix / 1024) + i)

/-- The extents of a leaf in ascending FIRST: FIRST, COUNT, PGA of granule FIRST, and the PGA that would follow (R172). -/
def Dev.extents (d : Dev) (leaf : Nat) : List (Nat × Nat × Nat × Nat) :=
  let mine := (d.map.entries.filter (fun p => leafOf p.1 = leaf)).filterMap (fun p =>
    p.2.map (fun e => (gtagIndex p.1 % 1024, e)))
  (mine.foldl (fun (acc : List (Nat × Nat × Nat × Nat)) x =>
    match acc with
    | (f, n, a, z) :: t =>
      if x.1 = f + n ∧ x.2.pga = z then (f, n + 1, a, z + x.2.units) :: t
      else (x.1, 1, x.2.pga, x.2.pga + x.2.units) :: acc
    | [] => [(x.1, 1, x.2.pga, x.2.pga + x.2.units)]) []).reverse

/-- The body of a leaf in extent form: the UNITS table, then the extent records (R172). -/
def Dev.extentBody (d : Dev) (leaf : Nat) : Bytes :=
  let units (i : Nat) : Nat := match d.entry (itemTag leaf i) with
    | some e => e.units
    | none => 0
  ((List.range 1024).map (fun i => leBytes 2 (units i))).flatten ++
    ((d.extents leaf).map (fun x => leBytes 4 (x.1 + 1024 * x.2.1) ++ zeroBytes 4 ++ leBytes 8 x.2.2.1)).flatten

/-- The body of a leaf in granule form: its entries (R172). -/
def Dev.granuleBody (d : Dev) (leaf : Nat) : Bytes :=
  ((List.range 1024).map (fun i => leBytes 8 (entryWord (d.entry (itemTag leaf i))))).flatten

/-- The body of a directory item: the pointers to its leaves (R173). -/
def Dev.dirBody (d : Dev) (ix : Nat) : Bytes :=
  ((List.range 1024).map (fun i => leBytes 8 (d.item 0 (itemTag ix i)).pointer)).flatten

/-- A block-table entry (R189). -/
def Block.word (k : Block) : Nat :=
  k.state + 8 * k.mode + 32 * k.use + 256 * min k.pe 262143 + 2 ^ 26 * (k.valid % 2 ^ 22)

/-- The body of a block-table chunk (R189). -/
def Dev.chunkBody (d : Dev) (c : Nat) : Bytes :=
  ((List.range 2040).map (fun i => leBytes 8 (fget d.map.blocks {} (2040 * c + i)).word)).flatten

/-- A map item in plain: its header and its body, with a FLUSH_SEQ (R171). -/
def Dev.itemPlain (d : Dev) (kind ix seq : Nat) : Bytes :=
  let code := d.kindCode kind ix
  let body := if code = 0 then d.granuleBody ix else if code = 1 then d.extentBody ix else if code = 2 then d.dirBody ix
    else d.chunkBody ix
  let head (crc : Nat) : Bytes := [0x4D#8, 0x41#8, 0x50#8, 0x31#8] ++ fields [(1, code), (1, 1),
    (2, if code = 1 then d.leafRecords ix else 0), (8, ix), (8, seq), (4, d.itemBytes kind ix), (4, crc)] ++ zeroBytes 32
  head (crc32c (head 0 ++ body)) ++ body

/-- The map key (R171): the one of the last Sanitize (R334), else the one drawn at manufacture. -/
def Dev.mapKey (d : Dev) : Bytes :=
  let k := (fget d.key.internal {} 0).key
  if k = [] then (List.range 64).map Config.mapKey else k

/-- The page of a map item: bytes 0x20 on are encrypted under the map key (R171). -/
def Dev.itemPage (d : Dev) (kind ix seq : Nat) : Bytes :=
  let b := d.itemPlain kind ix seq
  padTo 16384 (b.take 32 ++ xtsEncrypt d.mapKey (ix % 2 ^ 64 + 2 ^ 64 * (seq % 2 ^ 64)) (b.drop 32))

/-! ## The superblock (R182) -/

/-- The index of the current copy: the valid one with the higher GENERATION. -/
def Jrn.current (j : Jrn) : Option Nat :=
  let a := fget j.supers {} 0
  let b := fget j.supers {} 1
  if a.good && (!b.good || decide (b.gen < a.gen)) then some 0 else if b.good then some 1 else none

/-- A superblock is valid (R195). -/
def Jrn.sbOk (j : Jrn) : Bool := j.current.isSome

/-- The current copy. -/
def Jrn.super (j : Jrn) : Super := match j.current with
  | some i => fget j.supers {} i
  | none => {}

/-- The copy written last, and so the one that a checkpoint does not write. -/
def Jrn.last (j : Jrn) : Nat := if (fget j.supers {} 1).gen < (fget j.supers {} 0).gen then 0 else 1

/-- GENERATION written last, as JRN_SB_GENERATION shows it. -/
def Jrn.gen (j : Jrn) : Nat := max (fget j.supers {} 0).gen (fget j.supers {} 1).gen

/-- The first record that recovery may still read: the older HEAD_SEQ of the valid copies. -/
def Jrn.keepFrom (j : Jrn) : Nat :=
  let a := fget j.supers {} 0
  let b := fget j.supers {} 1
  if a.good && b.good then min a.head b.head else j.super.head

/-- A superblock in MRAM. -/
def Super.bytes (s : Super) : Bytes :=
  let b := padTo 0xFFC ([0x4A#8, 0x52#8, 0x4E#8, 0x31#8] ++ fields [(4, 1), (8, s.gen), (8, s.head), (4, s.slot), (4, 0),
    (8, s.next), (8, s.epoch)])
  b ++ leBytes 4 (crc32c b)

/-! ## The rest of MRAM (R176) -/

/-- A journal record in its slot (R177). -/
def JRec.bytes (r : JRec) : Bytes :=
  let b (crc : Nat) : Bytes := fields [(8, r.seq), (1, r.ty), (3, 0), (4, crc), (8, r.a), (8, r.b), (8, r.c), (8, r.d)] ++
    zeroBytes 16
  b (crc32c (b 0))

/-- A namespace table record (R183). -/
def nsBytes (nsid : Nat) (n : Option Ns) : Bytes :=
  let b := padTo 0xFC (match n with
    | some n => fields [(4, nsid), (1, n.lbaf), (1, b2n n.readOnly + 2 * b2n n.kpio + 4 * b2n n.formatPending), (2, 0),
        (8, n.granules), (4, n.rootFirst), (4, n.rootCount), (8, n.counted.1), (8, n.counted.2), (8, n.countSeq), (8, n.nsze)]
    | none => [])
  b ++ leBytes 4 (crc32c b)

/-- The namespace and the directory that entry `i` of the map root belongs to (R170). -/
def Dev.rootOwner (d : Dev) (i : Nat) : Option (Nat × Nat) :=
  d.nvm.nss.findSome? (fun p => p.2.bind (fun n =>
    if n.rootFirst ≤ i ∧ i < n.rootFirst + n.rootCount then some (p.1, i - n.rootFirst) else none))

/-- Entry `i` of the map root: the pointer to the directory item that it stands for (R173). -/
def Dev.rootEntry (d : Dev) (i : Nat) : Nat :=
  match d.rootOwner i with
  | some (nsid, k) => (d.item 1 (nsid - 1 + 1024 * k)).pointer
  | none => 0

/-- A Manifest record (R436). -/
def MUnit.bytes (u : MUnit) (id : Nat) : Bytes :=
  let b := fields [(4, id), (1, u.state.code), (1, u.reason.code), (2, b2n u.quiescing), (8, u.generation), (8, u.epoch),
    (8, u.timeMs), (8, u.detail), (1, u.prevState.code), (1, u.prevReason.code), (2, 0), (4, u.transitions)] ++ zeroBytes 12
  b ++ leBytes 4 (crc32c b)

/-- A tracked offset set as its 16 bytes: signed, one per reference (R157, R176). -/
def setBytes (l : List Int) : Bytes := padTo 16 (l.map (fun x => BitVec.ofInt 8 x))

/-- The structure of MRAM that holds an offset: where it begins, and its bytes; none where no rule lays one down. -/
def Dev.mramAt (d : Dev) (off : Nat) : Option (Nat × Bytes) :=
  if off < 0x2000 then some (off / 0x1000 * 0x1000, (fget d.jrn.supers {} (off / 0x1000)).bytes)
  else if 0x101000 ≤ off ∧ off < 0x101000 + 342528 then
    let i := (off - 0x101000) / 64
    some (0x101000 + 64 * i, match unitIds[i]? with
      | some id => (fget d.mnf.copy (unitInit id) id).bytes id
      | none => [])
  else if 0x160000 ≤ off ∧ off < 0x1A0000 then
    let z := (off - 0x160000) / 4
    some (0x160000 + 4 * z, leBytes 4 (fget d.outr.saved 0 z))
  else if 0x200000 ≤ off ∧ off < 0x240000 then
    let i := (off - 0x200000) / 256
    some (0x200000 + 256 * i, nsBytes (i + 1) (d.ns (i + 1)))
  else if 0x240000 ≤ off ∧ off < 0x2C0000 then
    let i := (off - 0x240000) / 8
    some (0x240000 + 8 * i, leBytes 8 (d.rootEntry i))
  else if 0x2C0000 ≤ off ∧ off < 0x2E0000 then
    let i := (off - 0x2C0000) / 8
    some (0x2C0000 + 8 * i, leBytes 8 (d.item 2 i).pointer)
  else if 0x2E0000 ≤ off ∧ off < 0x310000 then
    let i := (off - 0x2E0000) / 16
    some (0x2E0000 + 16 * i, setBytes (fget (d.die (i / 3)).saved [] (i % 3)))
  else if 0x400000 ≤ off then
    let i := (off - 0x400000) / 64
    (d.jrn.ring.find? (fun r => r.durable && decide (r.slot = i))).map (fun r => (0x400000 + 64 * i, r.bytes))
  else none

/-- Bytes of MRAM from an offset on: the structures of R176, and elsewhere what firmware has written. -/
def Dev.mramRead (d : Dev) (off len : Nat) : Bytes :=
  match d.mramAt off with
  | some (base, b) => slice b (off - base) len
  | none => mread d.fab.mram off len

end Sys2Proof.Machine
end

