-- ==== Sys2Proof/Machine/WritePath.lean ====
section
/-! DEFINITION. The write pipeline (R112 to R125, R131, R132, R184 to R188): granules from stage 2 to the durable map
change, the operations of the dies that program them, and what a durable journal record brings about. -/

namespace Sys2Proof.Machine

/-! ## Granules in the pipeline -/

def Dev.wg (d : Dev) (id : Nat) : Option WGran := d.wrp.grans.find? (fun g => g.id = id)
def Dev.setGrans (d : Dev) (l : List WGran) : Dev := { d with wrp := { d.wrp with grans := l } }
def Dev.modWg (d : Dev) (id : Nat) (f : WGran → WGran) : Dev := d.setGrans (mapWhere d.wrp.grans (fun g => g.id = id) f)
def Dev.dropWg (d : Dev) (id : Nat) : Dev := d.setGrans (d.wrp.grans.filter (fun g => g.id ≠ id))

/-- A granule becomes ready for a stage: it goes behind those that became ready before it (R114). -/
def Dev.wgReady (d : Dev) (id : Nat) (st : WStage) : Dev :=
  match d.wg id with
  | some g => d.setGrans (d.wrp.grans.filter (fun g => g.id ≠ id) ++ [{ g with stage := st }])
  | none => d

/-- One more part of a command has ended; with the last one the command completes with its first failure. -/
def Dev.partDone (d : Dev) (r : CmdRef) (st : Status) : Dev :=
  match d.cmd r with
  | none => d
  | some c =>
    let s := if c.status = .success then st else c.status
    if c.waits ≤ 1 then d.complete r s c.dw0
    else d.modCmd r (fun c => { c with waits := c.waits - 1, status := s })

/-- The granule as it stands on the media once it is programmed (R117). -/
def WGran.stored (g : WGran) : Stored :=
  { gtag := g.gtag, seq := g.seq, keyRef := g.keyRef, keySerial := g.keySerial, key := g.key, check := g.check
    units := g.units, form := g.form, frame := g.frame, data := g.data, info := g.info }

/-! ## Granules of the read pipeline -/

/-- The granule of the read pipeline with a number. -/
def Dev.rg (d : Dev) (id : Nat) : Option RGran := d.rdp.grans.find? (fun g => g.id = id)
def Dev.setReads (d : Dev) (l : List RGran) : Dev := { d with rdp := { d.rdp with grans := l } }
def Dev.modRg (d : Dev) (id : Nat) (f : RGran → RGran) : Dev := d.setReads (mapWhere d.rdp.grans (fun g => g.id = id) f)
def Dev.dropRg (d : Dev) (id : Nat) : Dev := d.setReads (d.rdp.grans.filter (fun g => g.id ≠ id))
def Dev.rgReady (d : Dev) (id : Nat) (st : RStage) : Dev :=
  match d.rg id with
  | some g => d.setReads (d.rdp.grans.filter (fun g => g.id ≠ id) ++ [{ g with stage := st }])
  | none => d

/-- Whether a use of the read pipeline takes a pool 3 credit: host reads and merges (R131). -/
def RDest.takesCredit (x : RDest) : Bool := match x with
  | .host | .compare | .verify | .merge _ => true
  | _ => false

/-- Whether a granule needs its die now: for its first read, or for a read of step 2 or 3 (R126). -/
def RGran.wantsDie (g : RGran) : Bool :=
  decide (g.stage = .media) ||
    (decide (g.stage = .decode) && g.cws.any (fun c => !c.ok && decide (c.step = 2 ∨ c.step = 3)))

/-- Whether a host or merge read waits for another block than `b` of a die (R151). -/
def Dev.readWaits (d : Dev) (die b : Nat) : Bool :=
  d.rdp.grans.any (fun g => g.wantsDie && g.dest.takesCredit &&
    decide (pgaDie g.entry.pga = die ∧ pgaBlock g.entry.pga ≠ b))

/-- Whether a page of a block can be read from a die now: the die runs nothing, or its operation is suspended and ready, the
read is of another block, and SUSP_MAX_READS have not run (R148, R152). -/
def Dev.dieReads (d : Dev) (die b : Nat) : Bool :=
  match (d.die die).op with
  | none => true
  | some o => decide (o.suspended = 2 ∧ o.block ≠ b ∧ o.reads < d.mch.suspMaxReadsA)

/-! ## What a program unit carries (R125, R168, R205) -/

/-- Bytes `v` at position `pos` of a stream, laid into the part of it that begins at `lo`. -/
def layOver (acc : Bytes) (lo pos : Nat) (v : Bytes) : Bytes :=
  if pos + v.length ≤ lo ∨ lo + acc.length ≤ pos then acc
  else ((if pos < lo then overlay acc 0 (v.drop (lo - pos)) else overlay acc (pos - lo) v).take acc.length)

/-- The data bytes of a data member: the stored granules and the pages of map items laid in it, zeros elsewhere (R168,
R206). -/
def Dev.dataBytes (d : Dev) (die b u mode : Nat) : Bytes :=
  let n := 64 * d.puUnits (colOf die) mode
  let i := ((d.streamPus (colOf die) b (groupOf die)).filter (fun x => decide (x < u))).length
  let mine (a : Nat) : Bool := decide (pgaDie a = die ∧ pgaBlock a = b)
  let granules := d.mch.stored.filterMap (fun p => if mine p.1 then p.2.map (fun s => (p.1, s.bytes)) else none)
  let pages := d.mch.pages.filter (fun p => mine p.1)
  (granules ++ pages).foldl (fun acc p => layOver acc (i * n) (64 * pgaUnit p.1) p.2) (zeroBytes n)

/-- The data bytes of parity member `k` of a stripe: 0 P, 1 Q, over its data members in group order (R205). -/
def Dev.parityBytes (d : Dev) (s : Stripe) (k : Nat) : Bytes :=
  let l := (dataGroups s.geom s.b s.u s.voids).map (fun g => d.dataBytes (dieOf s.k g) s.b s.u s.mode)
  (List.range (64 * d.puUnits s.k s.mode)).map (fun i =>
    let at' := l.map (fun x => (x[i]?).getD 0)
    if k = 0 then parityP at' else parityQ at')

/-- Key of a program unit. -/
def puKey (die b u : Nat) : Nat := blkKey die b * 65536 + u

def Stripe.is (s : Stripe) (col b u : Nat) : Bool := decide (s.k = col ∧ s.b = b ∧ s.u = u)
def Dev.stripe (d : Dev) (col b u : Nat) : Option Stripe := d.par.stripes.find? (fun s => s.is col b u)
def Dev.modStripe (d : Dev) (col b u : Nat) (f : Stripe → Stripe) : Dev :=
  { d with par := { d.par with stripes := mapWhere d.par.stripes (fun s => s.is col b u) f } }

/-- Stage 6: the codewords of a program unit go to the die, those of a parity member with what its accumulator holds (R112,
R125, R205). -/
def Dev.encode (d : Dev) (die b u : Nat) : Dev :=
  match d.stripe (colOf die) b u with
  | none => d
  | some s =>
    let ps := parityGroups s.geom b u s.voids
    let parity := decide (groupOf die ∈ ps)
    let bytes := if parity then d.parityBytes s (if ps.head? = some (groupOf die) then 0 else 1) else d.dataBytes die b u s.mode
    let d := if parity then { d with mch := { d.mch with parity := fset d.mch.parity (puKey die b u) bytes } } else d
    d.emit (.codewords die b u (codewordsOf (d.puUnits s.k s.mode / 64) bytes))

/-! ## Operations of the dies (R148) -/

/-- Tags of pool 13 that a channel holds: at most 32 (R148). -/
def Dev.chanTags (d : Dev) (c : Nat) : Nat :=
  ((d.mch.dies.filter (fun p => chanOf p.1 = c)).map (fun p =>
    (p.2.queue.filter (·.tag)).length + (if p.2.op.isSome then 1 else 0))).sum +
  (d.rdp.grans.filter (fun g => g.tag ∧ chanOf (pgaDie g.entry.pga) = c)).length

def Dev.tagFree (d : Dev) (c : Nat) : Bool := d.canIssue 13 0 1 && decide (d.chanTags c < 32)

/-- Die time that an operation is charged, in microseconds: the typical times of the die's profile (R147). -/
def Die.us (x : Die) (k : DieKind) : Nat :=
  match k with
  | .erase => x.geo.usErase
  | .program => x.geo.usProgram
  | .pslcProgram => x.geo.usPslc

/-- The weight of a class in table 0x05 (R216). Patrol samples are reads, which do not wait here, so that
W_PATROL_BURST divides nothing among programs and erases. -/
def Dev.classWeight (d : Dev) (cls : Nat) : Nat := d.tf 5 (0x20 + cls) 1

/-- The oldest operation of a class that waits for a die, if it has its tag. -/
def headOf (q : List DieOp) (cls : Nat) : Option DieOp := (q.find? (fun o => o.cls = cls)).filter (·.tag)

/-- The deficit round robin of R215 among the classes that have work: the operation that starts next, whose turn it is
and what is left to each class. A class at its turn gains its weight in units of 128 µs (log 84). -/
def Dev.pickOp (d : Dev) (x : Die) (q : List DieOp) (turn : Nat) (left : FMap Nat) (fuel : Nat) :
    Option (DieOp × Nat × FMap Nat) :=
  match fuel with
  | 0 => none
  | fuel + 1 =>
    let next := (turn + 1) % 6
    let gain (left : FMap Nat) : FMap Nat := fset left next (fget left 0 next + 128 * d.classWeight next)
    match headOf q turn with
    | none => d.pickOp x q next (gain (fset left turn 0)) fuel
    | some o =>
      if x.us o.kind ≤ fget left 0 turn then some (o, turn, fset left turn (fget left 0 turn - x.us o.kind))
      else d.pickOp x q next (gain left) fuel

/-- A die without an operation starts the next one that waits for it with a tag (R148, R215). Where a read waited as the last
operation ended, that read runs first (R153). -/
def Dev.startNext (d : Dev) (n : Nat) : Dev :=
  let x := d.die n
  if x.op.isSome ∨ (List.range 6).all (fun c => (headOf x.queue c).isNone) then d
  else if x.readNext ∧ d.readWaits n 8160 then d
  else match d.pickOp x x.queue x.turn x.deficit 600 with
    | none => d
    | some (o, turn, left) =>
      let d := d.modDie n (fun x => { x with
        op := some o, queue := x.queue.erase o, turn := turn, deficit := left, readNext := false })
      (if o.kind = .erase then d else d.encode n o.block o.pu).tell (match o.kind with
        | .erase => .erase
        | .program => .program
        | .pslcProgram => .pslcProgram) n o.block

/-- The class of a program in a block: that of its open block (R148, R215). -/
def Dev.programClass (d : Dev) (die b : Nat) : Nat :=
  let k := d.blk die b
  if k.use = 1 then (if k.refresh then 3 else 2) else 0

/-- Queues a program or an erase on a die, with a tag if one is free. An erase on a group or die out of service waits for
its admission (R220), and one that comes up during a sleep entry waits for the wake (log 45). -/
def Dev.queueOp (d : Dev) (n : Nat) (o : DieOp) : Dev :=
  if o.kind = .erase ∧ (d.emb.mode = .entering ∨ d.groupMissing (groupOf n) ∨ d.dieAlive n = false) then d
  else
  let free := d.tagFree (chanOf n)
  let d := if free then d.issue 13 0 1 else d
  (d.modDie n (fun x => { x with queue := x.queue ++ [{ o with tag := free }] })).startNext n

/-- A tag is returned; the oldest untagged operation of the channel's dies takes it, else a read. -/
def Dev.endTag (d : Dev) (c : Nat) : Dev :=
  let d := d.giveBack 13 0 1
  match (d.mch.dies.filter (fun p => chanOf p.1 = c ∧ p.2.queue.any (fun o => !o.tag))).head? with
  | some (n, x) =>
    if d.tagFree c then
      match takeFirst x.queue (fun o => !o.tag) with
      | some (o, _) =>
        let q := x.queue.map (fun y => if y.block = o.block ∧ y.pu = o.pu ∧ y.kind = o.kind then { y with tag := true } else y)
        let got := (q.filter (·.tag)).length - (x.queue.filter (·.tag)).length
        (((d.modDie n (fun x => { x with queue := q })).issue 13 0 got)).startNext n
      | none => d
    else d
  | none =>
    match d.rdp.grans.find? (fun g => decide (g.stage = .media) && !g.tag && decide (chanOf (pgaDie g.entry.pga) = c)) with
    | some g =>
      if d.tagFree c then
        let l := mapWhere d.rdp.grans (fun x => x.id = g.id) (fun x => { x with tag := true })
        { d.issue 13 0 1 with rdp := { d.rdp with grans := l } }
      else d
    | none => d

/-- A read of a die has ended: it is counted in a suspension, and what waits behind it on the die may go on (R152, R153). -/
def Dev.readDone (d : Dev) (die : Nat) : Dev :=
  (d.modDie die (fun x => { x with
    readNext := false, op := x.op.map (fun o => { o with reads := o.reads + 1 }) })).startNext die

/-! ## Stripes (R204 to R208) -/

/-- The stripe identifier of R207. -/
def Stripe.ident (s : Stripe) : Nat := s.k + 2 ^ 9 * s.b + 2 ^ 25 * s.u + 2 ^ 41 * s.mode + 2 ^ 43 * s.geom

/-- Opens a stripe: one unit of pool 14 (R208). -/
def Dev.openStripe (d : Dev) (col b u mode : Nat) : Dev :=
  if (d.stripe col b u).isSome then d
  else
    let v := d.voidsOf col b
    let geom := d.geomOf col b
    let s : Stripe := { k := col, b := b, u := u, mode := mode, geom := geom, voids := v,
                        parityLeft := parityGroups geom b u v }
    { d.issue 14 0 1 with par := { d.par with stripes := s :: d.par.stripes } }

/-- First unit after member `u` in the stream of a block. -/
def Dev.memberEnd (d : Dev) (col b g u mode : Nat) : Nat :=
  (((d.streamPus col b g).filter (fun x => decide (x < u))).length + 1) * d.puUnits col mode

/-- Whether a granule of the pipeline lies in program unit `u` of a block and its data are not with the die yet. -/
def Dev.notCopied (d : Dev) (die b u : Nat) : Bool :=
  d.wrp.grans.any (fun g => decide (g.stage = .qlcCopy ∨ g.stage = .parity) && decide (g.units ≠ 0 ∧ g.pga ≠ 0) &&
    decide (pgaDie g.pga = die ∧ pgaBlock g.pga = b) && decide (u ∈ d.pusOf g.pga g.units))

/-- A FULL block without valid units, into which nothing is on its way, goes to ERASE_QUEUED; in a stranded set it is retired
(R190, R209). -/
def Dev.sweepBlock (d : Dev) (key : Nat) : Dev :=
  let die := key / 8160
  let b := key % 8160
  let k := d.blk die b
  if k.valid ≠ 0 ∨ k.state ≠ 2 ∨ k.needs = true ∨ d.filling key = true ∨
      d.par.stripes.any (fun s => decide (s.k = colOf die ∧ s.b = b)) = true then d
  else if d.isStranded (colOf die) b then
    ((d.blockState die b 4 5).releaseBlock k).modPool 6 (fun q => { q with capacity := q.capacity - 1 })
  else d.eraseQueued die b 0

/-- The same for every FULL block. -/
def Dev.sweepBlocks (d : Dev) : Dev :=
  d.forEach ((d.map.blocks.filter (fun p => decide (p.2.state = 2 ∧ p.2.valid = 0))).map (·.1)) Dev.sweepBlock

/-- The last wordline of an open block is verified: it is FULL (R190). -/
def Dev.lastPu (d : Dev) (die b u : Nat) : Dev :=
  if u + 1 = d.wordlinesOf (colOf die) ∧ (d.blk die b).state = 1 then d.closeBlock die b 0 else d

/-- Program units of a block that its die has been given: the next one follows in wordline order (R148). -/
def Dev.givenOf (d : Dev) (die b : Nat) : Nat := fget d.mch.given 0 (blkKey die b)

/-- A program unit goes to its die, behind those of the block before it. -/
def Dev.giveUnit (d : Dev) (die b u mode endU : Nat) : Dev :=
  let d : Dev := { d with mch := { d.mch with given := fset d.mch.given (blkKey die b) (u + 1) } }
  d.queueOp die { kind := if mode = 0 then .pslcProgram else .program, block := b, pu := u, endUnit := endU
                  cls := d.programClass die b }

/-- Closes a stripe whose data members are all full (R124). -/
def Dev.closeFull (d : Dev) (col b u : Nat) : Dev :=
  d.modStripe col b u (fun s =>
    if (dataGroups s.geom b u s.voids).all (fun g => decide (g ∈ s.filled)) then { s with closed := true } else s)

/-- The next program unit of a block on group `g`, if it can go to its die: a full data member with its data there, or a parity
member of a closed stripe. -/
def Dev.pushUnit (d : Dev) (col b g : Nat) : Option Dev :=
  let die := dieOf col g
  let u := d.givenOf die b
  match d.stripe col b u with
  | none => none
  | some s =>
    if g ∈ s.voids then none
    else if g ∈ parityGroups s.geom b u s.voids then if s.closed then some (d.giveUnit die b u s.mode 0) else none
    else
      let endU := d.memberEnd col b g u s.mode
      if endU ≤ d.fillOf die b ∧ d.notCopied die b u = false then
        some (((d.modStripe col b u (fun s => { s with filled := setIns s.filled g })).closeFull col b u).giveUnit die b u
          s.mode endU)
      else none

/-- Gives the members of a set to their dies as far as they can go. -/
def Dev.pushSet (d : Dev) (col b fuel : Nat) : Dev :=
  match fuel with
  | 0 => d
  | n + 1 =>
    match (List.range 8).findSome? (fun g => d.pushUnit col b g) with
    | some e => e.pushSet col b n
    | none => d

/-- More program units than a set has: 8 blocks of at most 65,536 wordlines. -/
def setUnits : Nat := 524288

/-- The timed close of a stripe: empty data members are filled with padding, and the parity follows (R124). -/
def Dev.padStripe (d : Dev) (col b u : Nat) : Dev :=
  match d.stripe col b u with
  | none => d
  | some t =>
    if t.closed then d
    else
      let groups := (dataGroups t.geom b u t.voids).filter (fun g => decide (g ∉ t.filled))
      let d := d.forEach groups (fun d g =>
        let die := dieOf col g
        let endU := d.memberEnd col b g u t.mode
        let empty := decide (d.fillOf die b + d.puUnits col t.mode ≤ endU)
        let d := if d.fillOf die b < endU then d.setFill die b endU else d
        { d with wrp := { d.wrp with padMembers := d.wrp.padMembers + b2n empty } })
      d.pushSet col b setUnits

/-! ## Placing a granule (stage 5) -/

/-- Open block USE of a granule: host granules 0, moves 1 (R189). One laid again after its first map change was issued stays in
the host's blocks with its command (R214). -/
def WGran.use (g : WGran) : Nat := if g.cause = 0 then 0 else 1

/-- Whether a granule goes to the open block of the refresh (R148). -/
def WGran.refresh (g : WGran) : Bool := decide (g.cause = 3)

/-- MODE in which a die takes a granule: pSLC on the pSLC path, else the die's cell mode. -/
def Dev.modeFor (d : Dev) (die : Nat) (pslc : Bool) : Nat := if pslc then 0 else if (d.die die).cell = 1 then 1 else 2

/-- Whether a granule can be placed in set (K, b) on group g now, opening the set if it is not open. -/
def Dev.canPlace (d : Dev) (g : WGran) (col b grp : Nat) : Bool :=
  let die := dieOf col grp
  let mode := d.modeFor die g.pslc
  let open' := d.isOpenFor die b mode g.use g.refresh
  let d1 := if open' then d else d.openSet col b mode g.use g.refresh
  decide (grp < 8 ∧ col < 512) && (open' || d.canOpenFor col b mode g.use g.refresh) &&
    d1.isOpenFor die b mode g.use g.refresh && decide (d1.fillOf die b + g.units ≤ d1.streamUnits die b mode) &&
    d.canIssue 14 0 ((d1.pusOf (pgaOf mode die b (d1.fillOf die b)) g.units).filter
      (fun u => (d1.stripe col b u).isNone)).length

/-- A granule that its encrypting lane still holds leaves it: the next stage has taken it (R131). -/
def Dev.leaveLane (d : Dev) (id pool : Nat) : Dev :=
  match d.wg id with
  | some g => if g.holds.isSome then (d.giveBack pool 0 1).modWg id (fun g => { g with holds := none }) else d
  | none => d

/-- Places a granule: it takes its address, its stripes open, and full members go to their dies. On the QLC path the
copy into DRAM begins with a unit of pool 4 (R123); without one the granule holds before it. -/
def Dev.place (d : Dev) (id col b grp : Nat) : Dev :=
  match d.wg id with
  | none => d
  | some g =>
    if !d.canPlace g col b grp then d
    else
      let die := dieOf col grp
      let mode := d.modeFor die g.pslc
      let d := if d.isOpenFor die b mode g.use g.refresh then d else d.openSet col b mode g.use g.refresh
      let unit := d.fillOf die b
      let pga := pgaOf mode die b unit
      let us := d.pusOf pga g.units
      let d := (d.setFill die b (unit + g.units)).forEach us (fun d u => d.openStripe col b u mode)
      let d := (d.leaveLane id 12).modWg id (fun g => { g with pga := pga, stage := .program })
      let d := { d with mch := { d.mch with stored := fset d.mch.stored pga (some g.stored) } }
      let d :=
        if g.pslc || g.hasQ then d
        else if d.canIssue 4 0 1 then (d.issue 4 0 1).modWg id (fun g => { g with hasQ := true, stage := .qlcCopy })
        else
          let d := d.modWg id (fun g => { g with stage := .parity })
          { d with wrp := { d.wrp with stalled := d.wrp.stalled || decide (g.cause = 0) } }
      d.pushSet col b setUnits

/-- Codewords that a stored granule touches (R168: 64 units each). -/
def cwCount (pga units : Nat) : Nat := (pgaUnit pga + units - 1) / 64 - pgaUnit pga / 64 + 1

/-- A granule goes to the media, or straight to step 4 of R126 where its member is missing. The first read is made with the
tracked set (R157). -/
def Dev.toMedia (d : Dev) (id : Nat) : Dev :=
  match d.rg id with
  | none => d
  | some g =>
    let die := pgaDie g.entry.pga
    let n := cwCount g.entry.pga g.entry.units
    if d.missing (colOf die) (pgaBlock g.entry.pga) (groupOf die) then
      d.modRg id (fun g => { g with stage := .rebuild, cws := List.replicate n ⟨4, 0, false⟩ })
    else
      let free := d.tagFree (chanOf die)
      let d := if free then d.issue 13 0 1 else d
      let d := d.modRg id (fun g => { g with stage := .media, tag := free, cws := List.replicate n ⟨1, 0, false⟩ })
      (d.modDie die (fun x => { x with reads := x.reads ++ [id] })).tellRead .read die (pgaBlock g.entry.pga)
        (fget (d.die die).offsets [] (pgaMode g.entry.pga))

/-! ## Stage 2 -/

/-- Granules that a write covers: one, or the run that a clearing write unmaps. -/
def WGran.span (g : WGran) : Nat := max 1 g.clearN

/-- Whether two writes cover a granule in common. -/
def WGran.meets (g h : WGran) : Bool :=
  decide (g.gtag % 1024 = h.gtag % 1024 ∧ gtagIndex g.gtag < gtagIndex h.gtag + h.span ∧
    gtagIndex h.gtag < gtagIndex g.gtag + g.span)

/-- Whether a write holds the lock of its granules: from stage 2 until its map change is durable (R116). -/
def WGran.locks (g : WGran) : Bool := decide (g.cause = 0 ∧ g.stage ≠ .locked) && !g.mapped

/-- Whether an earlier write holds the lock of a granule, or waits for it (R116). -/
def Dev.lockedBy (d : Dev) (g : WGran) : Bool :=
  d.wrp.grans.any (fun h => decide (h.id ≠ g.id ∧ h.cause = 0) && h.meets g &&
    (h.locks || decide (h.stage = .locked ∧ h.id < g.id)))

/-- The urgent rule of R191. -/
def Dev.urgentHold (d : Dev) : Bool := d.freeBelow d.gcUrgentBp && decide (d.wrp.movedEpoch ≤ d.wrp.taken)

/-- Whether every LBA of the granule is covered. -/
def WGran.whole (g : WGran) (per : Nat) : Bool := decide (per ≤ g.cover.length)

/-- A merge read begins (R115): a granule in the read pipeline that waits for its pool 3 credit. -/
def Dev.startMerge (d : Dev) (g : WGran) (e : GEntry) : Dev :=
  let id := d.wrp.next
  let d := { d with wrp := { d.wrp with next := id + 1, mergeReads := d.wrp.mergeReads + 1 } }
  let (d, ok) := d.request 3 g.ref.fix 1 (.rgran id)
  let r : RGran := { id := id, ref := g.ref, epoch := g.epoch, gtag := g.gtag, entry := e, keyRef := g.keyRef,
                     key := some (g.keySerial, g.key), dest := .merge g.id, stage := .credit, hasR := ok }
  let d := d.setReads (d.rdp.grans ++ [r])
  if ok then d.toMedia id else d

/-- Whether an open pSLC block for host granules has room for one, whatever its stored length. -/
def Dev.pslcOpen (d : Dev) : Bool :=
  d.map.blocks.any (fun p => decide (p.2.state = 1 ∧ p.2.mode = 0 ∧ p.2.use = 0) &&
    decide (fget d.mch.fill 0 p.1 + 522 ≤ d.streamUnits (p.1 / 8160) (p.1 % 8160) 0))

/-- Whether the pSLC path has a block for a granule's stripe: one of an open set, or those of a set opened now (R123). -/
def Dev.pslcPath (d : Dev) : Bool := d.pslcOpen || d.pslcFreeFor (8 - d.missingGroups.length)

/-- A granule that holds its write credit goes to its merge or to the compression lanes, routed under R123. -/
def Dev.afterCredit (d : Dev) (id : Nat) : Dev :=
  match d.wg id with
  | none => d
  | some g =>
    let per := match d.ns (gtagNsid g.gtag) with
      | some n => lbasPer n.lbaf
      | none => 8
    let pslc := d.wrp.pslcFirstA && d.pslcPath
    let d := d.modWg id (fun g => { g with hasW := true, pslc := pslc })
    let d := { d with wrp := { d.wrp with
      pslcGran := d.wrp.pslcGran + b2n pslc, qlcGran := d.wrp.qlcGran + b2n (!pslc), taken := d.wrp.taken + 1 } }
    match g.old, g.whole per with
    | some e, false => (d.wgReady id .merge).startMerge g e
    | _, _ => d.wgReady id .compress

/-- Granules of a leaf that a MAP_CLEAR of `n` granules from `t` covers and that are mapped. -/
def Dev.mappedIn (d : Dev) (t n : Nat) : List (Nat × GEntry) :=
  let here (k : Nat) : Bool := decide (k % 1024 = t % 1024 ∧ gtagIndex t ≤ gtagIndex k ∧ gtagIndex k < gtagIndex t + n)
  (d.map.entries.filter (fun p => here p.1)).filterMap (fun p => p.2.map (fun e => (p.1, e)))

/-- Issues a MAP_CLEAR for `n` granules of one leaf from tag `t` on (R187). -/
def Dev.mapClear (d : Dev) (t n : Nat) (owner : Option CmdRef) (wid : Option Nat := none) : Dev :=
  let m := d.mappedIn t n
  d.record 2 t n m.length ((m.map (fun p => p.2.units)).sum) owner wid

/-- Whether a leaf exists, in the map or in the cache (R187). -/
def Dev.leafExists (d : Dev) (leaf : Nat) : Bool :=
  let l := d.item 0 leaf
  l.there || l.cached || l.dirty

/-- A clearing write of whole granules that has its locks and whose leaf is known: its MAP_CLEAR, or nothing where the leaf
does not exist (R187). -/
def Dev.clearNow (d : Dev) (g : WGran) : Dev :=
  if d.leafExists (leafOf g.gtag) then
    (d.modWg g.id (fun g => { g with stage := .journal })).mapClear g.gtag g.clearN (some g.ref) (some g.id)
  else (d.dropWg g.id).partDone g.ref .success

/-- Stage 2 takes a granule once it has the lock and its entry is known: C is kept, and a pool 2 credit is asked for. A granule
that would be newly mapped waits while pool 30 issues nothing (R40). -/
def Dev.tryStage2 (d : Dev) (id : Nat) : Dev :=
  match d.wg id with
  | none => d
  | some g =>
    if g.stage ≠ .locked || d.lockedBy g || (decide (g.clearN = 0) && d.urgentHold) then d
    else
      let (d, known) := d.lookup g.gtag
      if !known then d
      else if g.clearN ≠ 0 then d.clearNow g
      else if g.zeroes && (d.entry g.gtag).isNone then (d.dropWg id).partDone g.ref .success
      else if (d.entry g.gtag).isNone && (d.pool 30).blocked then d
      else
        let d := d.modWg id (fun h => { h with old := d.entry g.gtag, stage := .credit })
        let (d, ok) := d.request 2 g.ref.fix 1 (.wgran id)
        if ok then d.afterCredit id else { d with wrp := { d.wrp with stalled := true } }

/-- Granules that stand before stage 2 are tried again, oldest first. -/
def Dev.retryStage2 (d : Dev) : Dev :=
  d.forEach ((d.wrp.grans.filter (fun g => decide (g.stage = .locked))).map (·.id)) (fun d i => d.tryStage2 i)

/-! ## The map changes (R184 to R188, R190) -/

/-- A block loses valid units; at 0 it leaves the FULL state where nothing holds it there (R190, R209). -/
def Dev.loseUnits (d : Dev) (key n : Nat) : Dev :=
  let die := key / 8160
  let b := key % 8160
  let d := d.modBlk die b (fun k => { k with valid := k.valid - n })
  let k := d.blk die b
  if k.valid = 0 ∧ k.state = 1 ∧ d.isStranded (colOf die) b = true then
    ((d.blockState die b 4 5).releaseBlock k).modPool 6 (fun q => { q with capacity := q.capacity - 1 })
  else d.sweepBlock key

/-- One granule's entry is replaced, with VALID_UNITS, the namespace's counts and pool 30. -/
def Dev.setEntry (d : Dev) (t : Nat) (e : Option GEntry) : Dev :=
  let old := d.entry t
  let units (x : Option GEntry) : Nat := match x with
    | some e => e.units
    | none => 0
  let d := { d with map := { d.map with entries :=
    match e with
    | some _ => fset d.map.entries t e
    | none => d.map.entries.filter (fun p => p.1 ≠ t) } }
  let d := d.modNs (gtagNsid t) (fun n => { n with
    mapped := n.mapped + b2n e.isSome - b2n old.isSome
    mappedUnits := n.mappedUnits + units e - units old })
  let d := match e, old with
    | some _, none => d.issue 30 0 1
    | none, some _ => d.giveBack 30 0 1
    | _, _ => d
  let d := match e with
    | some e => d.modBlk (pgaDie e.pga) (pgaBlock e.pga) (fun k => { k with valid := k.valid + e.units })
    | none => d
  match old with
  | some o => d.loseUnits (pgaKey o.pga) o.units
  | none => d

/-- Whether the parity of every stripe of a placed granule is programmed (R124): a stripe leaves the list when it is
sealed. -/
def Dev.covered (d : Dev) (pga units : Nat) : Bool :=
  (d.pusOf pga units).all (fun u => (d.stripe (colOf (pgaDie pga)) (pgaBlock pga) u).isNone)

/-- Granules whose record is durable and whose stripes are sealed leave the pipeline; their commands go on. -/
def Dev.finishGrans (d : Dev) : Dev :=
  let ready := d.wrp.grans.filter (fun g => decide (g.stage = .done) && d.covered g.pga g.units)
  d.forEach ready (fun d g => let d := d.dropWg g.id; if g.cause = 0 then d.partDone g.ref .success else d)

/-- Units of a granule that leave it: its staging credit, its DRAM buffer, and the token of the lane that computes or holds
it. -/
def Dev.freeWg (d : Dev) (g : WGran) : Dev :=
  let d := if g.hasW then d.giveBack 2 g.ref.fix 1 else d
  let d := if g.hasQ then d.giveBack 4 0 1 else d
  match g.lane, g.holds with
  | some _, _ => d.giveBack (if g.stage = .compress then 10 else 12) 0 1
  | none, some _ => d.giveBack (if g.stage = .encrypt then 10 else 12) 0 1
  | none, none => d

/-- A verified copy that was made to move a granule: it gets its MAP_SET with a cause, or is abandoned where the entry is not
what it was at the source (R185). -/
def Dev.issueMove (d : Dev) (g : WGran) (cause : Nat) : Dev :=
  let hostNow := d.wrp.grans.any (fun h => decide (h.gtag = g.gtag ∧ h.id ≠ g.id ∧ h.cause = 0 ∧ h.stage = .journal))
  if d.entry g.gtag ≠ g.old || hostNow then
    let d : Dev := { d.dropWg g.id with map := { d.map with discarded := satAdd 32 d.map.discarded 1 } }
    if g.relay then d.partDone g.ref .success else d
  else
    let d := (d.modWg g.id (fun h => { h with stage := .journal })).record 1 g.gtag (entryWord (some ⟨g.pga, g.units⟩))
      (entryWord g.old) cause none (some g.id)
    { d with map := { d.map with moves := d.map.moves + 1 }, wrp := { d.wrp with movedNow := d.wrp.movedNow + 1 } }

/-- A verified granule gets its MAP_SET (R184 to R186): a host granule of a function epoch that has ended gets none, nor
does one whose namespace is being formatted or deleted (R188). One that was laid again after its first MAP_SET was issued is
moved from where that one put it, with cause 4 (R214), once that one is durable. -/
def Dev.issueMapSet (d : Dev) (g : WGran) : Dev :=
  if (g.relay && !g.mapped) || (g.old.isNone && (d.pool 30).blocked) then d
  else
    let d := d.modWg g.id (fun h => { h with hasW := false, hasQ := false })
    let d := if g.hasW then d.giveBack 2 g.ref.fix 1 else d
    let d := if g.hasQ then d.giveBack 4 0 1 else d
    if g.relay then d.issueMove g 4
    else if g.cause = 0 then
      let open' : Bool := match d.ns (gtagNsid g.gtag) with
        | some n => n.ready && !n.formatPending
        | none => false
      if g.epoch ≠ (d.fn g.ref.fix).epoch then d.dropWg g.id
      else if !open' then (d.dropWg g.id).partDone g.ref .nsNotReady
      else (d.modWg g.id (fun h => { h with stage := .journal })).record 1 g.gtag (entryWord (some ⟨g.pga, g.units⟩))
        (entryWord g.old) 0 (some g.ref) (some g.id)
    else d.issueMove g g.cause

/-- Whether the program unit `u` of a block is verified: its stripe is sealed, or its member is. -/
def Dev.puVerified (d : Dev) (die b u : Nat) : Bool :=
  match d.stripe (colOf die) b u with
  | none => true
  | some s => decide (groupOf die ∈ s.members)

/-- Whether every member that holds units from an address on is verified. -/
def Dev.verified (d : Dev) (pga units : Nat) : Bool :=
  (d.pusOf pga units).all (fun u => d.puVerified (pgaDie pga) (pgaBlock pga) u)

/-- Granules whose members have all verified get their MAP_SET (R184); host granules before moves (R185). -/
def Dev.mapVerified (d : Dev) : Dev :=
  let mine := d.wrp.grans.filter (fun g => decide (g.stage = .program) && d.verified g.pga g.units)
  let d := d.forEach (mine.filter (fun g => decide (g.cause = 0))) (fun d g => d.issueMapSet g)
  d.forEach (mine.filter (fun g => decide (g.cause ≠ 0))) (fun d g => d.issueMapSet g)

/-- Map items whose page is verified get their ITEM_FLUSHED record, and images whose pages are take their new address (R181,
R191, R236). -/
def Dev.flushVerified (d : Dev) : Dev :=
  let ready := d.map.laying.filter (fun l => d.verified l.pga (256 * l.pages))
  let d : Dev := { d with map := { d.map with laying := d.map.laying.filter (fun l => decide (l ∉ ready)) } }
  d.forEach ready (fun d l =>
    if l.kind ≤ 2 then
      let d : Dev := { d with map := { d.map with flushes := d.map.flushes + 1 } }
      d.record 4 (l.index + 2 ^ 60 * l.code) (l.pga + 2 ^ 63) l.seq 0
    else match fget d.hrt.images none l.index with
      | none => d
      | some im =>
        let n := 256 * l.pages
        if im.pga = l.pga then d
        else
          let d : Dev := { d with hrt := { d.hrt with
            images := fset d.hrt.images l.index (some { im with pga := l.pga, moving := false }) } }
          (d.modBlk (pgaDie l.pga) (pgaBlock l.pga) (fun k => { k with valid := k.valid + n })).loseUnits (pgaKey im.pga) n)

/-- What the verification of a member brings about. -/
def Dev.afterVerify (d : Dev) : Dev := (d.mapVerified.flushVerified).sweepBlocks

/-- Leaves of a namespace that exist, in the map or in the cache. -/
def Dev.leavesOf (d : Dev) (nsid : Nat) : List Nat :=
  (d.map.leaves.filter (fun p => decide (p.1 % 1024 = nsid - 1) && (p.2.there || p.2.cached || p.2.dirty))).map (·.1)

/-- The clearing of a namespace (R188): one MAP_CLEAR for every leaf that exists. -/
def Dev.clearLeaves (d : Dev) (nsid : Nat) : Dev :=
  d.forEach (d.leavesOf nsid) (fun d l => d.mapClear (gtagOf nsid (l / 1024 * 1024)) 1024 none)

/-- Blocks that CLEAR_ALL sends to ERASE_QUEUED: those of USE 0, 1 or 2 that hold data (R188). -/
def Block.clears (k : Block) : Bool := decide ((k.state = 1 ∨ k.state = 2) ∧ k.use ≤ 2)

/-- The global clear of R188 once CLEAR_ALL is durable: roots absent, counts zero, and every data block of USE 0, 1 or
2 queued for erase without a record of its own. -/
def Dev.clearAll (d : Dev) : Dev :=
  let keys := (d.map.blocks.filter (fun p => p.2.clears)).map (·.1)
  let held := (d.pool 30).held
  let opened := d.par.stripes.length
  let blocks : FMap Block := d.map.blocks.map (fun p => if p.2.clears then (p.1, { p.2 with state := 3, valid := 0 }) else p)
  let zero (n : Ns) : Ns := { n with mapped := 0, mappedUnits := 0 }
  let nss : FMap (Option Ns) := d.nvm.nss.map (fun p => (p.1, p.2.map zero))
  let d := { d with
    map := { d.map with entries := [], leaves := [], dirs := [], blocks := blocks
                        laying := d.map.laying.filter (fun l => decide (l.kind = 3)) }
    nvm := { d.nvm with nss := nss }
    par := { d.par with stripes := [] } }
  ((d.giveBack 30 0 held).giveBack 14 0 opened).forEach keys (fun d k => d.queueOp (k / 8160) { kind := .erase, block := k % 8160, cls := 2 })

/-- Whether a record in flight or waiting meets a test. -/
def Jrn.pends (j : Jrn) (p : JRec → Bool) : Bool := j.ring.any (fun r => !r.durable && p r) || j.waiting.any p

/-- The command that a clearing of a namespace serves. -/
def Dev.clearOwner (d : Dev) (nsid : Nat) : Option CmdRef :=
  (d.nvm.cmds.find? (fun c => decide (c.job ∈ [Job.format nsid, .nsDelete nsid, .nsDelete 0xFFFFFFFF]))).map (·.ref)

/-- Ends the clearing of a namespace (R188): with the last of its MAP_CLEAR records durable, action 3 is issued. -/
def Dev.endClear (d : Dev) (nsid : Nat) : Dev :=
  if nsid ∉ d.map.clears ∨ d.jrn.pends (fun r => decide ((r.ty = 2 ∧ gtagNsid r.a = nsid) ∨ (r.ty = 6 ∧ r.a = nsid ∧ r.b = 3))) then d
  else match d.ns nsid with
    | some n => d.record 6 nsid 3 n.lbaf n.granules (d.clearOwner nsid)
    | none => { d with map := { d.map with clears := setDel d.map.clears nsid } }

/-- Critical Warning bit 3 clears once no namespace is in read-only (R200); without a superblock it stays (R195). -/
def Dev.clearReadOnly (d : Dev) : Dev :=
  let any := d.nvm.nss.any (fun p => match p.2 with
    | some n => n.readOnly
    | none => false)
  if any || d.nvm.noSuperblock then d else d.warn 3 false

/-- A namespace is gone: its root entries with the items below them, its unit of pool 29, its share of pool 30 and its key
tags (R476). -/
def Dev.freeNamespace (d : Dev) (nsid : Nat) (n : Ns) : Dev :=
  let other (p : Nat × Item) : Bool := decide (p.1 % 1024 ≠ nsid - 1)
  let items := d.map.leaves.filter (fun p => !other p && p.2.there) ++ d.map.dirs.filter (fun p => !other p && p.2.there)
  let d : Dev := { d with
    map := { d.map with
      rootUsed := d.map.rootUsed.filter (fun p => p ≠ (n.rootFirst, n.rootCount))
      leaves := d.map.leaves.filter other, dirs := d.map.dirs.filter other
      laying := d.map.laying.filter (fun l => decide (2 ≤ l.kind ∨ l.index % 1024 ≠ nsid - 1)) }
    key := { d.key with bindings := d.key.bindings.filter (fun b => b.1 ≠ nsid) } }
  let d := d.forEach items (fun d p => d.loseUnits (pgaKey p.2.ptr) 256)
  (((d.setNs nsid none).giveBack 29 0 1).modPool 30 (fun q => { q with capacity := q.capacity - n.granules })).clearReadOnly

/-- What a namespace record brings about once durable (R199, R200, R476, R188). -/
def Dev.applyNamespace (d : Dev) (r : JRec) : Dev :=
  let done (d : Dev) : Dev := match r.owner with
    | some o => d.partDone o .success
    | none => d
  match r.b with
  | 0 => done (d.modNs r.a (fun n => { n with ready := true }))
  | 1 => match d.ns r.a with
    | some n => done (d.freeNamespace r.a n)
    | none => done d
  | 2 => (({ d with map := { d.map with clears := setIns d.map.clears r.a } }).clearLeaves r.a).endClear r.a
  | 3 =>
    let d := { d with map := { d.map with clears := setDel d.map.clears r.a } }
    match d.ns r.a with
    | some n =>
      if n.deleting then d.record 6 r.a 1 n.lbaf n.granules r.owner
      else done (d.modNs r.a (fun n => { n with formatPending := false }))
    | none => done d
  | _ => d

/-- What CLEAR_ALL brings about once durable (R188): the clear, the end of every format, and service again where no
superblock was valid (R195). -/
def Dev.applyClearAll (d : Dev) (r : JRec) : Dev :=
  let d := d.clearAll
  let nss : FMap (Option Ns) := d.nvm.nss.map (fun p => (p.1, p.2.map (fun n => { n with formatPending := false })))
  let lost := d.nvm.noSuperblock
  let d : Dev := { d with nvm := { d.nvm with nss := nss, noSuperblock := false } }
  let d := if lost then ((d.warn 2 false).warn 3 (nss.any (fun p => match p.2 with
      | some n => n.readOnly
      | none => false))) else d
  match r.owner with
  | some o => d.partDone o .success
  | none => d

/-- A leaf whose last entry is gone, and a copy of an item that a new one replaces: what becomes durable with ITEM_FLUSHED
(R173, R181). -/
def Dev.applyFlushed (d : Dev) (r : JRec) : Dev :=
  let k := kindOf (bitsOf r.a 60 4)
  let ix := r.a % 2 ^ 60
  let ptr := r.b % 2 ^ 52
  let old := (d.item k ix).ptr
  let hadOld := (d.item k ix).there
  let seq := max (d.item k ix).flushSeq r.c
  let left := d.oldestBeyond k ix seq
  let d := d.modItem k ix (fun i => { i with
    there := true, flushSeq := seq, ptr := ptr, dirty := left.isSome, oldest := left.getD 0 })
  let d := d.modBlk (pgaDie ptr) (pgaBlock ptr) (fun b => { b with valid := b.valid + 256 })
  let d := if hadOld then d.loseUnits (pgaKey old) 256 else d
  if k = 0 then d.dirty 1 (dirOfLeaf ix) r.seq else d

/-- The chunks that a record of type 2 or 9 changes beside its items: those of the blocks it frees units of (R181). -/
def Dev.chunksOf (d : Dev) (r : JRec) : List Nat :=
  if r.ty = 2 then ((d.mappedIn r.a r.b).map (fun p => chunkOf (pgaKey p.2.pga))).eraseDups
  else if r.ty = 9 then
    (d.map.chunkItems.map (·.1) ++ (d.map.blocks.filter (fun p => p.2.clears)).map (fun p => chunkOf p.1)).eraseDups
  else []

/-- What becomes durable with a record (R180, R181, R190). -/
def Dev.applyRecord (d : Dev) (r : JRec) : Dev :=
  let d := if r.ty = 4 then d else d.forEach r.items (fun d p => d.dirty p.1 p.2 r.seq)
  match r.ty with
  | 1 =>
    let d := d.setEntry r.a (entryOf r.b)
    match r.wid with
    | some w =>
      let done (g : WGran) : WGran :=
        if g.stage = .journal ∧ entryOf r.b = some ⟨g.pga, g.units⟩ then
          { g with stage := .done, mapped := true, reserve := 0 }
        else { g with mapped := true, reserve := 0 }
      (d.modWg w done).finishGrans
    | none => d
  | 2 =>
    let m := d.mappedIn r.a r.b
    let d := d.forEach m (fun d p => d.setEntry p.1 none)
    let d := match r.wid with
      | some w => d.dropWg w
      | none => d
    let d := match r.owner with
      | some o => d.partDone o .success
      | none => d
    d.endClear (gtagNsid r.a)
  | 3 => if r.b = 3 then d.queueOp (pgaDie r.a) { kind := .erase, block := pgaBlock r.a, cls := 2 } else d
  | 4 => d.applyFlushed r
  | 6 => d.applyNamespace r
  | 9 => d.applyClearAll r
  | _ => d

/-- The oldest record in flight becomes durable with all before it, and records that wait are written. -/
def Dev.recordDurable (d : Dev) : Dev :=
  match d.jrn.ring.find? (fun r => !r.durable) with
  | none => d
  | some r =>
    let r := { r with chunks := d.chunksOf r }
    let l := mapWhere d.jrn.ring (fun x => x.seq = r.seq) (fun _ => { r with durable := true })
    let d := { d with jrn := { d.jrn with ring := l } }
    ((((d.applyRecord r).resizeItems r).pumpRecords 16).retryStage2).afterVerify

/-- JOURNAL_RECORD_DURABLE. -/
def execJournalRecordDurable (s : State) : Host.Outcome State Fault Refusal := act s Dev.recordDurable

/-! ## The rows of the pipeline -/

/-- GRANULE_LOCK_RELEASE: the oldest write that waits for the granule takes the lock (R116). -/
def execGranuleLockRelease (gtag : Nat) (s : State) : Host.Outcome State Fault Refusal :=
  act s fun d =>
    match d.wrp.grans.find? (fun g => decide (g.gtag = gtag ∧ g.stage = .locked)) with
    | some g => d.tryStage2 g.id
    | none => d

/-- GRANULE_COMPRESS: a compression lane ends its granule, whose XXH64 was taken before, and chooses the form (R119, R120). The
lane holds its output until an encrypting lane takes it (R131, R132). -/
def execGranuleCompress (lane : Nat) (s : State) : Host.Outcome State Fault Refusal :=
  act s fun d =>
    match d.wrp.grans.find? (fun g => decide (g.stage = .compress ∧ g.lane = some lane)) with
    | none => d
    | some g =>
      let (form, frame, units) := storedForm g.data g.info.length d.icm.minSavingA
      let d := d.modWg g.id (fun g => { g with
        form := form, frame := frame, units := units, check := granuleCheck g.data g.info, lane := none, holds := some lane })
      let d := { d with icm := { d.icm with
        clane := fmod d.icm.clane 0 lane (· + 1), storedForm := d.icm.storedForm + form } }
      d.wgReady g.id .encrypt

/-- QLC_COPY_COMPLETE: the copy into the DRAM buffer is complete, and the pool 2 credit is returned (R123). -/
def execQlcCopyComplete (id : Nat) (s : State) : Host.Outcome State Fault Refusal :=
  act s fun d =>
    match d.wg id with
    | some g =>
      if g.stage = .qlcCopy then
        let d := d.modWg id (fun g => { g with stage := .program, hasW := false })
        let d := if g.hasW then d.giveBack 2 g.ref.fix 1 else d
        d.pushSet (colOf (pgaDie g.pga)) (pgaBlock g.pga) setUnits
      else d
    | none => d

/-- STRIPE_CLOSE_TIMER: a stripe closes on time; empty data members are padded and the parity follows (R124). -/
def execStripeCloseTimer (col set pu : Nat) (s : State) : Host.Outcome State Fault Refusal :=
  act s fun d => d.padStripe col set pu

end Sys2Proof.Machine
end

