-- ==== Sys2Proof/Machine/Reads.lean ====
section
/-! DEFINITION. What the read pipeline and the media share: hand-off buffers (R18, R131), keys (R121), delivery (R128), the
start of reads, moves and repairs (R113, R127, R185), refresh (R224), closing sets and retiring blocks and dies (R149, R150,
R190, R209, R228), and the decode ladder of one codeword (R126). -/

namespace Sys2Proof.Machine

/-! ## Waybills and hand-off buffers (R18, R131) -/

def Dev.wb (d : Dev) (id : Nat) : Option Waybill := d.hrt.wbs.find? (fun w => w.id = id)
def Dev.modWb (d : Dev) (id : Nat) (f : Waybill → Waybill) : Dev :=
  { d with hrt := { d.hrt with wbs := mapWhere d.hrt.wbs (fun w => w.id = id) f } }
def Dev.dropWb (d : Dev) (id : Nat) : Dev := { d with hrt := { d.hrt with wbs := d.hrt.wbs.filter (fun w => w.id ≠ id) } }

/-- The lowest hand-off buffer that is not in use. -/
def Dev.freeBuf (d : Dev) : Option Nat := (List.range 256).find? (fun i => !(fget d.fab.handoff {} i).inUse)

/-- Takes a hand-off buffer with its unit of pool 16 and a content for an owner. -/
def Dev.takeBuf (d : Dev) (h : Handoff) : Option (Dev × Nat) :=
  match d.freeBuf with
  | some i =>
    if d.canIssue 16 0 1 then
      let d := d.issue 16 0 1
      some ({ d with fab := { d.fab with handoff := fset d.fab.handoff i { h with inUse := true } } }, i)
    else none
  | none => none

def Dev.buf (d : Dev) (i : Nat) : Handoff := fget d.fab.handoff {} i
def Dev.modBuf (d : Dev) (i : Nat) (f : Handoff → Handoff) : Dev :=
  { d with fab := { d.fab with handoff := fmod d.fab.handoff {} i f } }

/-- Returns a hand-off buffer and its unit. -/
def Dev.dropBuf (d : Dev) (i : Nat) : Dev :=
  if (d.buf i).inUse then (d.modBuf i (fun _ => {})).giveBack 16 0 1 else d

/-- Reads of a Waybill in the pipeline, in input order. -/
def Dev.divertReads (d : Dev) (id : Nat) : List RGran := d.rdp.grans.filter (fun g => g.dest = .divert id)

/-- Hand-off buffers of a Waybill that a diverted granule needs beyond those being filled (R130, R131): buffers are filled in
input order, 64 KiB each. -/
def Waybill.bufsFor (w : Waybill) (g : RGran) : Nat :=
  (g.hostPos + g.count - 1) / 65536 + 1 - w.pos / 65536 - w.fill.length

/-- Takes `n` hand-off buffers to fill for a Waybill. -/
def Dev.startFill (d : Dev) (id n : Nat) : Dev :=
  iter n (fun d => match d.takeBuf { owner := .data, wb := id, kind := 1 } with
    | some (d, i) => d.modWb id (fun w => { w with fill := w.fill ++ [i] })
    | none => d) d

/-- Whether a diverted granule may go to a lane: the granules before it in the input have been through theirs (R129), and
there are buffers for its bytes (R131; DESIGN CHOICE of the model where the wait begins, log 106). -/
def Dev.divertMay (d : Dev) (id : Nat) (g : RGran) : Bool :=
  match d.wb id with
  | none => false
  | some w =>
    (d.divertReads id).all (fun h => decide (g.hostPos ≤ h.hostPos ∨ h.stage = .deliver ∨ h.stage = .lost)) &&
      d.canIssue 16 0 (w.bufsFor g)

/-! ## Keys (R121, R128) -/

/-- The key that a key reference of a namespace resolves to, with its serial: that of the slot bound to the tag, or the media
key; none where no slot is bound. -/
def Dev.keyOf (d : Dev) (nsid keyRef : Nat) : Option (Nat × Bytes) :=
  if bit keyRef 15 then
    (d.key.bindings.find? (fun b => decide (b.1 = nsid ∧ b.2.1 = keyRef % 4096))).map (fun b =>
      let k := fget d.key.slots {} b.2.2
      (k.serial, k.key))
  else (d.ns nsid).map (fun n => (n.mediaKey, n.key))

/-- The granule that an entry leads to. -/
def Dev.content (d : Dev) (e : GEntry) : Stored := (d.stored e.pga).getD {}

/-- The key that a granule read decrypts with: what the reference in its header resolves to, and for the command's own reference
the key that the command started with (R90, R121). -/
def Dev.headerKey (d : Dev) (g : RGran) : Option (Nat × Bytes) :=
  let c := d.content g.entry
  if g.key.isSome && decide (c.keyRef = g.keyRef) then g.key else d.keyOf (gtagNsid g.gtag) c.keyRef

/-! ## Delivery to the host (R128) -/

/-- Pages that a stored granule touches. -/
def pageCount (pga units : Nat) : Nat := (pgaUnit pga + units - 1) / 256 - pgaUnit pga / 256 + 1

/-- The member that holds a granule's codeword `i`: column, set, program unit, group. -/
def Dev.memberOf (d : Dev) (e : GEntry) (i : Nat) : Nat × Nat × Nat × Nat :=
  let die := pgaDie e.pga
  let b := pgaBlock e.pga
  (colOf die, b, d.puOf die b (pgaMode e.pga) ((pgaUnit e.pga / 64 + i) * 64), groupOf die)

/-- The bytes of a part of a granule as a command transfers them, and the metadata sent apart: `first` and `count` are in
LBAs of the granule. -/
def hostBytes (lbaf : Nat) (extended : Bool) (data info : Bytes) (first count : Nat) : Bytes × Bytes :=
  let n := lbaSize lbaf
  let m := lbaMeta lbaf
  if extended then
    (((List.range count).map (fun i => slice data ((first + i) * n) n ++ slice info ((first + i) * m) m)).flatten, [])
  else (slice data (first * n) (count * n), slice info (first * m) (count * m))

/-- Ends a host-side read of a granule part with its data: sent to the host, or compared, or only checked. -/
def Dev.finishRead (d : Dev) (ref : CmdRef) (dest : RDest) (gtag : Nat) (data info : Bytes) (first count pos : Nat) : Dev :=
  match d.ns (gtagNsid gtag) with
  | none => d.partDone ref .success
  | some n =>
    let (b, m) := hostBytes n.lbaf n.extended data info first count
    let unit := lbaSize n.lbaf + (if n.extended then lbaMeta n.lbaf else 0)
    match dest with
    | .host =>
      let d := d.emit (.toHost ref (pos * unit) b)
      let d := if m.isEmpty then d else d.emit (.toHostMeta ref (pos * lbaMeta n.lbaf) m)
      { d with nvm := { d.nvm with unitsRead := d.nvm.unitsRead + 1 } }.partDone ref .success
    | .compare =>
      let same : Bool := match d.cmd ref with
        | some c => decide (slice c.data (pos * unit) b.length = b) &&
            decide (slice c.info (pos * lbaMeta n.lbaf) m.length = m)
        | none => true
      d.partDone ref (if same then .success else .compareFailure)
    | _ => d.partDone ref .success

/-! ## Starting reads, moves and repairs -/

/-- A read whose entry is known: zeros at once for an UNMAPPED granule (R169), else its credit. -/
def Dev.routeRead (d : Dev) (id : Nat) : Dev :=
  match d.rg id with
  | none => d
  | some g =>
    match (if decide (gtagNsid g.gtag ∈ d.map.clears) then none else d.entry g.gtag) with
    | none =>
      let n := d.ns (gtagNsid g.gtag)
      let m := match n with
        | some n => metaLen n.lbaf
        | none => 0
      match g.dest with
      | .divert _ => d.modRg id (fun g => { g with stage := .deliver })
      | _ => (d.dropRg id).finishRead g.ref g.dest g.gtag (zeroBytes 32768) (zeroBytes m) g.first g.count g.hostPos
    | some e =>
      let d := d.modRg id (fun g => { g with entry := e, stage := .credit })
      if g.dest.takesCredit then
        let (d, ok) := d.request 3 g.ref.fix 1 (.rgran id)
        if ok then (d.modRg id (fun g => { g with hasR := true })).toMedia id else d
      else d.toMedia id

/-- A read of a granule part begins with its look-up (R175); one whose leaf must be loaded waits for it. -/
def Dev.startRead (d : Dev) (ref : CmdRef) (gtag keyRef : Nat) (dest : RDest) (first count pos : Nat) : Dev :=
  let id := d.wrp.next
  let d := { d with wrp := { d.wrp with next := id + 1 } }
  let (d, known) := d.lookup gtag
  let r : RGran := { id := id, ref := ref, epoch := d.epochOf ref, gtag := gtag, entry := ⟨0, 0⟩, keyRef := keyRef,
                     key := d.keyOf (gtagNsid gtag) keyRef
                     dest := dest, stage := .lookup, first := first, count := count, hostPos := pos }
  let d := d.setReads (d.rdp.grans ++ [r])
  if known then d.routeRead id else d

/-- A copy of a stored granule as it stands, header and ciphertext, to be laid elsewhere (R185). -/
def Stored.copy (c : Stored) (id gtag : Nat) (e : GEntry) (cause : Nat) (st : WStage) : WGran :=
  { id := id, cause := cause, gtag := gtag, old := some e, stage := st, units := e.units, seq := c.seq, keyRef := c.keyRef
    keySerial := c.keySerial, key := c.key, check := c.check, form := c.form, frame := c.frame, data := c.data
    info := c.info }

/-- Starts a move of a granule (R185): it is read, and its copy follows. -/
def Dev.startMove (d : Dev) (gtag : Nat) (e : GEntry) (cause : Nat) : Dev :=
  let w := d.wrp.next
  let g := (d.content e).copy w gtag e cause .merge
  let r : RGran := { id := w + 1, gtag := gtag, entry := e, dest := .move w, stage := .credit }
  (({ d with wrp := { d.wrp with next := w + 2, grans := d.wrp.grans ++ [g] } }).setReads (d.rdp.grans ++ [r])).toMedia
    (w + 1)

/-- A granule that was rebuilt after its checks failed is written again as a new copy (R127). -/
def Dev.startCopy (d : Dev) (gtag : Nat) (e : GEntry) : Dev :=
  let w := d.wrp.next
  { d with wrp := { d.wrp with next := w + 1, grans := d.wrp.grans ++ [(d.content e).copy w gtag e 4 .parity] } }

/-- Queues a granule for repair (R127, R130): the background lane rebuilds it from step 4 on, and writes it again if it then
passes its checks. -/
def Dev.startRepair (d : Dev) (gtag : Nat) (e : GEntry) : Dev :=
  if gtag ∈ d.rdp.repair then d
  else
    let id := d.wrp.next
    let r : RGran := { id := id, gtag := gtag, entry := e, dest := .repair, stage := .rebuild, checkFail := some false
                       cws := List.replicate (cwCount e.pga e.units) ⟨4, 0, false⟩ }
    let d := { d with wrp := { d.wrp with next := id + 1 }, rdp := { d.rdp with repair := d.rdp.repair ++ [gtag] } }
    d.setReads (d.rdp.grans ++ [r])

/-- The repair of a granule is over. -/
def Dev.endRepair (d : Dev) (gtag : Nat) : Dev :=
  { d with rdp := { d.rdp with repair := d.rdp.repair.filter (· ≠ gtag) } }

/-- Moves every mapped granule of a block, and lays the items and images in it again (R190, R191). -/
def Dev.moveBlock (d : Dev) (die b cause : Nat) : Dev :=
  let m := d.map.entries.filterMap (fun p => p.2.bind (fun e =>
    if pgaDie e.pga = die ∧ pgaBlock e.pga = b then some (p.1, e) else none))
  let d := if 2 ≤ (d.blk die b).use then d.layAgain (fun a => decide (pgaKey a = blkKey die b)) else d
  d.forEach m (fun d p =>
    if d.wrp.grans.any (fun g => decide (g.gtag = p.1 ∧ g.cause ≠ 0 ∧ g.old = some p.2)) then d else d.startMove p.1 p.2 cause)

/-- Moves the valid granules of a set. -/
def Dev.moveSet (d : Dev) (col b cause : Nat) : Dev :=
  d.forEach (List.range 8) (fun d g => d.moveBlock (dieOf col g) b cause)

/-- REFRESH_QUEUE: a block is queued for refresh once, and its valid granules are moved; a pSLC block is folded (R224). -/
def Dev.queueRefresh (d : Dev) (die b : Nat) : Dev :=
  if (die, b) ∈ d.outr.queue then d
  else
    ({ d with outr := { d.outr with
      queue := d.outr.queue ++ [(die, b)], refresh := satAdd 32 d.outr.refresh 1 } }).moveBlock die b
      (if (d.blk die b).mode = 0 then 2 else 3)

/-- Whether a block's reads exceed READ_DISTURB_K × 1,000 (R224). -/
def Dev.disturbed (d : Dev) (die b : Nat) : Bool := decide (d.tf 4 0x40 4 * 1000 < (d.blk die b).reads)

/-! ## Page reads -/

/-- A unit of a pool is issued and returned within one operation (R131). -/
def Dev.ticket (d : Dev) (p : Nat) : Dev := (d.issue p 0 1).giveBack p 0 1

/-- Page reads of a block, counted by its channel and against READ_DISTURB_K (R166, R224). -/
def Dev.countPages (d : Dev) (die b pages : Nat) : Dev :=
  let d := (d.modChan (chanOf die) (fun c => { c with reads := c.reads + pages })).modBlk die b
    (fun k => { k with reads := k.reads + pages })
  if d.disturbed die b then d.queueRefresh die b else d

/-- Codewords that the decoder of a channel takes at steps 1 and 2 (R137). -/
def Dev.hardDecodes (d : Dev) (ch n : Nat) : Dev := { d with ldc := { d.ldc with hard := fmod d.ldc.hard 0 ch (· + n) } }

/-- Whether a page of a block can be read from its die now: the die can read it, and a tag is free for it (R131, R148). -/
def Dev.canRead (d : Dev) (die b : Nat) : Bool := d.dieReads die b && d.tagFree (chanOf die)

/-- Pages read from a block with the tracked set and decoded at step 1: a tag while they are read, and the counters of LDC and
MCH. -/
def Dev.readPages (d : Dev) (die b pages cws : Nat) : Dev :=
  let d := (d.tellRead .read die b (fget (d.die die).offsets [] (d.blk die b).mode)).ticket 13
  ((d.countPages die b pages).hardDecodes (chanOf die) cws).readDone die

/-! ## Units that a granule holds in the read pipeline -/

/-- The token of a lane that a granule of the read pipeline leaves. -/
def Dev.freeLane (d : Dev) (g : RGran) : Dev :=
  let d := if g.holds.isSome then d.giveBack 12 0 1 else d
  match g.lane, g.stage with
  | some _, .decrypt => d.giveBack 12 0 1
  | some _, .decompress => d.giveBack 11 0 1
  | some _, .rebuild => d.giveBack 14 0 1
  | _, _ => d

/-- Units of a granule that leave it in the read pipeline. -/
def Dev.freeRg (d : Dev) (g : RGran) : Dev :=
  let d := (if g.hasR then d.giveBack 3 g.ref.fix 1 else d).freeLane g
  let die := pgaDie g.entry.pga
  let d := d.modDie die (fun x => { x with reads := x.reads.filter (· ≠ g.id) })
  if g.tag then d.endTag (chanOf die) else d

/-- A granule leaves the read pipeline. -/
def Dev.endRg (d : Dev) (g : RGran) : Dev := (d.freeRg g).dropRg g.id

/-- A granule stays unrecovered (step 5 of R126). A diverted one is queued for repair (R130). -/
def Dev.unrecovered (d : Dev) (id : Nat) : Dev :=
  match d.rg id with
  | none => d
  | some g =>
    let d := { d with
      rdp := { d.rdp with unrecovered := satAdd 32 d.rdp.unrecovered 1 }
      nvm := { d.nvm with mediaErrors := d.nvm.mediaErrors + 1 } }
    match g.dest with
    | .divert _ =>
      ((d.freeRg g).modRg id (fun g => { g with stage := .lost, lane := none, holds := none, tag := false })).startRepair
        g.gtag g.entry
    | .move w => (d.endRg g).dropWg w
    | .repair => (d.endRg g).endRepair g.gtag
    | .merge w =>
      let d := d.endRg g
      match d.wg w with
      | some x => (((d.freeWg x).dropWg w)).partDone x.ref .unrecoveredRead
      | none => d
    | _ => (d.endRg g).partDone g.ref .unrecoveredRead

/-- A granule goes to step 4 of R126 with every codeword that is not decoded. -/
def RGran.toStep4 (g : RGran) (all : Bool) : RGran :=
  { g with stage := .rebuild, lane := none, tag := false, cws := g.cws.map (fun c => if c.ok && !all then c else ⟨4, 0, false⟩) }

/-- Reads on a die that cannot be made any more go to step 4 of R126: those that wait for it, and those whose step 2 or 3 would
read it again (R150, R165, R219). -/
def Dev.failReads (d : Dev) (hit : RGran → Bool) : Dev :=
  d.forEach (d.rdp.grans.filter (fun g => decide (g.stage = .media ∨ g.stage = .decode) && hit g)) (fun d g =>
    let die := pgaDie g.entry.pga
    let d := (d.modDie die (fun x => { x with reads := x.reads.filter (· ≠ g.id) })).modRg g.id (fun g => g.toStep4 false)
    if g.tag then d.endTag (chanOf die) else d)

/-! ## Closing a set (R149, R209, R214) -/

/-- A granule that must be laid elsewhere: it waits for its placement again. One whose MAP_SET has been issued is moved from where
that one put it; another granule's write may have taken the lock since (R116, R214). -/
def WGran.again (g : WGran) : WGran :=
  let issued := decide (g.stage = .journal ∨ g.stage = .done)
  { g with stage := .parity, pga := 0, relay := g.relay || (issued && decide (g.cause = 0))
           old := if issued then some ⟨g.pga, g.units⟩ else g.old }

/-- Whether a granule of the pipeline is laid in set (K, b). -/
def WGran.inSet (g : WGran) (col b : Nat) : Bool :=
  decide (g.stage ∈ [WStage.qlcCopy, .program, .journal, .done] ∧ colOf (pgaDie g.pga) = col ∧
    pgaBlock g.pga = b) || decide (g.stage = .parity ∧ g.pga ≠ 0 ∧ colOf (pgaDie g.pga) = col ∧ pgaBlock g.pga = b)

/-- Drops the programs of a block that wait for a die. -/
def Dev.dropOps (d : Dev) (die b : Nat) : Dev :=
  let gone := (d.die die).queue.filter (fun o => decide (o.block = b ∧ o.kind ≠ .erase))
  let d := d.modDie die (fun x => { x with queue := x.queue.filter (fun o => !decide (o.block = b ∧ o.kind ≠ .erase)) })
  d.giveBack 13 0 (gone.filter (·.tag)).length

/-- Closes a set whose open stripes cannot be finished: their units of pool 14 return, granules laid in them that no
completed command covers are laid again, and its open blocks go to FULL with a block reason. -/
def Dev.closeSet (d : Dev) (col b reason : Nat) : Dev :=
  let opened := (d.par.stripes.filter (fun s => decide (s.k = col ∧ s.b = b))).length
  let bare (a : Nat) : Bool := decide (colOf (pgaDie a) = col ∧ pgaBlock a = b) && !d.covered a 256
  let d := if opened = 0 then d else d.layAgain bare
  let again := d.wrp.grans.map (fun g => if g.inSet col b && !d.covered g.pga g.units then g.again else g)
  let left := d.par.stripes.filter (fun s => !decide (s.k = col ∧ s.b = b))
  let d := ({ d with par := { d.par with stripes := left }, wrp := { d.wrp with grans := again } }).giveBack 14 0 opened
  d.forEach (List.range 8) (fun d g =>
    let d := d.dropOps (dieOf col g) b
    if (d.blk (dieOf col g) b).state = 1 then d.closeBlock (dieOf col g) b reason else d)

/-- A block is retired, what its set still writes is laid elsewhere, and the valid data of the set is relocated (R149, R190,
R209). DESIGN CHOICE (log 114): the other blocks of a set that is closed so take reason 0. -/
def Dev.retireSet (d : Dev) (die b reason cause : Nat) : Dev :=
  let col := colOf die
  ((d.closeSet col b 0).retireBlock die b reason).moveSet col b cause

/-- A program failure (PROGRAM_FAILURE, R149). -/
def Dev.programFailure (d : Dev) (die b reason : Nat) : Dev :=
  (d.modChan (chanOf die) (fun c => { c with pgmFail := satAdd 32 c.pgmFail 1 })).retireSet die b reason 1

/-- A block that a codeword was lost in, at step 5 of R126 after its own read failed, is retired for read failures (R179, R190;
DESIGN CHOICE of the model which failures those are, log 110). -/
def Dev.readFailure (d : Dev) (die b : Nat) : Dev :=
  if (d.blk die b).state = 1 ∨ (d.blk die b).state = 2 then d.retireSet die b 3 1 else d

/-- Data sets of a column by the profiles of its dies: below every die's block count, and no spare of any (R209). -/
def Dev.columnSets (d : Dev) (col : Nat) : List Nat :=
  match d.columnDies col with
  | [] => []
  | x :: t => (List.range (t.foldl (fun n y => min n y.geo.blocks) x.geo.blocks)).filter (fun b =>
      (x :: t).all (fun y => decide (b ∉ y.spares)))

/-- A die of a group in service is retired or absent: every set of its column is stranded (R228). What is open there is closed, the
granules are moved with cause 4, and the other blocks are retired as they come to hold no valid unit (R209). -/
def Dev.strandColumn (d : Dev) (col : Nat) : Dev :=
  if col ∈ d.par.strandedCols then d
  else
    let sets := d.columnSets col
    let new := (sets.filter (fun b => !d.isStranded col b)).length
    let d := { d with par := { d.par with strandedCols := col :: d.par.strandedCols, stranded := satAdd 32 d.par.stranded new } }
    let used := (d.map.blocks.filter (fun p => decide (colOf (p.1 / 8160) = col ∧ (p.2.state = 1 ∨ p.2.state = 2)))).map
      (fun p => p.1 % 8160)
    let d := d.forEach used.eraseDups (fun d b => (d.closeSet col b 0).moveSet col b 4)
    d.forEach (sets.filter (fun b => decide (b ∉ used))) (fun d b =>
      d.retirePartners col b ((List.range 8).filter (fun g => (d.die (dieOf col g)).known && d.dieAlive (dieOf col g))))

/-- A die is retired (R150). -/
def Dev.retireDie (d : Dev) (n : Nat) : Dev := (d.transition (uid 4 n) .retired .timeout).strandColumn (colOf n)

/-- A time-out of a die at a time in microseconds: Reset LUN, what was running fails as given, and with more than three within
60 s the die is retired (R150). -/
def Dev.timeOut (d : Dev) (die us : Nat) (fails : Dev → Dev) : Dev :=
  let times := ((d.die die).timeouts.filter (fun t => us < t + 60000000)) ++ [us]
  let d := (d.modChan (chanOf die) (fun c => { c with timeouts := satAdd 32 c.timeouts 1 })).tell .dieReset die 0
  let d := fails (d.modDie die (fun x => { x with timeouts := times }))
  if 3 < times.length ∧ (d.unit (uid 4 die)).state = .alive then d.retireDie die else d

/-! ## Tracked sets (R157) -/

/-- The window of a die's set, and the set in it: one that has never been saved starts at zero (R157). -/
def Dev.trackedSet (d : Dev) (n cell : Nat) : List Int :=
  let x := d.die n
  let w := d.trackWindow x.profile cell
  List.zipWith (fun v (b : Int × Int) => (clampTo b.1 b.2 v).1) (fget x.offsets (List.replicate 16 0) cell) w

/-- The sets that a die has are clamped into their windows. -/
def Dev.clampSets (d : Dev) (n : Nat) : Dev :=
  d.forEach ((d.die n).offsets.map (·.1)) (fun d cell =>
    let l := d.trackedSet n cell
    d.modDie n (fun x => { x with offsets := fset x.offsets cell l }))

/-- A die that is identified has a tracked set for each cell mode it uses: one that was never saved starts at zero, clamped
into its window. -/
def Dev.giveSets (d : Dev) (n cell : Nat) : Dev :=
  let start (m : FMap (List Int)) (k : Nat) : FMap (List Int) := fset m k (fget m (List.replicate 16 0) k)
  (d.modDie n (fun x => { x with offsets := start (start x.offsets 0) cell })).clampSets n

/-! ## The decode ladder of one codeword (R126) -/

/-- Rungs of step 2 that are read, from the first on, each with its own offsets and a hard decode (R157). -/
def Dev.readRungs (d : Dev) (die b mode n : Nat) : Dev :=
  let p := (d.die die).profile
  let d := d.forEach (List.range n) (fun d k => (d.tellRead .readRetry die b (d.rungOffsets p mode k)).ticket 13)
  let d := (d.countPages die b n).hardDecodes (chanOf die) n
  { d with ldc := { d.ldc with rungs := d.ldc.rungs + n } }

/-- A success at a rung is a sample of read-reference tracking (R158). -/
def Dev.sampleRung (d : Dev) (die mode n : Nat) : Dev :=
  let off := d.rungOffsets (d.die die).profile mode n
  d.modDie die (fun x => { x with samples := fmod x.samples [] mode (fun l => l ++ [off]) })

/-- A soft-bit level of step 3 is read around the tracked set at the spacing of the die profile (R157): one page read below it
and one above it (PRESUMED, log 111). -/
def Dev.readSoft (d : Dev) (die b mode level : Nat) : Dev :=
  let step : Int := level * (d.die die).geo.softStep
  let set := fget (d.die die).offsets [] mode
  (((d.tellRead .readSoft die b (set.map (· - step))).tellRead .readSoft die b (set.map (· + step))).ticket 13).countPages die b 2

/-- A codeword reaches step 3. -/
def Dev.escalate (d : Dev) : Dev := { d with ldc := { d.ldc with softEsc := satAdd 32 d.ldc.softEsc 1 } }

/-- A codeword leaves step 3, having been decoded there by a soft decoder or not: it is counted once (R137). -/
def Dev.softDone (d : Dev) (decoder : Nat) (ok : Bool) : Dev :=
  { d with ldc := { d.ldc with
    soft := if decoder < 8 then fmod d.ldc.soft 0 decoder (· + 1) else d.ldc.soft
    uncorr := if ok then d.ldc.uncorr else satAdd 32 d.ldc.uncorr 1 } }

/-- One codeword of a block is read and climbs the ladder to where it is found to stop; the flag says whether it was decoded. A
success at step 3 queues the block for refresh. -/
def Dev.climb (d : Dev) (die b mode : Nat) (x : Found) : Dev × Bool :=
  let d := d.readPages die b 1 1
  let all := d.rungs (d.die die).profile mode
  match x with
  | .first => (d, true)
  | .rung n => ((d.readRungs die b mode (n + 1)).sampleRung die mode n, true)
  | .soft m levels ok =>
    let d := (d.readRungs die b mode all).escalate.forEach (List.range (max 1 (min 3 levels))) (fun d l =>
      d.readSoft die b mode (l + 1))
    let d := d.softDone m ok
    (if ok then d.queueRefresh die b else d, ok)
  | .timeout => (d.timeOut die (1000 * d.nowMs) id, false)

end Sys2Proof.Machine
end

