-- ==== Sys2Proof/Machine/ReadPath.lean ====
section
/-! DEFINITION. The rows of the read pipeline (R113, R114, R122, R126 to R132): media reads, the decode ladder, lanes, checks and
delivery; merges (R115), and the loading of map items (R174). -/

namespace Sys2Proof.Machine

/-! ## Media reads (R148, R152) -/

/-- Whether a use of the read pipeline is one of a function, among which the queues of a die are served in turn (R62). -/
def RDest.ofHost (x : RDest) : Bool := match x with
  | .host | .compare | .verify | .merge _ | .divert _ => true
  | _ => false

/-- Reads that wait for a die with their tags, in queue order. -/
def Dev.waitingReads (d : Dev) (die : Nat) : List RGran :=
  ((d.die die).reads.filterMap (fun i => d.rg i)).filter (fun g => decide (g.stage = .media) && g.tag)

/-- The read that a die serves next where a granule's is to be: in a suspension the first of another block in queue order (R152),
else the functions' reads by deficit round robin over the functions (R62), and any other in queue order. The round robin
moves on with it. -/
def Dev.serveRead (d : Dev) (g : RGran) : Option Dev :=
  let die := pgaDie g.entry.pga
  let l := d.waitingReads die
  match (d.die die).op with
  | some o => if (l.find? (fun h => decide (pgaBlock h.entry.pga ≠ o.block))).map (·.id) = some g.id then some d else none
  | none =>
    if g.dest.ofHost then
      let mine (f : Nat) (h : RGran) : Bool := h.dest.ofHost && decide (h.ref.fix = f)
      match (d.die die).drr.next (16384 * pageCount g.entry.pga g.entry.units) (fun f => l.any (mine f)) with
      | some (f, drr) =>
        if (l.find? (mine f)).map (·.id) = some g.id then some (d.modDie die (fun x => { x with drr := drr })) else none
      | none => none
    else if (l.find? (fun h => !h.dest.ofHost)).map (·.id) = some g.id then some d else none

/-- NAND_READ_COMPLETE: the data of a queued read arrive; Change Read Column Enhanced selects what is transferred (R139). A die
busy with a program or an erase reads only while that is suspended and ready, up to SUSP_MAX_READS (R148, R152). -/
def execNandReadComplete (id : Nat) (s : State) : Host.Outcome State Fault Refusal :=
  act s fun d =>
    match d.rg id with
    | none => d
    | some g =>
      let die := pgaDie g.entry.pga
      let b := pgaBlock g.entry.pga
      if g.stage = .media ∧ g.tag ∧ d.dieReads die b then
        match d.serveRead g with
        | none => d
        | some d =>
          let d := (d.tell .changeColumn die b).modDie die (fun x => { x with reads := x.reads.filter (· ≠ id) })
          let d := (d.modRg id (fun g => { g with stage := .decode, tag := false })).endTag (chanOf die)
          (d.countPages die b (pageCount g.entry.pga g.entry.units)).readDone die
      else d

/-! ## The decode ladder of a granule (R126) -/

/-- A move whose codewords stand: the clear header is checked, and the copy goes on as it is (R185); a header that fails takes
the granule to step 4, once. -/
def Dev.moveRead (d : Dev) (g : RGran) (w : Nat) : Dev :=
  if (d.content g.entry).gtag = g.gtag then (d.endRg g).modWg w (fun x => { x with stage := .parity })
  else if d.rdp.reconA && g.checkFail.isNone then
    (d.freeLane g).modRg g.id (fun g => { g.toStep4 true with checkFail := some false, holds := none })
  else d.unrecovered g.id

/-- What the end of a codeword brings its granule: with all of them standing a move goes on as it is and any other use to
decryption; with those left at step 4 it waits for reconstruction. A soft decoder or an accumulator that the granule no longer
needs is free. -/
def Dev.afterDecode (d : Dev) (id : Nat) : Dev :=
  match d.rg id with
  | none => d
  | some g =>
    if g.cws.all (·.ok) then
      match g.dest with
      | .move w => d.moveRead g w
      | _ => ((d.freeLane g).modRg id (fun g => { g with lane := none })).rgReady id .decrypt
    else if g.stage = .decode ∧ g.cws.all (fun c => c.ok || decide (4 ≤ c.step)) then
      (d.modRg id (fun g => { g with lane := none })).rgReady id .rebuild
    else if g.stage = .decode ∧ g.cws.any (fun c => !c.ok && decide (c.step = 3)) = false then
      d.modRg id (fun g => { g with lane := none })
    else d

def RGran.cw (g : RGran) (i : Nat) : CwState := (g.cws[i]?).getD ⟨0, 0, true⟩
def Dev.setCw (d : Dev) (id i : Nat) (c : CwState) : Dev := d.modRg id (fun g => { g with cws := g.cws.set i c })

/-- CODEWORD_DECODE: step 1 of R126. -/
def execCodewordDecode (id cw : Nat) (ok : Bool) (s : State) : Host.Outcome State Fault Refusal :=
  act s fun d =>
    match d.rg id with
    | none => d
    | some g =>
      let c := g.cw cw
      if g.stage = .decode ∧ c.ok = false ∧ c.step = 1 ∧ d.canIssue 8 0 1 then
        let d := (d.ticket 8).hardDecodes (chanOf (pgaDie g.entry.pga)) 1
        (d.setCw id cw (if ok then { c with ok := true } else { c with step := 2, rung := 0 })).afterDecode id
      else d

/-- Rungs of step 2 for a granule. -/
def Dev.rungCount (d : Dev) (pga : Nat) : Nat := d.rungs (d.die (pgaDie pga)).profile (pgaMode pga)

/-- READ_RETRY_RUNG: the next rung of step 2 is read from the die and hard-decoded (R157). A success is a sample of
read-reference tracking (R158). DESIGN CHOICE (log 112): LDC_HARD counts every hard decode of a codeword, one for each rung. -/
def execReadRetryRung (id cw : Nat) (ok : Bool) (s : State) : Host.Outcome State Fault Refusal :=
  act s fun d =>
    match d.rg id with
    | none => d
    | some g =>
      let c := g.cw cw
      let die := pgaDie g.entry.pga
      let b := pgaBlock g.entry.pga
      let mode := pgaMode g.entry.pga
      if g.stage = .decode ∧ c.ok = false ∧ c.step = 2 ∧ d.canIssue 8 0 1 ∧ d.canRead die b then
        let off := d.rungOffsets (d.die die).profile mode c.rung
        let d := (((d.tellRead .readRetry die b off).ticket 13).ticket 8).countPages die b 1
        let d := (d.hardDecodes (chanOf die) 1).readDone die
        let d := { d with ldc := { d.ldc with rungs := d.ldc.rungs + 1 } }
        if ok then ((d.sampleRung die mode c.rung).setCw id cw { c with ok := true }).afterDecode id
        else if c.rung + 1 < d.rungCount g.entry.pga then d.setCw id cw { c with rung := c.rung + 1 }
        else (d.setCw id cw { c with step := 3, rung := 0 }).escalate
      else d

/-- SOFT_DECODE: the next soft-bit level of step 3 (1, then 2, then 3), on the soft decoder that has taken the granule (R114). -/
def execSoftDecode (id cw decoder : Nat) (ok : Bool) (s : State) : Host.Outcome State Fault Refusal :=
  act s fun d =>
    match d.rg id with
    | none => d
    | some g =>
      let c := g.cw cw
      let die := pgaDie g.entry.pga
      let b := pgaBlock g.entry.pga
      if g.stage = .decode ∧ c.ok = false ∧ c.step = 3 ∧ g.lane = some decoder ∧ d.canIssue 9 0 1 ∧ d.canRead die b then
        let d := ((d.ticket 9).readSoft die b (pgaMode g.entry.pga) (c.rung + 1)).readDone die
        if ok then (((d.softDone decoder true).setCw id cw { c with ok := true }).queueRefresh die b).afterDecode id
        else if c.rung < 2 then d.setCw id cw { c with rung := c.rung + 1 }
        else ((d.softDone decoder false).setCw id cw { c with step := 4, rung := 0 }).afterDecode id
      else d

/-- Counts a stripe once as unrecoverable, with event 0x0107 (R212). -/
def Dev.stripeLost (d : Dev) (ident : Nat) : Dev :=
  if ident ∈ d.par.lostIds then d
  else ({ d with par := { d.par with
      lostIds := ident :: d.par.lostIds, unrecoverable := satAdd 32 d.par.unrecoverable 1 } }).log 0x0107 noUnit
    (leBytes 8 ident)

/-- The other members of a stripe that a reconstruction reads: those neither void nor missing (R211). -/
def Dev.othersOf (d : Dev) (col b g : Nat) : List Nat :=
  let voids := d.voidsOf col b
  (List.range 8).filter (fun x => decide (x ≠ g ∧ x ∉ voids) && !d.missing col b x)

/-- Whether every other member of a stripe can be read now. -/
def Dev.othersRead (d : Dev) (col b g : Nat) : Bool := (d.othersOf col b g).all (fun x => d.canRead (dieOf col x) b)

/-- The reads of a reconstruction: codeword by codeword, each other member climbs the ladder to where it is found to stop, at its
first read where nothing is said of it (R126, R211). The groups whose member failed step 3 come with it. -/
def Dev.readStripe (d : Dev) (col b g mode : Nat) (found : List (Nat × Found)) : Dev × List Nat :=
  (d.othersOf col b g).foldl (fun (acc : Dev × List Nat) x =>
    let f := match found.find? (fun p => p.1 = x) with
      | some p => p.2
      | none => .first
    let (d, ok) := acc.1.climb (dieOf col x) b mode f
    (d, if ok then acc.2 else acc.2 ++ [x])) (d, [])

/-- Whether a member can be rebuilt: no more members of its stripe missing or failed than it tolerates (R210, R211).
`failed` names the groups whose members failed step 3 beside the member itself. -/
def Dev.canRebuild (d : Dev) (col b u g : Nat) (failed : List Nat) : Bool :=
  let geom := d.geomOf col b
  let voids := d.voidsOf col b
  let others := (List.range 8).filter (fun x => decide (x ≠ g ∧ x ∉ voids))
  let bad := others.filter (fun x => d.missing col b x || decide (x ∈ failed))
  decide (bad.length + 1 ≤ tolerance geom) && (d.stripe col b u).isNone

/-- Whether a codeword of a granule in this member has been rebuilt already: RDP_RECONSTRUCTED counts members (R135). -/
def Dev.memberDone (d : Dev) (g : RGran) (cw : Nat) : Bool :=
  g.cws.zipIdx.any (fun p => p.1.ok && decide (p.1.step = 4) && decide ((d.memberOf g.entry p.2).2.2.1 = (d.memberOf g.entry cw).2.2.1))

/-- STRIPE_RECONSTRUCT: codeword `cw` is rebuilt from its stripe (step 4), in the accumulator of pool 14 that the granule was
granted (R114, R131). A member that cannot be rebuilt leaves its granule at step 5 (R212), and its block is retired where its
own read had failed (log 110). -/
def execStripeReconstruct (id cw : Nat) (failed : List (Nat × Found)) (s : State) : Host.Outcome State Fault Refusal :=
  act s fun d =>
    match d.rg id with
    | none => d
    | some g =>
      let c := g.cw cw
      let (col, b, u, grp) := d.memberOf g.entry cw
      if g.stage = .rebuild ∧ g.lane.isSome ∧ c.ok = false ∧ c.step = 4 ∧ d.othersRead col b grp then
        let (d, bad) := d.readStripe col b grp (pgaMode g.entry.pga) failed
        if d.canRebuild col b u grp bad then
          let n := b2n (!d.memberDone g cw)
          let d := { d with
            par := { d.par with reconCw := d.par.reconCw + 1 }
            rdp := { d.rdp with reconstructed := satAdd 32 d.rdp.reconstructed n } }
          let d := (d.setCw id cw { c with ok := true }).queueRefresh (pgaDie g.entry.pga) b
          (d.modRg id (fun g => { g with rebuilt := true })).afterDecode id
        else
          let st : Stripe := { k := col, b := b, u := u, mode := pgaMode g.entry.pga, geom := d.geomOf col b }
          let d := ((d.stripeLost st.ident).setCw id cw { c with step := 5 }).unrecovered id
          if d.missing col b grp || g.checkFail.isSome then d else d.readFailure (pgaDie g.entry.pga) b
      else d

/-! ## Lanes (R114, R122, R132) -/

/-- Whether a granule of the write pipeline is ready for a lane kind: 0 compress, 1 encrypt. -/
def WGran.readyFor (g : WGran) (kind : Nat) : Bool :=
  decide (g.lane = none ∧ g.stage = (if kind = 0 then WStage.compress else .encrypt))

/-- Whether a granule of the read pipeline is ready for a lane kind: 2 decrypt, 3 decompress, 4 soft decoder, 5 accumulator. A
diverted one also waits for its turn in the input and for hand-off buffers. -/
def Dev.readyFor (d : Dev) (g : RGran) (kind : Nat) : Bool :=
  let turn : Bool := match g.dest with
    | .divert w => d.divertMay w g
    | _ => true
  decide (g.lane = none) && (
    if kind = 2 then decide (g.stage = .decrypt) && turn
    else if kind = 3 then decide (g.stage = .decompress) && turn
    else if kind = 4 then decide (g.stage = .decode) && g.cws.any (fun c => !c.ok && decide (c.step = 3))
    else decide (g.stage = .rebuild))

/-- Functions with a granule ready for a lane kind. Granules of the device's own count with FIX 0 (log 106). -/
def Dev.laneWork (d : Dev) (kind fix : Nat) : Bool :=
  if kind ≤ 1 then d.wrp.grans.any (fun g => g.readyFor kind && decide (g.ref.fix = fix))
  else d.rdp.grans.any (fun g => d.readyFor g kind && decide (g.ref.fix = fix))

/-- Lanes of each kind, and the pool of their tokens. -/
def isLane (kind lane : Nat) : Bool :=
  if kind = 2 then decide (16 ≤ lane ∧ lane < 32) else if kind = 4 then decide (lane < 8)
  else if kind = 5 then decide (lane < 512) else decide (lane < 16)
def lanePool (kind : Nat) : Nat := if kind = 0 then 10 else if kind = 3 then 11 else if kind = 5 then 14 else 12

/-- Whether a lane of a kind takes no granule now, holds none for the next stage, and is in service. -/
def Dev.laneFree (d : Dev) (kind lane : Nat) : Bool :=
  let w (a next : WStage) : Bool := d.wrp.grans.any (fun g =>
    decide ((g.stage = a ∧ g.lane = some lane) ∨ (g.stage = next ∧ g.lane = none ∧ g.holds = some lane)))
  let r (a : RStage) : Bool := d.rdp.grans.any (fun g => decide (g.stage = a ∧ g.lane = some lane))
  let held : Bool := d.rdp.grans.any (fun g => decide (g.stage = .decompress ∧ g.lane = none ∧ g.holds = some lane))
  let served := !(fget d.mxt.lanes {} lane).retired
  isLane kind lane && (decide (kind = 4) || d.canIssue (lanePool kind) 0 1) && (
    if kind = 0 then !w .compress .encrypt
    else if kind = 1 then !w .encrypt .parity && served
    else if kind = 2 then !r .decrypt && !held && served
    else !r (if kind = 3 then .decompress else if kind = 4 then .decode else .rebuild))

/-- A lane takes a granule of the write pipeline: the lane of the stage before is free of it (R131). A compression lane's granule
takes WRITE_SEQ (R184). -/
def Dev.grantW (d : Dev) (kind lane : Nat) (g : WGran) : Dev :=
  let d := if kind = 1 then d.leaveLane g.id 10 else d
  d.modWg g.id (fun g => { g with lane := some lane, seq := if kind = 0 then d.jrn.next else g.seq })

/-- A lane takes a granule of the read pipeline; the hand-off buffers of a diverted one are taken as it begins to fill them. -/
def Dev.grantR (d : Dev) (kind lane : Nat) (g : RGran) : Dev :=
  let d := if kind = 3 ∧ g.holds.isSome then d.giveBack 12 0 1 else d
  let d := match g.dest with
    | .divert id => if kind = 3 then d.startFill id (match d.wb id with
        | some w => w.bufsFor g
        | none => 0) else d
    | _ => d
  d.modRg g.id (fun g => { g with lane := some lane, holds := if kind = 3 then none else g.holds })

/-- LANE_GRANT: a free lane takes a granule: functions by deficit round robin, within one the granule ready first. Lanes 16 to 31
of kind 2 are the decrypting lanes of MXT. -/
def execLaneGrant (kind lane : Nat) (s : State) : Host.Outcome State Fault Refusal :=
  act s fun d =>
    if 5 < kind ∨ d.laneFree kind lane = false then d
    else match (fget d.wrp.drr {} kind).next 32768 (d.laneWork kind) with
      | none => d
      | some (fix, drr) =>
        let d := { d with wrp := { d.wrp with drr := fset d.wrp.drr kind drr } }
        if kind ≤ 1 then
          match d.wrp.grans.find? (fun g => g.readyFor kind && decide (g.ref.fix = fix)) with
          | some g => (d.issue (lanePool kind) 0 1).grantW kind lane g
          | none => d
        else
          match d.rdp.grans.find? (fun g => d.readyFor g kind && decide (g.ref.fix = fix)) with
          | some g => (if kind = 4 then d else d.issue (lanePool kind) 0 1).grantR kind lane g
          | none => d

/-- The granule that an encrypting lane computes, and that of a decrypting one. -/
def Dev.laneW (d : Dev) (lane : Nat) : Option WGran :=
  d.wrp.grans.find? (fun g => decide (g.stage = .encrypt ∧ g.lane = some lane))
def Dev.laneR (d : Dev) (lane : Nat) : Option RGran :=
  d.rdp.grans.find? (fun g => decide (g.stage = .decrypt ∧ g.lane = some lane))

/-- The key that the granule in a lane of MXT needs: the key reference of its header and the serial; none where that resolves
to no key. -/
def Dev.laneKey (d : Dev) (lane : Nat) : Option (Nat × Nat) :=
  if lane < 16 then (d.laneW lane).map (fun g => (g.keyRef, g.keySerial))
  else (d.laneR lane).bind (fun g => (d.headerKey g).map (fun k => ((d.content g.entry).keyRef, k.1)))

def Dev.mxtLane (d : Dev) (n : Nat) : MxtLane := fget d.mxt.lanes {} n
def Dev.modLane (d : Dev) (n : Nat) (f : MxtLane → MxtLane) : Dev :=
  { d with mxt := { d.mxt with lanes := fmod d.mxt.lanes {} n f } }

/-- Whether a lane can compute its granule: its key cache holds the key (R335), or there is none to hold. -/
def Dev.laneHasKey (d : Dev) (lane : Nat) : Bool :=
  match d.laneKey lane with
  | some k => (d.mxtLane lane).keys.any (fun e => e.2 = k.2)
  | none => (d.laneR lane).isSome

/-- MXT_KEY_CACHE_MISS: the lane takes the key of its granule among its 64 (R335); a LOCKED key store gives none. -/
def execMxtKeyCacheMiss (lane : Nat) (s : State) : Host.Outcome State Fault Refusal :=
  act s fun d =>
    match d.laneKey lane with
    | some k =>
      if d.laneHasKey lane || d.key.locked then d else d.modLane lane (fun l => { l with keys := (k :: l.keys).take 64 })
    | none => d

/-- The two attempts of a lane on its two rails (R122): the counts, and the lane retired where both fail. -/
def Dev.rails (d : Dev) (lane : Nat) (first second : Bool) : Dev :=
  let d := { d with mxt := { d.mxt with
    railMismatch := satAdd 32 d.mxt.railMismatch (b2n (!first) + b2n (!first && !second)) } }
  let d := if !first && second then d.modLane lane (fun l => { l with mismatch := satAdd 8 l.mismatch 1 }) else d
  if first || second then d
  else (d.modLane lane (fun l => { l with retired := true })).transition (uid 6 lane) .retired .railMismatch

/-- XTS_LANE_COMPUTE: a lane ends a granule on two rails, with the verdicts of the first and, if need be, the second attempt (R122).
It holds its output until the next stage takes it (R132): an encrypted granule is placed in the set and group named, and its
path begins (R123, R124); a decrypted one waits for a decompression lane. -/
def execXtsLaneCompute (lane : Nat) (first second : Bool) (col set grp : Nat) (s : State) :
    Host.Outcome State Fault Refusal :=
  act s fun d =>
    if d.laneHasKey lane = false then d
    else
      let d := d.rails lane first second
      let good := first || second
      if lane < 16 then
        match d.laneW lane with
        | none => d
        | some g =>
          if good then
            let d := d.modWg g.id (fun g => { g with lane := none, holds := some lane, stage := .parity })
            ({ d with wrp := { d.wrp with storedBytes := d.wrp.storedBytes + 64 * g.units } }).place g.id col set grp
          else ((d.giveBack 12 0 1).modWg g.id (fun g => { g with lane := none })).wgReady g.id .encrypt
      else
        match d.laneR lane with
        | none => d
        | some g =>
          if good then
            (d.modRg g.id (fun h => { h with lane := none, holds := some lane, key := d.headerKey g })).rgReady g.id .decompress
          else ((d.giveBack 12 0 1).modRg g.id (fun g => { g with lane := none })).rgReady g.id .decrypt

/-! ## Checks (R127, R128) -/

/-- A merge read has passed: the uncovered LBAs are taken from it, and the write goes on (R115). -/
def Dev.mergeIn (d : Dev) (w : Nat) (data info : Bytes) : Dev :=
  match d.wg w with
  | none => d
  | some g =>
    let lbaf := match d.ns (gtagNsid g.gtag) with
      | some n => n.lbaf
      | none => 0
    let n := lbaSize lbaf
    let m := lbaMeta lbaf
    let pick (old new : Bytes) (k : Nat) : Bytes :=
      ((List.range (lbasPer lbaf)).map (fun i => slice (if i ∈ g.cover then new else old) (i * k) k)).flatten
    (d.modWg w (fun g => { g with data := pick data g.data n, info := pick info g.info m })).wgReady w .compress

/-- Whether the header checks that need no key hold (R127): the clear part is as it was written and names the granule. -/
def Stored.headOk (c : Stored) (gtag : Nat) (clear : List (Nat × Byte)) : Bool :=
  decide (arrive c.clearPart clear = c.clearPart ∧ c.gtag = gtag)

/-- One more granule in read staging (R135). -/
def Dev.countGranule (d : Dev) : Dev := { d with rdp := { d.rdp with granules := d.rdp.granules + 1 } }

/-- A granule has passed its checks. One that was rebuilt after they had failed is written again as a new copy (R127). -/
def Dev.checksPass (d : Dev) (g : RGran) : Dev :=
  let d := if g.checkFail.isSome then d.startCopy g.gtag g.entry else d
  match g.dest with
  | .merge w => (d.countGranule.endRg g).mergeIn w g.data g.info
  | .divert _ => d.modRg g.id (fun g => { g with stage := .deliver, checkFail := none })
  | .host => d.countGranule.modRg g.id (fun g => { g with stage := .deliver })
  | .repair => (d.endRg g).endRepair g.gtag
  | .move w => (d.endRg g).dropWg w
  | .compare | .verify =>
    (d.countGranule.endRg g).finishRead g.ref g.dest g.gtag g.data g.info g.first g.count g.hostPos

/-- A granule has failed its checks: it is rebuilt by step 4, once (R127); a diverted one is delivered with its verdict to
follow (R130). -/
def Dev.checksFail (d : Dev) (g : RGran) (size : Bool) : Dev :=
  let d := { d with
    rdp := { d.rdp with checkFail := satAdd 32 d.rdp.checkFail 1 }
    icm := { d.icm with lenMismatch := satAdd 32 d.icm.lenMismatch (b2n size) } }
  match g.dest with
  | .divert _ => d.modRg g.id (fun g => { g with stage := .deliver, checkFail := some size })
  | _ =>
    if d.rdp.reconA && g.checkFail.isNone then d.modRg g.id (fun g => { g.toStep4 true with checkFail := some size })
    else d.unrecovered g.id

/-- Whether a command is refused for the key reference in a header (R128). DESIGN CHOICE (log 109): the reference counts once the
clear part of the header stands, whatever the encrypted region turns out to be. -/
def RGran.keyRefused (g : RGran) (c : Stored) (headOk : Bool) : Bool :=
  headOk && decide (g.dest = .host ∨ g.dest = .compare ∨ g.dest = .verify) && decide (c.keyRef ≠ g.keyRef)

/-- GRANULE_DECOMPRESS: a decompression lane ends a granule and makes the checks of R127 on the bytes that have arrived. -/
def execGranuleDecompress (lane : Nat) (clear region : List (Nat × Byte)) (s : State) :
    Host.Outcome State Fault Refusal :=
  act s fun d =>
    match d.rdp.grans.find? (fun g => decide (g.stage = .decompress ∧ g.lane = some lane)) with
    | none => d
    | some g =>
      let c := d.content g.entry
      let (v, data, info) := c.verdict g.gtag (g.key.map (·.2)) clear region
      let g := { g with lane := none, data := data, info := info }
      let d := (d.giveBack 11 0 1).modRg g.id (fun _ => g)
      let d := { d with icm := { d.icm with dlane := fmod d.icm.dlane 0 lane (· + 1) } }
      if g.keyRefused c (c.headOk g.gtag clear) then
        let d := { d with rdp := { d.rdp with keyMismatch := satAdd 32 d.rdp.keyMismatch 1 } }
        (d.endRg g).partDone g.ref .accessDenied
      else match v with
        | .pass => d.checksPass g
        | .size => d.checksFail g true
        | .other => d.checksFail g false

/-- The granule whose transfer to the host comes next (R62, R128), with the round robin over the functions after it. -/
def Dev.nextDma (d : Dev) : Option (RGran × Drr) :=
  let mine (f : Nat) (g : RGran) : Bool := decide (g.stage = .deliver ∧ g.dest = .host ∧ g.ref.fix = f)
  match (fget d.wrp.drr {} 6).next 32768 (fun f => d.rdp.grans.any (mine f)) with
  | some (f, drr) => (d.rdp.grans.find? (mine f)).map (fun g => (g, drr))
  | none => none

/-- HOST_DMA_COMPLETE: a granule's data are in host memory, and its read staging credit is returned (R128, R131). The functions are
served in turn (R62); a granule of a function epoch that has ended transfers nothing (R65). -/
def execHostDmaComplete (id : Nat) (s : State) : Host.Outcome State Fault Refusal :=
  act s fun d =>
    match d.nextDma with
    | none => d
    | some (g, drr) =>
      if g.id = id then
        let d := ({ d with wrp := { d.wrp with drr := fset d.wrp.drr 6 drr } }).endRg g
        if g.epoch = (d.fn g.ref.fix).epoch then d.finishRead g.ref .host g.gtag g.data g.info g.first g.count g.hostPos else d
      else d

/-- A pSLC-path granule to be laid again takes the QLC path while pool 5 has no block for it (R214). -/
def Dev.repath (d : Dev) (id col b grp : Nat) : Dev :=
  d.modWg id (fun g => { g with pslc := g.pslc && (d.pslcPath || d.canPlace g col b grp) })

/-- CREDIT_GRANT: a unit that a granule waited for has been issued to it (R60, R131, R132): pool 2, or 3; or pool 4 or 14
has a unit for a granule that holds before its placement or its copy, which goes to the set and group named. -/
def execCreditGrant (pool id col set grp : Nat) (s : State) : Host.Outcome State Fault Refusal :=
  act s fun d =>
    if pool = 2 then
      match d.takeGrant 2 (.wgran id) with
      | some d => d.afterCredit id
      | none => d
    else if pool = 3 then
      match d.takeGrant 3 (.rgran id) with
      | some d => (d.modRg id (fun g => { g with hasR := true })).toMedia id
      | none => d
    else if pool = 4 ∨ pool = 14 then
      match d.wg id with
      | some g =>
        if g.stage ≠ .parity then d
        else if g.pga = 0 then (d.repath id col set grp).place id col set grp
        else if d.canIssue 4 0 1 then (d.issue 4 0 1).modWg id (fun g => { g with hasQ := true, stage := .qlcCopy })
        else d
      | none => d
    else d

/-! ## Map items -/

/-- Whether the page of an item can be read now. -/
def Dev.itemReads (d : Dev) (i : Item) : Bool := d.canRead (pgaDie i.ptr) (pgaBlock i.ptr)

/-- While more than RING_HIGH_PCT of the ring is held, flushes take precedence over loads for look-ups (R181): nothing is loaded
as long as a dirty item can be flushed. -/
def Dev.flushesFirst (d : Dev) : Bool :=
  let dirty (m : FMap Item) : Bool := m.any (fun p => p.2.dirty && (p.2.cached || !p.2.there))
  decide (d.jrn.highA * (d.pool 7).capacity < (d.pool 7).held * 100) &&
    (dirty d.map.leaves || dirty d.map.dirs || dirty d.map.chunkItems)

/-- MAP_ITEM_LOAD: a leaf (0), directory (1) or block-table chunk (2) is loaded, and what waited for a leaf goes on. Clean
leaves are evicted for it where the cache is full; it waits while only dirty items could go (R174). -/
def execMapItemLoad (kind index : Nat) (s : State) : Host.Outcome State Fault Refusal :=
  act s fun d =>
    let i := d.item kind index
    let dir := if kind = 0 then d.item 1 (dirOfLeaf index) else {}
    let missDir := decide (kind = 0) && dir.there && !dir.cached
    let keep := if kind = 0 then dirOfLeaf index else 1048576
    if i.cached || !i.there || decide (2 < kind) || d.flushesFirst || !d.itemReads i || (missDir && !d.itemReads dir) then d
    else match d.roomFor (d.itemChunks kind index + (if missDir then 9 else 0)) keep with
    | none => d
    | some d =>
      let d := { d with map := { d.map with
        misses := d.map.misses + b2n (decide (kind = 0)), dirMisses := d.map.dirMisses + b2n (missDir || decide (kind = 1)) } }
      let d := if missDir then
          (d.modItem 1 (dirOfLeaf index) (fun i => { i with cached := true, chunks := 9 })).readPages (pgaDie dir.ptr)
            (pgaBlock dir.ptr) 1 4
        else d
      let d := d.readPages (pgaDie i.ptr) (pgaBlock i.ptr) 1 4
      let d := (d.modItem kind index (fun i => { i with cached := true, chunks := d.itemChunks kind index })).useItem kind index
      if kind = 0 then
        let waiting := (d.rdp.grans.filter (fun g => decide (g.stage = .lookup ∧ leafOf g.gtag = index))).map (·.id)
        (d.forEach waiting (fun d i => d.routeRead i)).retryStage2
      else d

end Sys2Proof.Machine
end

