-- ==== Sys2Proof/Machine/Media.lean ====
section
/-! DEFINITION. Programs, erases, time-outs and suspensions of the dies (R148 to R155), channel training (R141), garbage
collection and folding (R191), checkpoints and item flushes (R181), patrol (R222 to R225). -/

namespace Sys2Proof.Machine

/-- An erase failure (R150, R190). -/
def Dev.eraseFailure (d : Dev) (die b reason : Nat) : Dev :=
  (d.modChan (chanOf die) (fun c => { c with ersFail := satAdd 32 c.ersFail 1 })).retireBlock die b reason

/-- The running operation of a die ends. A host or merge read that waits for the die runs next (R153). -/
def Dev.endOp (d : Dev) (die : Nat) : Dev :=
  let d := d.modDie die (fun x => { x with op := none })
  ((d.modDie die (fun x => { x with readNext := d.readWaits die 8160 })).endTag (chanOf die)).startNext die

/-! ## Programs and erases -/

/-- STRIPE_SEALED: all parity members have verified (R208). -/
def Dev.sealStripe (d : Dev) (s : Stripe) : Dev :=
  let left := d.par.stripes.filter (fun t => !t.is s.k s.b s.u)
  ((({ d with par := { d.par with stripes := left, sealedCount := d.par.sealedCount + 1 } }).giveBack 14 0 1).record 5
    s.ident 0 0 0).finishGrans

/-- NAND_PROGRAM_COMPLETE: the status of a program, and the verdict of the read check (R149). An operation that a suspend found
complete ends here too (R153). -/
def execNandProgramComplete (die : Nat) (pass verifyOk : Bool) (s : State) : Host.Outcome State Fault Refusal :=
  act s fun d =>
    match (d.die die).op with
    | none => d
    | some o =>
      if o.kind = .erase ∨ o.suspended = 1 ∨ o.suspended = 2 then d
      else
        let b := o.block
        let pages := d.puUnits (colOf die) (d.blk die b).mode / 256
        let d := if pass && decide (o.kind ≠ .pslcProgram) && d.mch.verifyA then d.readPages die b pages pages else d
        let d := d.endOp die
        if pass && (decide (o.kind = .pslcProgram) || !d.mch.verifyA || verifyOk) then
          let d := d.modChan (chanOf die) (fun c => { c with programs := c.programs + 1 })
          let g := groupOf die
          let d := match d.stripe (colOf die) b o.pu with
            | none => d
            | some s =>
              if g ∈ s.parityLeft then
                let left := s.parityLeft.filter (· ≠ g)
                let d := d.modStripe (colOf die) b o.pu (fun s => { s with parityLeft := left })
                if left.isEmpty then d.sealStripe s else d
              else d.modStripe (colOf die) b o.pu (fun s => { s with members := setIns s.members g })
          (d.lastPu die b o.pu).afterVerify
        else d.programFailure die b 1

/-- Forgets what a block held: its stream, its stored granules and its read count. -/
def Dev.wipeBlock (d : Dev) (die b : Nat) : Dev :=
  let d := (d.setFill die b 0).modBlk die b (fun k => { k with reads := 0, valid := 0 })
  let other (a : Nat) : Bool := !decide (pgaDie a = die ∧ pgaBlock a = b)
  { d with mch := { d.mch with
             stored := d.mch.stored.filter (fun p => other p.1), pages := d.mch.pages.filter (fun p => other p.1)
             parity := d.mch.parity.filter (fun p => decide (p.1 / 65536 ≠ blkKey die b))
             given := fset d.mch.given (blkKey die b) 0 },
           outr := { d.outr with queue := d.outr.queue.filter (· ≠ (die, b)) } }

/-- An erase passes: the block is FREE with one more erase, and the pools let go of it (R190). -/
def Dev.eraseDone (d : Dev) (die b : Nat) : Dev :=
  let k := d.blk die b
  let d := d.modChan (chanOf die) (fun c => { c with erases := c.erases + 1 })
  let d := (d.wipeBlock die b).modBlk die b (fun k => { k with pe := min (k.pe + 1) 262143 })
  (d.blockState die b 0 0).releaseBlock k

/-- The set of a block is in use: a block of it is OPEN or FULL. -/
def Dev.setInUse (d : Dev) (col b : Nat) : Bool :=
  (List.range 8).any (fun g => decide ((d.blk (dieOf col g) b).state = 1 ∨ (d.blk (dieOf col g) b).state = 2))

/-- The next block of a die that R220 sends to ERASE_QUEUED: neither spare, nor of a FULL set, nor void in a set in use
(R206). -/
def Dev.nextFresh (d : Dev) (n p : Nat) : Option Nat :=
  (List.range (d.die n).geo.blocks).find? (fun b => decide (p ≤ b ∧ b ∉ (d.die n).spares ∧ (d.blk n b).state ≠ 3) &&
    !((d.blk n b).needs || decide ((d.blk n b).state = 0) && d.setInUse (colOf n) b))

/-- R220 reaches the next block of a die of an admitted group: it goes to ERASE_QUEUED. -/
def Dev.admitNext (d : Dev) (n : Nat) : Dev :=
  match (d.die n).fresh with
  | none => d
  | some p => match d.nextFresh n p with
    | none => d.modDie n (fun x => { x with fresh := none })
    | some b =>
      let st := (d.blk n b).state
      let d := d.modDie n (fun x => { x with fresh := some (b + 1) })
      let d := if st = 4 then d.modPool 6 (fun q => { q with capacity := q.capacity + 1 }) else d
      let d := if st = 0 ∨ st = 4 then d.issue 6 0 1 else d
      let d := d.modBlk n b (fun k => { k with use := if st = 0 ∨ st = 4 then 3 else k.use })
      d.blockState n b 3 0

/-- NAND_ERASE_COMPLETE: the status of an erase (R150, R190). -/
def execNandEraseComplete (die : Nat) (pass : Bool) (s : State) : Host.Outcome State Fault Refusal :=
  act s fun d =>
    match (d.die die).op with
    | none => d
    | some o =>
      if o.kind ≠ .erase ∨ o.suspended = 1 ∨ o.suspended = 2 then d
      else
        let d := d.endOp die
        (if pass then d.eraseDone die o.block else d.eraseFailure die o.block 2).admitNext die

/-- Ends the running operation of a die as failed (R150). -/
def Dev.failOp (d : Dev) (die reason : Nat) : Dev :=
  match (d.die die).op with
  | some o =>
    let d := d.endOp die
    if o.kind = .erase then d.eraseFailure die o.block reason else d.programFailure die o.block reason
  | none => d

/-- NAND_OPERATION_TIMEOUT: the running operation of a die (`read` none), or a read of it that a granule waits for, a first read or
one of step 2 or 3, has timed out (R150). -/
def execNandOperationTimeout (die us : Nat) (read : Option Nat) (s : State) : Host.Outcome State Fault Refusal :=
  act s fun d =>
    match read with
    | none => if (d.die die).op.isSome then d.timeOut die us (fun d => d.failOp die 4) else d
    | some id =>
      let hit (g : RGran) : Bool := decide (g.id = id ∧ pgaDie g.entry.pga = die) && g.wantsDie
      if d.rdp.grans.any hit then d.timeOut die us (fun d => d.failReads hit) else d

/-! ## Suspensions (R151 to R153) -/

/-- Issues a suspension of the running operation after it has run for `us`. -/
def Dev.suspend (d : Dev) (die us minRun maxSusp : Nat) : Dev :=
  match (d.die die).op with
  | none => d
  | some o =>
    if o.suspended = 0 ∧ d.readWaits die o.block ∧ minRun * 10 ≤ us ∧ o.suspends < maxSusp then
      ((d.modDie die (fun x => { x with op := some { o with
        suspended := 1, suspends := o.suspends + 1, ranUs := us, reads := 0 } })).modChan (chanOf die)
        (fun c => { c with suspends := satAdd 32 c.suspends 1 })).tell .suspend die o.block
    else d

/-- ERASE_SUSPEND: `us` is the time since the erase began or was last resumed. -/
def execEraseSuspend (die us : Nat) (s : State) : Host.Outcome State Fault Refusal :=
  act s fun d =>
    match (d.die die).op with
    | some o => if o.kind = .erase then d.suspend die us d.mch.ersMinRunA d.mch.ersMaxSuspA else d
    | none => d

/-- PROGRAM_SUSPEND: for QLC and TLC programs; a pSLC program is never suspended. -/
def execProgramSuspend (die us : Nat) (s : State) : Host.Outcome State Fault Refusal :=
  act s fun d =>
    match (d.die die).op with
    | some o => if o.kind = .program then d.suspend die us d.mch.pgmMinRunA d.mch.pgmMaxSuspA else d
    | none => d

/-- SUSPEND_READY: the die is ready in the suspended state; or its status shows the operation already complete: then no resume
follows, the operation ends with its status, and the suspend is not counted, neither against the limits of R151 nor, DESIGN
CHOICE (log 113), by MCH_CHc_SUSPENDS (R153). -/
def execSuspendReady (die : Nat) (completed : Bool) (s : State) : Host.Outcome State Fault Refusal :=
  act s fun d =>
    match (d.die die).op with
    | some o =>
      if o.suspended ≠ 1 then d
      else if completed then
        (d.modDie die (fun x => { x with op := some { o with suspended := 3, suspends := o.suspends - 1 } })).modChan
          (chanOf die) (fun c => { c with suspends := c.suspends - 1 })
      else d.modDie die (fun x => { x with op := some { o with suspended := 2 } })
    | none => d

/-- SUSPEND_RESUME: once SUSP_MAX_READS reads have run, or earlier if no read waits. -/
def execSuspendResume (die : Nat) (s : State) : Host.Outcome State Fault Refusal :=
  act s fun d =>
    match (d.die die).op with
    | some o =>
      let waits := d.rdp.grans.any (fun g => g.wantsDie && decide (pgaDie g.entry.pga = die ∧ pgaBlock g.entry.pga ≠ o.block))
      if o.suspended = 2 ∧ (d.mch.suspMaxReadsA ≤ o.reads ∨ waits = false) then
        (d.modDie die (fun x => { x with op := some { o with suspended := 0, ranUs := 0, reads := 0 } })).tell .resume die o.block
      else d
    | none => d

/-! ## Channels (R138, R141) -/

/-- Dies of a channel, and channels of a group. -/
def diesOfChan (c : Nat) : List Nat := (List.range 64).map (· + 64 * c)
def chansOfGroup (g : Nat) : List Nat := (List.range 8).map (· + 8 * g)
def diesOfGroup (g : Nat) : List Nat := (List.range 512).map (· + 512 * g)

/-- Chip enables of a channel with a die that was identified. -/
def Dev.cesOf (d : Dev) (c : Nat) : List Nat :=
  (List.range 4).filter (fun e => (diesOfChan c).any (fun n => decide (ceOf n = e) && (d.die n).present))

/-- Dies alive of a channel, and chip enables with dies, for MCH_CHc_STATUS (R166; DESIGN CHOICE: CE is their number, log 115). -/
def Dev.countDies (d : Dev) (c : Nat) : Dev :=
  let alive := (diesOfChan c).filter (fun n => d.dieAlive n)
  let ces := d.cesOf c
  d.modChan c (fun c => { c with dies := alive.length, ce := ces.length })

/-- A channel fails at 800 MT/s: it is retired, its dies are absent and their columns stranded, and with the group's last channel
the group is retired (R141, R217, R228). -/
def Dev.retireChan (d : Dev) (c : Nat) : Dev :=
  let had := (diesOfChan c).filter (fun n => d.dieAlive n)
  let d := d.transition (uid 3 c) .retired .trainFail
  let d := d.forEach (diesOfChan c) (fun d n => (d.modDie n (fun x => { x with present := false })).transition (uid 4 n) .absent .parent)
  let d := d.countDies c
  let g := c / 8
  if (chansOfGroup g).all (fun x => decide ((d.unit (uid 3 x)).state = .retired)) ∧ (d.unit (uid 5 g)).state ≠ .absent then
    d.transition (uid 5 g) .retired .allChannels
  else d.forEach had (fun d n => d.strandColumn (colOf n))

/-- The first die of a chip enable of a channel. -/
def ceDie (c e : Nat) : Nat := 64 * c + 16 * e

/-- One training of a channel, in the order of R141: ZQ Calibration Long on each chip enable, duty-cycle correction through Set
Features and read bursts, read DQ training, write DQ training. -/
def Dev.trainOnce (d : Dev) (c : Nat) : Dev :=
  let d := d.forEach (d.cesOf c) (fun d e => d.tell .zqLong (ceDie c e) 0)
  (((d.tell .setFeatures (64 * c) 0).tell .read (64 * c) 0).tell .readDqTraining (64 * c) 0).tell .writeDqTraining (64 * c) 0

/-- CHANNEL_TRAINING: training at the highest rate allowed, stepping down after each failure; `passing` are the rates at
which every step passes, `tj` the junction temperature (R141). A channel of a group in service changes state at once; either way its
status has changed (R367). -/
def execChannelTraining (chan : Nat) (passing : List Nat) (tj : Int) (s : State) : Host.Outcome State Fault Refusal :=
  act s fun d =>
    if 64 ≤ chan ∨ (d.grp (chan / 8)).pgood = false ∨ (d.grp (chan / 8)).drivers = false then d
    else
      let d := d.srcEvent (96 + chan)
      let top := d.mch.maxRateA
      match ((List.range (top + 1)).reverse).find? (fun r => decide (r ∈ passing)) with
      | none =>
        ((iter (top + 1) (fun d => d.trainOnce chan) d).modChan chan (fun c => { c with
          trained := false, nvLpddr4 := false, retrains := satAdd 32 c.retrains (top + b2n c.trained) })).retireChan chan
      | some r =>
        let d := (iter (top + 1 - r) (fun d => d.trainOnce chan) d).modChan chan (fun c => { c with
          rate := r, trained := true, nvLpddr4 := true, trainTj := tj
          retrains := satAdd 32 c.retrains (top - r + b2n c.trained) })
        if (d.unit (uid 3 chan)).state = .alive ∨ (d.unit (uid 3 chan)).state = .degraded then
          if r = 4 then d.transition (uid 3 chan) .alive .none else d.transition (uid 3 chan) .degraded .rateDown
        else d

/-- ZQ_CALIBRATION_TIMER: ZQ Calibration Short on every chip enable of an active channel (R141). -/
def execZqCalibrationTimer (chan : Nat) (s : State) : Host.Outcome State Fault Refusal :=
  act s fun d =>
    let c := d.chan chan
    if c.trained && decide ((d.unit (uid 3 chan)).state = .alive ∨ (d.unit (uid 3 chan)).state = .degraded) then
      (d.modChan chan (fun c => { c with zq := c.zq + c.ce })).forEach (d.cesOf chan) (fun d e => d.tell .zqShort (ceDie chan e) 0)
    else d

/-- READ_DQ_RETRAIN: Tj has moved more than 10 °C since the last training (R141). -/
def execReadDqRetrain (chan : Nat) (tj : Int) (s : State) : Host.Outcome State Fault Refusal :=
  act s fun d =>
    let c := d.chan chan
    if c.trained && decide (10 < (tj - c.trainTj).natAbs) then
      (d.modChan chan (fun c => { c with trainTj := tj, retrains := satAdd 32 c.retrains 1 })).tell .readDqTraining (64 * chan) 0
    else d

/-! ## Garbage collection and folding (R191) -/

/-- GC candidates of a class: 0 data blocks in TLC or QLC mode, 1 map blocks, 2 image blocks. -/
def Dev.gcCandidates (d : Dev) (cls : Nat) : FMap Block :=
  d.map.blocks.filter (fun p =>
    let k := p.2
    decide (k.state = 2 ∧ k.valid * 100 ≤ d.blockUnits (colOf (p.1 / 8160)) k.mode * d.victimMaxPct) && !d.filling p.1 &&
      (if cls = 0 then decide (k.use ≤ 1 ∧ k.mode ≠ 0) else if cls = 1 then decide (k.use = 2) else decide (k.use = 3)))

/-- The least valid block; ties go to the lower die, then the lower block, which is the order of the keys. -/
def leastValid (l : FMap Block) : Option (Nat × Block) :=
  match l with
  | [] => none
  | p :: t => match leastValid t with
    | some q => if q.2.valid < p.2.valid then some q else some p
    | none => some p

/-- GC_VICTIM_SELECT: below GC_START_BP the victim's granules are moved; a block without valid units goes to
ERASE_QUEUED instead (R190, R191). -/
def execGcVictimSelect (cls : Nat) (s : State) : Host.Outcome State Fault Refusal :=
  act s fun d =>
    if 2 < cls ∨ d.freeBelow d.gcStartBp = false then d
    else match leastValid (d.gcCandidates cls) with
      | none => d
      | some (key, k) =>
        if k.valid = 0 then d.sweepBlock key
        else d.moveBlock (key / 8160) (key % 8160) 1

/-- Full pSLC data blocks with granules to fold, the one closed first. -/
def Dev.oldestPslc (d : Dev) : Option (Nat × Block) :=
  (d.map.blocks.filter (fun p => decide (p.2.state = 2 ∧ p.2.mode = 0 ∧ p.2.use ≤ 1 ∧ p.2.valid ≠ 0))).foldl (fun a p => match a with
    | none => some p
    | some q => if p.2.closedAt < q.2.closedAt then some p else some q) none

/-- PSLC_FOLD_START: the oldest closed pSLC block is folded into QLC (R191). -/
def execPslcFoldStart (s : State) : Host.Outcome State Fault Refusal :=
  act s fun d =>
    let full := decide (d.pslcSize * d.tf 2 0x28 1 ≤ d.pslcHeld * 100)
    if full || d.freeBelow d.gcStartBp then
      match d.oldestPslc with
      | some (key, _) => d.moveBlock (key / 8160) (key % 8160) 2
      | none => d
    else d

/-! ## Checkpoints and flushes (R181, R182) -/

/-- The oldest record still needed, or the next one. -/
def Dev.oldestNeeded (d : Dev) : Nat := match d.jrn.ring.find? d.needed with
  | some r => r.seq
  | none => d.jrn.next

/-- Pages of a list of records: those whose first slot begins a page, and the page the list starts in. -/
def pagesOfRing (l : List JRec) : Nat := match l with
  | [] => 0
  | _ :: t => 1 + (t.filter (fun x => decide (x.slot % pageSlots = 0))).length

/-- The superblock that a checkpoint writes (R182). -/
def Dev.newSuper (d : Dev) : Super :=
  let head := d.oldestNeeded
  { gen := d.jrn.gen + 1, head := head, next := d.jrn.next, epoch := d.clk.epoch, good := true
    slot := match d.jrn.ring.find? (fun r => r.seq = head) with
      | some r => r.slot
      | none => d.jrn.slot }

/-- A checkpoint: the tracked sets are saved, the superblock that was not written last is written with HEAD_SEQ, pages below the
head return to pool 7, and counts, zone stamps and TIME_LAST are written (R181 to R183, R222, R157). -/
def Dev.checkpoint (d : Dev) : Dev :=
  let sb := d.newSuper
  let needed := d.jrn.ring.filter (fun r => decide (sb.head ≤ r.seq))
  let held := (d.pool 7).held
  let keep := pagesOfRing needed + (if needed.isEmpty ∧ d.jrn.slot % pageSlots ≠ 0 then 1 else 0)
  let upTo := match (d.jrn.ring.filter (·.durable)).getLast? with
    | some r => r.seq
    | none => d.jrn.next - 1
  let dies : FMap Die := d.mch.dies.map (fun p => (p.1, { p.2 with saved := p.2.offsets }))
  let nss : FMap (Option Ns) := d.nvm.nss.map (fun p => (p.1, p.2.map (fun n => { n with
    countSeq := upTo, counted := (n.mapped, n.mappedUnits) })))
  let j := { d.jrn with head := sb.head, supers := fset d.jrn.supers (1 - d.jrn.last) sb }
  let old := j.ring.filter (fun r => decide (r.seq < j.keepFrom))
  let d := { d with
    fab := { d.fab with mram := old.foldl (fun m (r : JRec) => mwrite m (0x400000 + 64 * r.slot) r.bytes) d.fab.mram }
    mch := { d.mch with dies := dies }
    nvm := { d.nvm with nss := nss }
    clk := { d.clk with timeLast := d.nowMs }
    outr := { d.outr with saved := d.outr.stamps }
    par := { d.par with availSaved := (d.par.poweredMs, d.par.unavailMs) }
    jrn := { j with ring := j.ring.filter (fun r => decide (j.keepFrom ≤ r.seq)) } }
  (d.giveBack 7 0 (held - keep)).pumpRecords 16

/-- JOURNAL_CHECKPOINT, every CHECKPOINT_MS while the journal runs. -/
def execJournalCheckpoint (s : State) : Host.Outcome State Fault Refusal :=
  act s fun d => if d.nvm.ready && !d.nvm.noSuperblock then d.checkpoint else d

/-- Takes `n` pSLC pages in set (K, b) on a group for a USE, in an open block or one opened now: their first address.
Their stripes open with a unit of pool 14 each, as those of user data do (R170, R236). -/
def Dev.placePages (d : Dev) (col b grp use n : Nat) : Option (Dev × Nat) :=
  let die := dieOf col grp
  let ok := d.isOpenFor die b 0 use false
  if decide (8 ≤ grp ∨ 512 ≤ col) || (!ok && !d.canOpenFor col b 0 use false) then none
  else
    let d := if ok then d else d.openSet col b 0 use false
    let unit := d.fillOf die b
    let us := d.pusOf (pgaOf 0 die b unit) (256 * n)
    if !d.isOpenFor die b 0 use false || decide (d.streamUnits die b 0 < unit + 256 * n) ||
        !d.canIssue 14 0 (us.filter (fun u => (d.stripe col b u).isNone)).length then none
    else
      let d := (d.setFill die b (unit + 256 * n)).forEach us (fun d u => d.openStripe col b u 0)
      some (d, pgaOf 0 die b unit)

/-- What is laid in the pages just taken: its bytes, and the record of what their verification brings about. -/
def Dev.layPages (d : Dev) (l : Laying) (b : Bytes) : Dev :=
  let pages := (List.range l.pages).foldl (fun m i => fset m (l.pga + 256 * i) (slice b (16384 * i) 16384)) d.mch.pages
  ({ d with mch := { d.mch with pages := pages }, map := { d.map with laying := d.map.laying ++ [l] } }).pushSet
    (colOf (pgaDie l.pga)) (pgaBlock l.pga) setUnits

/-- The bytes of the pages from an address on. -/
def Dev.pagesAt (d : Dev) (pga n : Nat) : Bytes :=
  ((List.range n).map (fun i => fget d.mch.pages (zeroBytes 16384) (pga + 256 * i))).flatten

/-- An image that GC moves is written again elsewhere (R191, R236); it has its new address once that is verified. -/
def Dev.moveImage (d : Dev) (slot col b grp : Nat) : Dev :=
  match fget d.hrt.images none slot with
  | none => d
  | some im =>
    if im.moving = false ∨ d.map.laying.any (fun l => decide (l.kind = 3 ∧ l.index = slot)) then d
    else match d.placePages col b grp 3 im.pages with
      | none => d
      | some (d, pga) => d.layPages { kind := 3, index := slot, pga := pga, pages := im.pages } (d.pagesAt im.pga im.pages)

/-- Whether an item is being written, or its ITEM_FLUSHED record is not durable yet. -/
def Dev.flushPends (d : Dev) (kind ix : Nat) : Bool :=
  d.map.laying.any (fun l => decide (l.kind = kind ∧ l.index = ix)) ||
    d.jrn.pends (fun r => decide (r.ty = 4 ∧ r.a % 2 ^ 60 = ix ∧ kindOf (bitsOf r.a 60 4) = kind))

/-- Whether an item can be flushed now: it is dirty, and in the cache where it exists on the media. -/
def Dev.flushable (d : Dev) (kind ix : Nat) : Bool :=
  let i := d.item kind ix
  i.dirty && (i.cached || !i.there) && !d.flushPends kind ix

/-- Whether no other item that can be flushed has an older pending record (R181). -/
def Dev.flushTurn (d : Dev) (kind ix : Nat) : Bool :=
  let n := (d.item kind ix).oldest
  let none' (k : Nat) (m : FMap Item) : Bool := m.all (fun p => decide (n ≤ p.2.oldest) || !d.flushable k p.1)
  none' 0 d.map.leaves && none' 1 d.map.dirs && none' 2 d.map.chunkItems

/-- MAP_ITEM_FLUSH: the dirty item with the oldest pending record (kind 0 leaf, 1 directory, 2 chunk) is laid in a map page of set
(K, b) on a group; its ITEM_FLUSHED record follows the verification (R149, R172, R181). Kind 3 is an image that GC moves, of slot
`index`. -/
def execMapItemFlush (kind index col set grp : Nat) (s : State) : Host.Outcome State Fault Refusal :=
  act s fun d =>
    if kind = 3 then d.moveImage index col set grp
    else if decide (2 < kind) || !d.flushable kind index || !d.flushTurn kind index then d
    else match d.placePages col set grp 2 1 with
      | none => d
      | some (d, pga) =>
        let seq := d.appliedSeq kind index
        d.layPages { kind := kind, index := index, pga := pga, code := d.kindCode kind index, seq := seq }
          (d.itemPage kind index seq)

/-! ## Patrol (R222 to R225) -/

/-- Zone of a block, and its stamp. -/
def zoneOf (col b : Nat) : Nat := 128 * col + b / 64
def Dev.stampOf (d : Dev) (z : Nat) : Nat := fget d.outr.stamps 0 z

/-- The zone with the oldest stamp, the lowest number on a tie: unstamped zones first. -/
def Dev.oldestZone (d : Dev) : Nat :=
  let pick (a : Nat × Nat) (z : Nat) : Nat × Nat := if d.stampOf z < a.2 then (z, d.stampOf z) else a
  ((List.range 65536).foldl pick (0, d.stampOf 0)).1

/-- Age of a zone in hours; a negative age counts as 0. -/
def Dev.ageHours (d : Dev) (z : Nat) : Nat := d.nowMs / 3600000 - d.stampOf z

/-- Whether a block holds programmed pages. -/
def Dev.written (d : Dev) (die b : Nat) : Bool := decide ((d.blk die b).state = 1 ∨ (d.blk die b).state = 2)

/-- Programmed pages of a block, parity members included: those of the program units given to its die and ended. -/
def Dev.programmedPages (d : Dev) (die b : Nat) : Nat :=
  let x := d.die die
  let left := ((x.op.toList ++ x.queue).filter (fun o => decide (o.kind ≠ .erase ∧ o.block = b))).length
  (d.givenOf die b - left) * d.puUnits (colOf die) (d.blk die b).mode / 256

/-- OPEN and FULL blocks of a zone that can be read; missing members and void ones are skipped (R223). -/
def Dev.zoneBlocks (d : Dev) (z : Nat) : List (Nat × Nat) :=
  let l := (d.map.blocks.filter (fun p => decide (p.2.state = 1 ∨ p.2.state = 2))).map (fun p => (p.1 / 8160, p.1 % 8160))
  l.filter (fun p => decide (zoneOf (colOf p.1) p.2 = z) && !d.missing (colOf p.1) p.2 (groupOf p.1))

/-- One sample of a patrol, read through steps 1 to 3 of R126. A block in erase answers BLOCK_IN_ERASE without data (R154). -/
def Dev.patrolSample (d : Dev) (x : PatrolRead) : Dev :=
  let die := x.die
  let b := x.block
  if (d.blk die b).state = 3 then
    ({ d with mch := { d.mch with blockInErase := satAdd 32 d.mch.blockInErase 1 } }).emit (.blockInErase die b)
  else if !d.written die b then d
  else
    let d := { d with outr := { d.outr with samples := d.outr.samples + 1 } }
    let d := (d.climb die b (d.blk die b).mode x.found).1
    if decide (x.found ≠ .first) || decide (d.tf 4 0x3C 2 < x.bits) then d.queueRefresh die b else d

/-- The patrol of one block: one sample codeword of every programmed page. Those of `found` are as it says, at most one a page; the
others decode at step 1 with no more than REFRESH_BITS corrected. -/
def Dev.patrolBlock (d : Dev) (die b : Nat) (found : List PatrolRead) : Dev :=
  let pages := d.programmedPages die b
  let mine := (found.filter (fun x => decide (x.die = die ∧ x.block = b))).take pages
  let n := pages - mine.length
  let d := d.forEach mine Dev.patrolSample
  if n = 0 then d else ({ d with outr := { d.outr with samples := d.outr.samples + n } }).readPages die b n n

/-- PATROL_ZONE: the zone with the oldest stamp is patrolled and stamped (R223, R224), once its dies can read. `samples` are those
that decode other than at step 1 or with more bits than REFRESH_BITS, and reads of blocks in erase. -/
def execPatrolZone (samples : List PatrolRead) (s : State) : Host.Outcome State Fault Refusal :=
  act s fun d =>
    let z := d.oldestZone
    if !bit (d.tf 4 0x20 4) 0 || !d.domOn .data || !(d.zoneBlocks z).all (fun p => d.canRead p.1 p.2) then d
    else
      let d := d.forEach (samples.filter (fun x => decide ((d.blk x.die x.block).state = 3))) Dev.patrolSample
      let d := d.forEach (d.zoneBlocks z) (fun d p => d.patrolBlock p.1 p.2 samples)
      { d with outr := { d.outr with stamps := fset d.outr.stamps z (d.nowMs / 3600000) } }

end Sys2Proof.Machine
end

