-- ==== Sys2Proof/Machine/Cartridge.lean ====
section
/-! DEFINITION. Cartridge groups: presence, power, admission and identification (R142, R162, R163), prepared and surprise
removal (R164, R165, R214, R217 to R219), rebuild (R220, R221), and the move to quiesced (R440). -/

namespace Sys2Proof.Machine

/-! ## States of a group and of what lies below it -/

/-- The group's channels and dies that are not absent become absent (R437). DESIGN CHOICE (log 116): the next training of a channel
is again its first for MCH_CHc_RETRAINS (R166). -/
def Dev.belowAbsent (d : Dev) (g : Nat) (rs : Reason) : Dev :=
  let d := d.forEach (chansOfGroup g) (fun d c =>
    let d := d.modChan c (fun c => { c with trained := false, nvLpddr4 := false, dies := 0, ce := 0, vols := [] })
    if (d.unit (uid 3 c)).state = .absent then d else d.transition (uid 3 c) .absent rs)
  d.forEach (diesOfGroup g) (fun d n =>
    if (d.unit (uid 4 n)).state = .absent then d
    else (d.modDie n (fun x => { x with present := false })).transition (uid 4 n) .absent rs)

/-- Drives CARTg_PWREN. -/
def Dev.drivePwren (d : Dev) (g : Nat) (on : Bool) : Dev :=
  if (d.grp g).pwren == on then d else (d.modGrp g (fun c => { c with pwren := on })).emit (.pin .cartPwren g on)

/-- Sets the channel drivers of a group: enabled, or at high impedance (R163 to R165). -/
def Dev.setDrivers (d : Dev) (g : Nat) (on : Bool) : Dev := d.modGrp g (fun c => { c with drivers := on })

/-- Drives CARTg_ATTN_N; `safe` is the low level. -/
def Dev.driveAttn (d : Dev) (g : Nat) (safe : Bool) : Dev :=
  if (d.grp g).safe == safe then d else (d.modGrp g (fun c => { c with safe := safe })).emit (.pin .cartAttn g (!safe))

/-- Dies of a group with something to do or to keep. -/
def Dev.diesKnown (d : Dev) (g : Nat) : List Nat := (d.mch.dies.filter (fun p => decide (groupOf p.1 = g))).map (·.1)

/-- Sets with an OPEN block on a group. -/
def Dev.openOn (d : Dev) (g : Nat) : List (Nat × Nat) :=
  (d.map.blocks.filter (fun p => decide (p.2.state = 1 ∧ groupOf (p.1 / 8160) = g))).map (fun p =>
    (colOf (p.1 / 8160), p.1 % 8160))

/-- Whether a group is quiesced with reason PREPARED. -/
def Dev.prepared (d : Dev) (g : Nat) : Bool :=
  decide ((d.unit (uid 5 g)).state = .quiesced ∧ (d.unit (uid 5 g)).reason = .prepared)

/-- Whether a group is degraded with reason REBUILD. -/
def Dev.rebuilding (d : Dev) (g : Nat) : Bool :=
  decide ((d.unit (uid 5 g)).state = .degraded ∧ (d.unit (uid 5 g)).reason = .rebuild)

/-- The rebuild pointer in the layout of PAR_Gg_REBUILD (R230). -/
def Dev.pointerWord (d : Dev) (g : Nat) : Nat :=
  let p := fget d.par.pointers (0, 0) g
  p.1 % 512 + 512 * (p.2 % 65536) + 2 ^ 25 * b2n (d.rebuilding g)

/-- DETAIL of a group's record follows its rebuild pointer (R436). -/
def Dev.keepPointer (d : Dev) (g : Nat) : Dev :=
  let w := d.pointerWord g
  let d := d.modUnit (uid 5 g) (fun u => { u with detail := w })
  let u := d.unit (uid 5 g)
  { d with mnf := { d.mnf with copy := if d.domOn .data then fset d.mnf.copy (uid 5 g) u else d.mnf.copy } }

/-- Granule reads on a group go to step 4 of R126: all of them, or those that have not started. -/
def Dev.readsToStep4 (d : Dev) (g : Nat) (all : Bool) : Dev :=
  d.failReads (fun r => decide (groupOf (pgaDie r.entry.pga) = g) && (all || (decide (r.stage = .media) && !r.tag)))

/-! ## Surprise removal and loss of power (R165, R214) -/

/-- Data members already programmed on a group in the open stripes of a set: each is recovered (R214, step 1). -/
def Dev.recoverable (d : Dev) (g col b : Nat) : Nat :=
  (d.par.stripes.filter (fun s => decide (s.k = col ∧ s.b = b ∧ g ∈ s.members))).length

/-- GROUP_LOSS_STRIPE_REWRITE: every open set with a non-void block on the group is closed; granules that no completed
command covers are laid again. -/
def Dev.groupLost (d : Dev) (g : Nat) : Dev :=
  d.forEach (d.openOn g) (fun d p =>
    let n := d.recoverable g p.1 p.2
    { d with par := { d.par with accRecovered := satAdd 32 d.par.accRecovered n } }.closeSet p.1 p.2 9)

/-- Everything queued or running on the dies of a group ends as failed; tags return. -/
def Dev.dropGroupOps (d : Dev) (g : Nat) : Dev :=
  d.forEach (d.diesKnown g) (fun d n =>
    let x := d.die n
    let tags := (x.queue.filter (·.tag)).length + b2n x.op.isSome
    (d.modDie n (fun x => { x with op := none, queue := [], fresh := none })).giveBack 13 0 tags)

/-- SURPRISE_REMOVAL: the group is fenced and unpowered, its operations fail, it is absent with all below it, and a
service command that runs on it completes with CARTRIDGE_STATE. -/
def Dev.loseGroup (d : Dev) (g : Nat) (rs : Reason) : Dev :=
  let own := (d.grp g).owner
  let d := d.modGrp g (fun c => { c with
    fenced := true, step := 0, down := 0, admitted := false, owner := none
    surprise := c.surprise || decide (rs = .surpriseRemoval), pgoodFail := c.pgoodFail || decide (rs = .pgoodFail) })
  let d := (((d.setDrivers g false).drivePwren g false).srcEvent (70 + g)).dropGroupOps g
  let d := (d.transition (uid 5 g) .absent rs).belowAbsent g rs
  let d := (d.readsToStep4 g true).groupLost g
  match own with
  | some r => d.complete r .cartridgeState
  | none => d

/-! ## Pins (R162) -/

/-- CART_PRESENCE_CHANGE: the level of CARTg_PRES_N; nothing counts yet. -/
def execCartPresenceChange (group : Nat) (seated : Bool) (s : State) : Host.Outcome State Fault Refusal :=
  act s fun d => if 8 ≤ group then d else d.modGrp group (fun c => { c with presRaw := seated })

/-- INSERTION_DEBOUNCED: presence has been stable for DEBOUNCE_MS. -/
def execInsertionDebounced (group : Nat) (s : State) : Host.Outcome State Fault Refusal :=
  act s fun d =>
    let c := d.grp group
    if c.presRaw && !c.present && decide (group < 8) then
      let d := d.modGrp group (fun c => { c with
        present := true, insert := true, insertions := satAdd 32 c.insertions 1
        admitted := d.crt.autoA && decide ((d.unit (uid 5 group)).state = .absent) })
      (d.driveAttn group false).srcEvent (70 + group)
    else d

/-- REMOVAL_COUNTED: a removal of a prepared group leaves it absent with REMOVED; one of an unprepared cartridge, powered or not, or
during a preparation, is a surprise removal (R165). -/
def execRemovalCounted (group : Nat) (s : State) : Host.Outcome State Fault Refusal :=
  act s fun d =>
    let c := d.grp group
    if c.presRaw || !c.present || decide (8 ≤ group) then d
    else
      let d := d.modGrp group (fun c => { c with present := false, admitted := false, step := 0 })
      if d.prepared group && !c.pwren && c.owner.isNone then
        let d := (d.modGrp group (fun c => { c with remove := true })).srcEvent (70 + group)
        (d.transition (uid 5 group) .absent .removed).belowAbsent group .parent
      else d.loseGroup group .surpriseRemoval

/-- PGOOD_FALL: a fall while the device drives PWREN high is a loss of power (R165, R456). -/
def execPgoodFall (group : Nat) (s : State) : Host.Outcome State Fault Refusal :=
  act s fun d =>
    if !(d.grp group).pgood then d
    else
      let d := d.modGrp group (fun c => { c with pgood := false })
      if (d.grp group).pwren then d.loseGroup group .pgoodFail else d

/-! ## Admission (R163, R142) -/

/-- CARTRIDGE_ADMISSION: step 1; `found` is what identification finds: die, profile number, cell type (1 TLC, 2 QLC).
At power-up the groups are taken in ascending order. -/
def execCartridgeAdmission (group : Nat) (found : List (Nat × Nat × Nat)) (s : State) : Host.Outcome State Fault Refusal :=
  act s fun d =>
    let c := d.grp group
    let lower := (List.range group).any (fun g => (d.grp g).admitted)
    if !c.admitted || !c.present || decide (8 ≤ group) || !d.domOn .data || (lower && !d.nvm.ready) then d
    else
      let d := d.modGrp group (fun c => { c with
        admitted := false, fenced := false, step := 1, down := 0, found := found.filter (fun x => decide (groupOf x.1 = group)) })
      let d := (d.drivePwren group true).driveAttn group false
      if (d.unit (uid 5 group)).state = .absent then
        { d with par := { d.par with
          rebuilt := fset d.par.rebuilt group 0, pointers := fset d.par.pointers group (0, 0) } }
      else d

/-- A die profile of the running image that the device supports (R142, R146). -/
def Dev.profileOf (d : Dev) (n : Nat) : Option DieProfile := d.profiles.find? (fun p => decide (p.number = n) && p.supported)

/-- What identification reads of a die (R142): its identity, and with a profile its geometry, the spare blocks that its column has
not released (R209) and its tracked sets; the ODT of its volume is set (R140, R143). -/
def Dev.meetDie (d : Dev) (n prof cell : Nat) : Dev :=
  let d := ((d.tell .readId n 0).tell .readParameterPage n 0).tell .readUniqueId n 0
  match d.profileOf prof with
  | none => d.modDie n (fun x => { x with present := true, cell := cell, profile := prof, known := false })
  | some p =>
    let d := d.modDie n (fun x => { x with
      present := true, cell := p.cell, profile := prof, known := true, geo := p
      spares := p.spares.filter (fun b => decide ((colOf n, b) ∉ d.par.released)) })
    let d := if n % 16 % p.luns = 0 then d.tell .odtConfigure n 0 else d
    d.giveSets n p.cell

/-- Steps 3 and 4 of R163: the channel drivers are enabled, every chip enable is reset in SDR and its interface set, and the dies are
identified. -/
def Dev.bringUp (d : Dev) (g : Nat) : Dev :=
  let d := (d.setDrivers g true).forEach (chansOfGroup g) (fun d c => d.forEach (List.range 4) (fun d e =>
    (d.tell .reset (ceDie c e) 0).tell .setFeatures (ceDie c e) 0))
  d.forEach (d.grp g).found (fun d x => d.meetDie x.1 x.2.1 x.2.2)

/-- PGOOD_RISE: step 2, and with it steps 3 and 4 of a power-up. -/
def execPgoodRise (group : Nat) (s : State) : Host.Outcome State Fault Refusal :=
  act s fun d =>
    if (d.grp group).pwren && decide (group < 8) then
      let up := decide ((d.grp group).step = 1)
      let d := d.modGrp group (fun c => { c with pgood := true, step := if c.step = 1 then 2 else c.step })
      if up then d.bringUp group else d
    else d

/-- PGOOD_TIMEOUT: PGOOD is not high by the end of step 2. -/
def execPgoodTimeout (group : Nat) (s : State) : Host.Outcome State Fault Refusal :=
  act s fun d =>
    let c := d.grp group
    if c.step = 1 ∧ c.pgood = false ∧ group < 8 then
      let d := ((d.modGrp group (fun c => { c with pgoodFail := true, step := 0 })).drivePwren group false).srcEvent (70 + group)
      let was := (d.unit (uid 5 group)).state
      let d := (d.transition (uid 5 group) .absent .pgoodFail).belowAbsent group .parent
      if was = .absent then d else d.groupLost group
    else d

/-- The group's profile: that of its lowest die that matches any profile of the running image. -/
def Dev.groupProfile (d : Dev) (g : Nat) : Option Nat :=
  let l := ((d.grp g).found.filter (fun x => (d.profileOf x.2.1).isSome))
  (l.foldl (fun (a : Option (Nat × Nat × Nat)) x => match a with
    | some y => if x.1 < y.1 then some x else some y
    | none => some x) none).map (·.2.1)

/-- DIE_IDENTIFICATION: the outcomes of R142 for one die; a retired die of a cartridge that has stayed keeps its state. -/
def Dev.identify (d : Dev) (g : Nat) (fresh : Bool) (n : Nat) : Dev :=
  let trained := (d.chan (chanOf n)).trained
  if !fresh && decide ((d.unit (uid 4 n)).state = .retired) then d
  else match (d.grp g).found.find? (fun x => decide (x.1 = n)) with
    | none => d.transition (uid 4 n) .absent (if trained then .noDie else .parent)
    | some (_, prof, _) =>
      if !trained then d.transition (uid 4 n) .absent .parent
      else if (d.profileOf prof).isNone then d.transition (uid 4 n) .absent .dieUnsupported
      else if d.groupProfile g ≠ some prof then d.transition (uid 4 n) .absent .dieMismatch
      else
        let d := if fresh then d.modDie n (fun x => { x with timeouts := [] }) else d
        (d.modUnit (uid 4 n) (fun u => { u with detail := prof })).transition (uid 4 n) .alive .none

/-- Blocks of a newly admitted group (R220): those of FULL sets are to be rebuilt, every other one goes to ERASE_QUEUED,
one after another. -/
def Dev.admitBlocks (d : Dev) (g : Nat) : Dev :=
  let blocks : FMap Block := d.map.blocks.map (fun p =>
    if groupOf (p.1 / 8160) = g then (p.1, { p.2 with needs := decide (p.2.state = 2) }) else p)
  let d := { d with map := { d.map with blocks := blocks } }
  d.forEach ((diesOfGroup g).filter (fun n => d.dieAlive n)) (fun d n =>
    let d := d.modDie n (fun x => { x with fresh := some 0 })
    if d.nvm.ready then d.admitNext n else d)

/-- Blocks of a group in ERASE_QUEUED whose erase has no place with its die are queued (R155). -/
def Dev.requeueErases (d : Dev) (g : Nat) : Dev :=
  let l := (d.map.blocks.filter (fun p => decide (p.2.state = 3 ∧ groupOf (p.1 / 8160) = g))).map (·.1)
  d.forEach l (fun d k =>
    let n := k / 8160
    let b := k % 8160
    let there := (d.die n).queue.any (fun o => decide (o.block = b)) || (match (d.die n).op with
      | some o => decide (o.block = b)
      | none => false)
    if there then d else d.queueOp n { kind := .erase, block := b, cls := 2 })

/-- Whether a block of the group waits for its rebuild. -/
def Dev.toRebuild (d : Dev) (g : Nat) : Bool := d.map.blocks.any (fun p => p.2.needs && decide (groupOf (p.1 / 8160) = g))

/-- CARTRIDGE_POWER_UP_DONE: step 6 of R163. The channels have ended their training; channels and dies take their states, the
columns of absent dies are stranded (R228), and the group goes to rebuild or to service (R217, R220). -/
def execCartridgePowerUpDone (group : Nat) (s : State) : Host.Outcome State Fault Refusal :=
  act s fun d =>
    let c := d.grp group
    let ended := (chansOfGroup group).all (fun n => (d.chan n).trained || decide ((d.unit (uid 3 n)).state = .retired))
    if c.step ≠ 2 ∨ c.pgood = false ∨ ended = false ∨ 8 ≤ group then d
    else
      let u := d.unit (uid 5 group)
      let fresh := decide (u.state = .absent)
      let prof := d.groupProfile group
      let d := d.modGrp group (fun c => { c with step := 6, profile := prof })
      let d := d.forEach (chansOfGroup group) (fun d n =>
        let x := d.chan n
        if !x.trained then d
        else if x.rate = 4 then d.transition (uid 3 n) .alive .none else d.transition (uid 3 n) .degraded .rateDown)
      let d := d.forEach (diesOfGroup group) (fun d n => d.identify group fresh n)
      let d := d.forEach (chansOfGroup group) (fun d n => d.countDies n)
      let none' := (chansOfGroup group).all (fun n => !(d.chan n).trained)
      let gone := if none' then [] else (diesOfGroup group).filter (fun n => !d.dieAlive n)
      let d := (d.forEach gone (fun d n => d.strandColumn (colOf n))).recapMedia
      if none' then d.transition (uid 5 group) .retired .allChannels
      else if fresh then
        let d := d.admitBlocks group
        let d := if d.toRebuild group then d.transition (uid 5 group) .degraded .rebuild
          else d.transition (uid 5 group) .alive .none
        (if d.nvm.ready then d.requeueErases group else d).keepPointer group
      else if d.nvm.ready then d.requeueErases group else d

/-! ## Power-down of a prepared group (R164, R219) -/

/-- Whether nothing runs on the dies of a group. -/
def Dev.groupIdle (d : Dev) (g : Nat) : Bool :=
  (d.mch.dies.filter (fun p => decide (groupOf p.1 = g))).all (fun p => p.2.op.isNone && p.2.queue.isEmpty && p.2.reads.isEmpty)

/-- Whether an open stripe has a non-void member on a group. -/
def Dev.stripeOn (d : Dev) (g : Nat) : Bool := d.par.stripes.any (fun s => decide (g ∉ s.voids))

/-- CARTRIDGE_POWER_DOWN: the last operation of a prepared group has ended, its drivers go to high impedance and PWREN
drops. -/
def execCartridgePowerDown (group : Nat) (s : State) : Host.Outcome State Fault Refusal :=
  act s fun d =>
    let c := d.grp group
    if d.prepared group && c.owner.isSome && c.pwren && d.groupIdle group && !d.stripeOn group then
      ((d.modGrp group (fun c => { c with down := 1, step := 0 })).setDrivers group false).drivePwren group false
    else d

/-- CARTRIDGE_ATTN_ASSERT: PGOOD reads low or 50 ms have passed; ATTN_N goes low and the command completes with the new
generation. -/
def execCartridgeAttnAssert (group : Nat) (s : State) : Host.Outcome State Fault Refusal :=
  act s fun d =>
    let c := d.grp group
    if c.down = 1 then
      let d := (d.modGrp group (fun c => { c with down := 2, owner := none })).driveAttn group true
      let gen := (d.unit (uid 5 group)).generation
      match c.owner with
      | some r => d.complete r .success (gen % 2 ^ 32) (gen / 2 ^ 32 % 2 ^ 32)
      | none => d
    else d

/-- Step 2 of R219: open stripes with members on the group are padded and closed, and their sets go to FULL. -/
def Dev.fillOpenSets (d : Dev) (g : Nat) : Dev :=
  d.forEach (d.openOn g) (fun d p =>
    let us := (d.par.stripes.filter (fun s => decide (s.k = p.1 ∧ s.b = p.2))).map (·.u)
    let d := d.forEach us (fun d u => d.padStripe p.1 p.2 u)
    d.forEach (List.range 8) (fun d x =>
      if (d.blk (dieOf p.1 x) p.2).state = 1 then d.closeBlock (dieOf p.1 x) p.2 0 else d))

/-- Whether work that started on a group before its preparation remains (R440). -/
def Dev.startedOn (d : Dev) (g : Nat) : Bool :=
  d.rdp.grans.any (fun r => decide (r.stage = .media ∧ groupOf (pgaDie r.entry.pga) = g) && r.tag)

/-- The acceptance of a preparation (R219, steps 1 and 2): queued reads that have not started go to step 4, queued erases
are squashed, and the group is quiesced at once or once its started reads have ended. -/
def Dev.prepare (d : Dev) (g : Nat) (ref : CmdRef) : Dev :=
  let d := (d.modGrp g (fun c => { c with owner := some ref })).readsToStep4 g false
  let d := d.forEach (d.diesKnown g) (fun d n =>
    let gone := (d.die n).queue.filter (fun o => decide (o.kind = .erase))
    (d.modDie n (fun x => { x with queue := x.queue.filter (fun o => decide (o.kind ≠ .erase)) })).giveBack 13 0
      (gone.filter (·.tag)).length)
  let d := d.fillOpenSets g
  if d.startedOn g then
    d.modUnit (uid 5 g) (fun u => { u with quiescing := true, pending := some (.quiesced, .prepared) })
  else (d.transition (uid 5 g) .quiesced .prepared).keepPointer g

/-- QUIESCE_COMPLETE: no work issued to the unit before the request remains, and the move to quiesced is made. -/
def execQuiesceComplete (unit : Nat) (s : State) : Host.Outcome State Fault Refusal :=
  act s fun d =>
    let u := d.unit unit
    let ty := unit / 2 ^ 24
    if !u.quiescing then d
    else if ty = 11 then d.quiescePort (unit % 2 ^ 24)
    else match u.pending with
      | some (st, rs) =>
        if ty = 5 ∧ d.startedOn (unit % 2 ^ 24) then d
        else
          let d := d.transition unit st rs
          if ty = 5 then d.keepPointer (unit % 2 ^ 24) else d
      | none => d

/-! ## Rebuild (R220, R221) -/

/-- The next set to rebuild on a group, in ascending COLUMN, then SET. -/
def Dev.nextRebuild (d : Dev) (g : Nat) : Option (Nat × Nat) :=
  let l := (d.map.blocks.filter (fun p => p.2.needs && decide (groupOf (p.1 / 8160) = g))).map (fun p =>
    (colOf (p.1 / 8160), p.1 % 8160))
  l.foldl (fun a p => match a with
    | none => some p
    | some q => if p.1 < q.1 ∨ (p.1 = q.1 ∧ p.2 < q.2) then some p else some q) none

/-- Whether program unit `u` of a set has been programmed on some die of it. -/
def Dev.puWritten (d : Dev) (col b u : Nat) : Bool := (List.range 8).any (fun g => decide (u < d.givenOf (dieOf col g) b))

/-- The pointer passes the last set: the group is alive, with event 0x0108. -/
def Dev.rebuildDone (d : Dev) (g : Nat) : Dev :=
  if d.toRebuild g then d
  else (d.transition (uid 5 g) .alive .none).log 0x0108 (uid 5 g) (leBytes 1 g)

/-- The turn of the class REBUILD on a die that runs nothing, among the programs and erases that wait for it (R215). -/
def Dev.rebuildTurn (d : Dev) (n : Nat) : Option Dev :=
  let x := d.die n
  if x.op.isSome then none
  else match d.pickOp x (x.queue ++ [{ kind := .erase, cls := 4, tag := true }]) x.turn x.deficit 600 with
    | some (o, turn, left) =>
      if o.cls = 4 then some (d.modDie n (fun x => { x with turn := turn, deficit := left })) else none
    | none => none

/-- One program unit of the block being rebuilt: its member is reconstructed from the others, codeword by codeword, and programmed
(R211, R220); one that cannot be falls under R212. -/
def Dev.rebuildUnit (d : Dev) (col b g u : Nat) (found : List (Nat × Found)) : Dev :=
  let n := dieOf col g
  let k := d.blk n b
  let pages := d.puUnits col k.mode / 256
  let (d, bad) := d.readStripe col b g k.mode found
  let d := d.forEach (d.othersOf col b g) (fun d x => d.readPages (dieOf col x) b (pages - 1) (4 * pages - 1))
  if d.canRebuild col b u g bad then
    let d : Dev := { d with par := { d.par with reconCw := d.par.reconCw + 4 * pages } }
    let d := (d.modChan (chanOf n) (fun c => { c with programs := c.programs + 1 })).tell
      (if k.mode = 0 then .pslcProgram else .program) n b
    if k.mode ≠ 0 ∧ d.mch.verifyA = true then d.readPages n b pages pages else d
  else
    let st : Stripe := { k := col, b := b, u := u, mode := k.mode, geom := d.geomOf col b }
    d.stripeLost st.ident

/-- REBUILD_SET: the next set's block on the group is erased and its units are programmed in ascending order; `pass` is the verdict
on its erase and programs, `failed` says, by program unit, where the ladder stops for other members. It waits for the turn of its
class on the die, and for the dies that it reads. -/
def execRebuildSet (group : Nat) (pass : Bool) (failed : List (Nat × List (Nat × Found))) (s : State) :
    Host.Outcome State Fault Refusal :=
  act s fun d =>
    if !d.rebuilding group || !(d.grp group).pgood then d
    else match d.nextRebuild group with
      | none => (d.rebuildDone group).keepPointer group
      | some (col, b) =>
        let n := dieOf col group
        if d.othersRead col b group = false then d
        else match d.rebuildTurn n with
        | none => d
        | some d =>
          let us := (List.range (d.wordlinesOf col)).filter (fun u => d.puWritten col b u)
          let d := (d.modBlk n b (fun k => { k with needs := false })).tell .erase n b
          let d :=
            if pass then
              let d := d.modBlk n b (fun k => { k with pe := min (k.pe + 1) 262143, reads := 0 })
              let d := d.modChan (chanOf n) (fun c => { c with erases := c.erases + 1 })
              let d := d.forEach us (fun d u => d.rebuildUnit col b group u (match failed.find? (fun f => f.1 = u) with
                | some f => f.2
                | none => []))
              { d with par := { d.par with rebuilt := fset d.par.rebuilt group (satAdd 32 (fget d.par.rebuilt 0 group) 1) } }
            else (d.retireBlock n b 6).moveSet col b 4
          let d := { d with par := { d.par with pointers := fset d.par.pointers group (col, b + 1) } }
          (d.rebuildDone group).keepPointer group

end Sys2Proof.Machine
end

