-- ==== Sys2Proof/Machine/Drover.lean ====
section
/-! DEFINITION. The Drover (R345 to R358): descriptors, ready lists, dispatch and preemption, flows, delay lists, cancels. -/

namespace Sys2Proof.Machine

/-! ## Threads and Hearths -/

def nThreads : Nat := 16384
def Dev.thread (d : Dev) (n : Nat) : Thread := fget d.drv.threads {} n
def Dev.modThread (d : Dev) (n : Nat) (f : Thread → Thread) : Dev :=
  { d with drv := { d.drv with threads := fmod d.drv.threads {} n f } }
def Dev.dh (d : Dev) (h : Nat) : DrvH := fget d.drv.hs {} h
def Dev.modDh (d : Dev) (h : Nat) (f : DrvH → DrvH) : Dev := { d with drv := { d.drv with hs := fmod d.drv.hs {} h f } }

/-- Whether a firmware Hearth can pass to owner use: no active target names its cores, its eight banks hold THRESHOLD 15 (R378),
its TIMER_MODE is 2 (R355), and no firmware thread is left on it (R258). -/
def Dev.hearthClear (d : Dev) (h : Nat) : Bool :=
  decide ((d.dh h).timerModeA = 2) &&
  d.icu.srcs.all (fun p => decide (p.2.targetA / 8 ≠ h)) &&
    (List.range 8).all (fun k => decide ((fget d.icu.banks {} (8 * h + k)).threshold = 15)) &&
    d.drv.threads.all (fun p => decide (p.2.hearth ≠ h ∨ p.2.state = .free) || p.2.wb.isSome)

/-- Hearth of a hardware context, numbered 4 × core + context with core 8 × h + k. -/
def hearthOf (c : Nat) : Nat := c / 32

/-- Hardware contexts of a Hearth. -/
def ctxsOf (h : Nat) : List Nat := (List.range 32).map (· + 32 * h)

/-- The thread on a hardware context. -/
def Dev.busyOf (d : Dev) (c : Nat) : Option Nat := fget d.drv.busy none c

/-- Threads READY on a Hearth. -/
def DrvH.readyCount (x : DrvH) : Nat := (x.ready.map (fun p => p.2.length)).sum

/-- The lowest descriptor that is FREE. -/
def Dev.freeThread (d : Dev) : Option Nat := (List.range nThreads).find? (fun n => decide ((d.thread n).state = .free))

/-- Instance threads bound to a Hearth. -/
def Dev.instancesOn (d : Dev) (h : Nat) : Nat :=
  (d.drv.threads.filter (fun p => decide (p.2.state ≠ .free ∧ p.2.hearth = h) && p.2.wb.isSome)).length

/-! ## Ready lists (R347, R350) -/

/-- Whether a Hearth's lists are full. -/
def Dev.readyFull (d : Dev) (h : Nat) : Bool := decide (4096 ≤ (d.dh h).readyCount)

/-- ENQUEUE_REFUSED: the refusal is counted, and the source holds the thread in order of refusal. -/
def Dev.refuse (d : Dev) (h : Nat) (x : Held) : Dev :=
  d.modDh h (fun q => { q with
    backpressure := satAdd 32 q.backpressure 1, held := if x ∈ q.held then q.held else q.held ++ [x] })

/-- Places a thread in the ready list of its level, at the tail or at the head. -/
def Dev.place' (d : Dev) (n : Nat) (head : Bool) : Dev :=
  let t := d.thread n
  (d.modThread n (fun t => { t with state := .ready })).modDh t.hearth (fun q => { q with
    ready := fmod q.ready [] t.level (fun l => if head then n :: l else l ++ [n]) })

/-- Enqueues a thread, or holds it. -/
def Dev.enqueue (d : Dev) (n : Nat) (head : Bool) (x : Held) : Dev :=
  if d.readyFull (d.thread n).hearth then d.refuse (d.thread n).hearth x else d.place' n head

/-- Takes a thread out of the ready lists. -/
def Dev.unready (d : Dev) (n : Nat) : Dev :=
  d.modDh (d.thread n).hearth (fun q => { q with
    ready := (q.ready.map (fun p => (p.1, p.2.filter (· ≠ n)))).filter (fun p => !p.2.isEmpty) })

/-! ## Flows (R351, R352) -/

/-- Key of a flow with its Hearth. -/
def flowKey (h flow : Nat) : Nat := h * 2 ^ 20 + flow

/-- The thread that has an atomic flow. -/
def Dev.flowOwner (d : Dev) (k : Nat) : Option Nat := fget d.drv.inService none k

/-- Passes a released atomic flow to its oldest FLOW_HELD thread (R351); a refused pass leaves it at the head. -/
def Dev.passFlow (d : Dev) (h flow : Nat) : Dev :=
  let k := flowKey h flow
  let d := { d with drv := { d.drv with inService := d.drv.inService.filter (fun p => p.1 ≠ k) } }
  match fget d.drv.flowHeld [] k with
  | [] => d
  | n :: t =>
    if d.readyFull h then d.refuse h (.pass flow)
    else
      ({ d with drv := { d.drv with
        inService := fset d.drv.inService k (some n), flowHeld := fset d.drv.flowHeld k t } }).place' n false

/-- A thread lets go of its atomic flow, if it has it. -/
def Dev.releaseFlow (d : Dev) (n : Nat) : Dev :=
  let t := d.thread n
  if t.flow ≠ 0 ∧ d.flowOwner (flowKey t.hearth t.flow) = some n then d.passFlow t.hearth t.flow else d

/-- Outstanding tickets of a flow, in creation order: the threads that hold them. -/
def Dev.flowTickets (d : Dev) (k : Nat) : List Nat := fget d.drv.tickets [] k

/-- Threads of a flow that wait at their release point become READY at the head of their level once every earlier ticket
of the flow has been returned (R352). -/
def Dev.runReleases (d : Dev) (k : Nat) : Dev :=
  match d.flowTickets k with
  | n :: _ =>
    if n ∈ d.drv.released ∧ (d.thread n).state = .waiting then
      ({ d with drv := { d.drv with released := setDel d.drv.released n } }).enqueue n true (.wake n)
    else d
  | [] => d

/-- Stands in a flow's tickets for one whose thread has ended or was cancelled before its turn (R352). -/
def deadTicket : Nat := nThreads

/-- The oldest tickets of a flow that have lost their threads are returned: their turn has come (R352). -/
def Dev.dropDead (d : Dev) (k : Nat) : Dev :=
  let l := d.flowTickets k
  let n := (l.takeWhile (fun t => t = deadTicket)).length
  ({ d with drv := { d.drv with tickets := fset d.drv.tickets k (l.drop n) } }).giveBack 18 0 n

/-- A thread ends or is cancelled while it holds a ticket: the ticket is returned in its turn (R352). -/
def Dev.loseTicket (d : Dev) (n : Nat) : Dev :=
  let t := d.thread n
  match t.ticket with
  | none => d
  | some _ =>
    let k := flowKey t.hearth t.flow
    let d := { d with drv := { d.drv with
      tickets := fset d.drv.tickets k (mapWhere (d.flowTickets k) (fun x => x = n) (fun _ => deadTicket))
      released := setDel d.drv.released n } }
    ((d.modThread n (fun t => { t with ticket := none, release := false })).dropDead k).runReleases k

/-- The ordered-flow ticket of a thread that is dispatched from its release point is returned. -/
def Dev.returnTicket (d : Dev) (n : Nat) : Dev :=
  let t := d.thread n
  match t.ticket with
  | none => d
  | some _ =>
    let k := flowKey t.hearth t.flow
    let d := { d with drv := { d.drv with
      tickets := fset d.drv.tickets k ((d.flowTickets k).filter (· ≠ n)), released := setDel d.drv.released n } }
    (((d.modThread n (fun t => { t with ticket := none, release := false })).giveBack 18 0 1).dropDead k).runReleases k

/-! ## Delay lists (R354, R355) -/

/-- Inserts an entry by expiry, after those of equal expiry. -/
def insDelay (l : List DelayE) (e : DelayE) : List DelayE :=
  match l with
  | [] => [e]
  | x :: t => if e.expiry < x.expiry then e :: x :: t else x :: insDelay t e

/-- Takes a delay-list entry for a thread, if the list and pool 19 have one. -/
def Dev.takeDelay (d : Dev) (n us : Nat) (isWait : Bool) : Option Dev :=
  let h := (d.thread n).hearth
  if (d.dh h).delay.length < 4096 ∧ d.canIssue 19 0 1 then
    some ((d.issue 19 0 1).modDh h (fun q => { q with
      delay := insDelay q.delay { expiry := d.drv.now + 4 * us, thread := n, isWait := isWait } }))
  else none

/-- Returns a thread's delay-list entry, if it has one. -/
def Dev.dropDelay (d : Dev) (n : Nat) : Dev :=
  let h := (d.thread n).hearth
  let k := ((d.dh h).delay.filter (fun e => e.thread = n)).length
  (d.modDh h (fun q => { q with delay := q.delay.filter (fun e => e.thread ≠ n) })).giveBack 19 0 k

/-! ## Contexts -/

/-- A thread leaves its hardware context. -/
def Dev.leaveCtx (d : Dev) (n : Nat) : Dev :=
  match (d.thread n).ctx with
  | none => d
  | some c => ({ d with drv := { d.drv with busy := fset d.drv.busy c none } }).modThread n (fun t => { t with ctx := none })

/-- A running thread waits: its context is freed. -/
def Dev.blockThread (d : Dev) (n : Nat) : Dev := (d.leaveCtx n).modThread n (fun t => { t with state := .waiting })

/-- A thread becomes FREE: its unit of pool 17, its delay entry, its flow and its ticket go back. -/
def Dev.endThread (d : Dev) (n : Nat) : Dev :=
  let t := d.thread n
  if t.state = .free then d
  else
    let d := ((d.leaveCtx n).unready n).dropDelay n
    let k := flowKey t.hearth t.flow
    let waits : FMap (List Nat) := d.drv.flowHeld.map (fun p => (p.1, p.2.filter (· ≠ n)))
    let d : Dev := { d with drv := { d.drv with flowHeld := waits } }
    let d := d.modDh t.hearth (fun q => { q with held := q.held.filter (fun x => decide (x ≠ Held.wake n)) })
    let d := d.releaseFlow n
    let d := (d.modThread n (fun t => { t with state := .free })).loseTicket n
    let d := d.giveBack 17 (t.fix.getD 0) 1
    let d := { d with drv := { d.drv with threads := d.drv.threads.filter (fun p => p.1 ≠ n) } }
    d.runReleases k

/-! ## Creation (R346) -/

/-- Whether new flow threads of a Hearth wait for its change of mode (R353). -/
def Dev.flowChanging (d : Dev) (h : Nat) : Bool := (d.dh h).flowNext.isSome

/-- Whether a new thread of an atomic flow queues on it: the flow is in service, or its pass to a held thread was refused. -/
def Dev.flowTaken (d : Dev) (k : Nat) : Bool := (d.flowOwner k).isSome || !(fget d.drv.flowHeld [] k).isEmpty

/-- Whether a thread can be created now: a descriptor, a place if it would be READY, a ticket of an ordered flow. -/
def Dev.canCreate (d : Dev) (h flow : Nat) : Bool :=
  let q := d.dh h
  let ordered := decide (flow ≠ 0 ∧ q.flowModeA = 1)
  let heldFlow := decide (flow ≠ 0 ∧ q.flowModeA = 0) && d.flowTaken (flowKey h flow)
  d.canIssue 17 0 1 && (heldFlow || !d.readyFull h) && !(decide (flow ≠ 0) && d.flowChanging h) &&
    (!ordered || decide ((d.flowTickets (flowKey h flow)).length < 256) && d.canIssue 18 0 1)

/-- Creates a firmware thread. -/
def Dev.create (d : Dev) (h level flow : Nat) : Dev :=
  match d.freeThread with
  | none => d
  | some n =>
    let mode := (d.dh h).flowModeA
    let k := flowKey h flow
    let d := (d.issue 17 0 1).modThread n (fun _ => { hearth := h, level := level, flow := flow })
    if flow ≠ 0 ∧ mode = 1 then
      let d := (d.issue 18 0 1).modThread n (fun t => { t with ticket := some d.drv.nextTicket })
      ({ d with drv := { d.drv with
        nextTicket := d.drv.nextTicket + 1, tickets := fset d.drv.tickets k (d.flowTickets k ++ [n]) } }).place' n false
    else if flow ≠ 0 ∧ d.flowTaken k then
      ({ d with drv := { d.drv with flowHeld := fmod d.drv.flowHeld [] k (· ++ [n]) } }).modThread n
        (fun t => { t with state := .flowHeld })
    else
      let d := if flow ≠ 0 then { d with drv := { d.drv with inService := fset d.drv.inService k (some n) } } else d
      d.place' n false

/-- THREAD_CREATE, by firmware; a refused create stalls. -/
def execThreadCreate (hearth level flow : Nat) (s : State) : Host.Outcome State Fault Refusal :=
  act s fun d =>
    if 6 ≤ hearth ∨ 64 ≤ level ∨ 2 ^ 20 ≤ flow ∨ d.domOn .control = false then d
    else if d.canCreate hearth flow then d.create hearth level flow
    else d.refuse hearth (.create level flow)

/-! ## Held enqueues -/

/-- One held enqueue is tried again (R350). The rest stays in its order. An instance start is tried by its own event. -/
def Dev.retryHeld (d : Dev) (h : Nat) : Dev :=
  match (d.dh h).held with
  | [] => d
  | x :: t =>
    if d.readyFull h then d
    else
      let e := d.modDh h (fun q => { q with held := t })
      match x with
      | .create level flow => if d.canCreate h flow then e.create h level flow else d
      | .wake n => if (d.thread n).state = .waiting then e.place' n (d.thread n).release else e
      | .pass flow => e.passFlow h flow
      | .expiry => e
      | .start _ => e

/-! ## Dispatch, preemption, end -/

/-- The most urgent level of a Hearth with a READY thread, and its head. -/
def DrvH.top (x : DrvH) : Option (Nat × Nat) :=
  (x.ready.find? (fun p => !p.2.isEmpty)).bind (fun p => p.2.head?.map (fun n => (p.1, n)))

/-- THREAD_DISPATCH: a free context takes the head of the most urgent non-empty level (R347). A thread READY from its
release point returns its ticket (R352). -/
def execThreadDispatch (ctx : Nat) (s : State) : Host.Outcome State Fault Refusal :=
  act s fun d =>
    let h := hearthOf ctx
    if 192 ≤ ctx ∨ (d.busyOf ctx).isSome ∨ d.domOn .control = false then d
    else match (d.dh h).top with
      | none => d
      | some (_, n) =>
        let rel := (d.thread n).release
        let d := (d.unready n).modThread n (fun t => { t with state := .running, ctx := some ctx, since := d.drv.dispatchNo })
        let d := { d with drv := { d.drv with busy := fset d.drv.busy ctx (some n), dispatchNo := d.drv.dispatchNo + 1 } }
        let d := d.modDh h (fun q => { q with dispatches := q.dispatches + 1 })
        (if rel then d.returnTicket n else d).retryHeld h

/-- The RUNNING thread of a Hearth to preempt: the least urgent, among equals the one dispatched latest. -/
def Dev.victim (d : Dev) (h : Nat) : Option Nat :=
  let run := (ctxsOf h).filterMap d.busyOf
  run.foldl (fun a n => match a with
    | none => some n
    | some m =>
      if (d.thread m).level < (d.thread n).level ∨
          ((d.thread m).level = (d.thread n).level ∧ (d.thread m).since < (d.thread n).since) then some n else some m) none

/-- The private source 0 of the core whose context a READY thread waits to preempt (R366). -/
def Dev.preemptEvent (d : Dev) (n : Nat) : Dev := match (d.thread n).ctx with
  | some c => d.privEvent (c / 4) 0
  | none => d

/-- THREAD_PREEMPT: on a firmware Hearth without a free context, a READY thread more urgent than the least urgent RUNNING
one preempts it; it goes to the head of its level (R348). It takes the place that the dispatch on its context frees, so that no
full list refuses it (R350). -/
def execThreadPreempt (hearth : Nat) (s : State) : Host.Outcome State Fault Refusal :=
  act s fun d =>
    match (d.dh hearth).top, d.victim hearth with
    | some (lv, _), some n =>
      let full := (ctxsOf hearth).all (fun c => (d.busyOf c).isSome)
      if d.hearthRole hearth = 0 ∧ full ∧ lv < (d.thread n).level ∧ hearth < 6 ∧ (d.thread n).wb = none then
        (((d.preemptEvent n).leaveCtx n).place' n true).modDh hearth (fun q => { q with preempts := q.preempts + 1 })
      else d
    | _, _ => d

/-- THREAD_END: a running firmware thread ends. -/
def execThreadEnd (thread : Nat) (s : State) : Host.Outcome State Fault Refusal :=
  act s fun d =>
    if (d.thread thread).state = .running ∧ (d.thread thread).wb = none then
      (d.endThread thread).retryHeld (d.thread thread).hearth
    else d

/-- FLOW_RELEASE: firmware releases a thread's atomic flow (R351). -/
def execFlowRelease (thread : Nat) (s : State) : Host.Outcome State Fault Refusal :=
  act s fun d => if (d.thread thread).state = .running then d.releaseFlow thread else d

/-- ORDERED_RELEASE: a running thread reaches its release point and waits for its turn (R352). -/
def execOrderedRelease (thread : Nat) (s : State) : Host.Outcome State Fault Refusal :=
  act s fun d =>
    let t := d.thread thread
    if t.state = .running ∧ t.ticket.isSome then
      let d := (d.blockThread thread).modThread thread (fun t => { t with release := true })
      ({ d with drv := { d.drv with released := setIns d.drv.released thread } }).runReleases (flowKey t.hearth t.flow)
    else d

/-! ## Modes -/

/-- An owner Hearth runs with FLOW_MODE 0; it holds no thread with a flow (R353). -/
def Dev.atomicMode (d : Dev) (h : Nat) : Dev := d.modDh h (fun q => { q with flowMode := 0, flowModeA := 0, flowNext := none })

/-- FLOW_MODE_CHANGE: a committed FLOW_MODE takes effect once the Hearth holds no thread with a flow (R353). -/
def execFlowModeChange (hearth : Nat) (s : State) : Host.Outcome State Fault Refusal :=
  act s fun d =>
    match (d.dh hearth).flowNext with
    | none => d
    | some m =>
      if d.drv.threads.any (fun p => decide (p.2.state ≠ .free ∧ p.2.hearth = hearth ∧ p.2.flow ≠ 0)) then d
      else (d.modDh hearth (fun q => { q with flowModeA := m, flowNext := none })).retryHeld hearth

end Sys2Proof.Machine
end

