-- ==== Sys2Proof/Machine/Operands.lean ====
section
/-! DEFINITION. The operand forms of Feresk: the instruction word (R263), immediates (R265), registers (R261), lanes and
predicates (R262), data addresses (R269). -/

namespace Sys2Proof.Machine

/-! ## The instruction word (R263) -/

/-- The fields of an instruction word. -/
structure Fw where
  /-- opcode, bits [63:56] -/
  op : Nat
  /-- dst, bits [55:51] -/
  dst : Nat
  /-- srcA, bits [50:46] -/
  a : Nat
  /-- srcB, bits [45:41] -/
  b : Nat
  /-- PG, bit [40] -/
  pg : Bool
  /-- PN, bits [39:37] -/
  pn : Nat
  /-- ESZ, bits [36:35] -/
  esz : Nat
  /-- IMM / IDX, bit [34] -/
  idx : Bool
  /-- ZERO, bit [33] -/
  zero : Bool
  /-- SIGNED / FIXED, bit [32] -/
  sg : Bool
  /-- immediate, bits [31:0] -/
  imm : Nat
  deriving DecidableEq, Repr

/-- Reads the fields of a 64-bit word. -/
def Fw.decode (w : Nat) : Fw :=
  { op := bitsOf w 56 8, dst := bitsOf w 51 5, a := bitsOf w 46 5, b := bitsOf w 41 5, pg := decide (bitsOf w 40 1 = 1)
    pn := bitsOf w 37 3, esz := bitsOf w 35 2, idx := decide (bitsOf w 34 1 = 1), zero := decide (bitsOf w 33 1 = 1)
    sg := decide (bitsOf w 32 1 = 1), imm := bitsOf w 0 32 }

/-- The word of a set of fields. -/
def Fw.encode (f : Fw) : Nat :=
  f.imm + 2 ^ 32 * b2n f.sg + 2 ^ 33 * b2n f.zero + 2 ^ 34 * b2n f.idx + 2 ^ 35 * f.esz + 2 ^ 37 * f.pn +
    2 ^ 40 * b2n f.pg + 2 ^ 41 * f.b + 2 ^ 46 * f.a + 2 ^ 51 * f.dst + 2 ^ 56 * f.op

/-- Whether every field is within its width. -/
def Fw.fits (f : Fw) : Bool :=
  decide (f.op < 256 ∧ f.dst < 32 ∧ f.a < 32 ∧ f.b < 32 ∧ f.pn < 8 ∧ f.esz < 4 ∧ f.imm < 2 ^ 32)

/-- The immediate as a value: sign-extended from 32 to 64 bits (R265). -/
def Fw.val (f : Fw) : BitVec 64 := (BitVec.ofNat 32 f.imm).signExtend 64

/-- Bytes of a lane or an access. -/
def Fw.size (f : Fw) : Nat := 2 ^ f.esz

/-! ## Registers (R261) -/

/-- Reads x[n]; x0 reads as 0. -/
def Ctx.getX (c : Ctx) (n : Nat) : BitVec 64 := if n = 0 then 0 else fget c.x 0 n

/-- Writes x[n]; a write to x0 is discarded. -/
def Ctx.setX (c : Ctx) (n : Nat) (v : BitVec 64) : Ctx := if n = 0 then c else { c with x := fset c.x n v }

def Ctx.getV (c : Ctx) (n : Nat) : BitVec 512 := fget c.v 0 n
def Ctx.setV (c : Ctx) (n : Nat) (v : BitVec 512) : Ctx := { c with v := fset c.v n v }
def Ctx.getP (c : Ctx) (n : Nat) : Pred := fget c.p {} n
def Ctx.setP (c : Ctx) (n : Nat) (p : Pred) : Ctx := { c with p := fset c.p n p }

/-- Operand B of the scalar arithmetic: x[srcB], or the immediate. -/
def Ctx.opB (c : Ctx) (f : Fw) : BitVec 64 := if f.idx then f.val else c.getX f.b

/-! ## Lanes (R262) -/

/-- Lanes of a vector at a lane size. -/
def laneCount (esz : Nat) : Nat := 64 / 2 ^ esz

/-- Lane `i` of a vector, as a number. -/
def laneOf (esz : Nat) (v : BitVec 512) (i : Nat) : Nat := v.toNat / 2 ^ (8 * 2 ^ esz * i) % 2 ^ (8 * 2 ^ esz)

/-- The lanes of a vector. -/
def lanesOf (esz : Nat) (v : BitVec 512) : List Nat := (List.range (laneCount esz)).map (laneOf esz v)

/-- The number whose digits of `w` bits are those listed. -/
def ofDigits (w : Nat) (l : List Nat) : Nat :=
  match l with
  | [] => 0
  | x :: t => x % 2 ^ w + 2 ^ w * ofDigits w t

/-- The vector of a list of lanes. -/
def ofLanes (esz : Nat) (l : List Nat) : BitVec 512 := BitVec.ofNat 512 (ofDigits (8 * 2 ^ esz) l)

/-- The signed value of a lane. -/
def laneInt (esz n : Nat) : Int := if n < 2 ^ (8 * 2 ^ esz - 1) then n else (n : Int) - 2 ^ (8 * 2 ^ esz)

/-- A lane extended to 64 bits. -/
def extLane (esz : Nat) (sg : Bool) (n : Nat) : BitVec 64 :=
  if sg then BitVec.ofInt 64 (laneInt esz n) else BitVec.ofNat 64 n

/-- Lane `i` of operand B: v[srcB], or the low bits of the immediate in every lane (R265). -/
def Ctx.laneB (c : Ctx) (f : Fw) (i : Nat) : Nat :=
  if f.idx then f.val.toNat % 2 ^ (8 * f.size) else laneOf f.esz (c.getV f.b) i

/-! ## Data addresses (R269) -/

/-- x[srcA] + immediate, modulo 2^64. -/
def Ctx.baseAddr (c : Ctx) (f : Fw) : BitVec 64 := c.getX f.a + f.val

/-- The address of LD and ST: the index is scaled. -/
def Ctx.scaledAddr (c : Ctx) (f : Fw) : Nat :=
  (if f.idx then c.baseAddr f + (c.getX f.b <<< f.esz) else c.baseAddr f).toNat

/-- The address of VLD, VST and VLDB: the index is not scaled. -/
def Ctx.plainAddr (c : Ctx) (f : Fw) : Nat := (if f.idx then c.baseAddr f + c.getX f.b else c.baseAddr f).toNat

/-- The address of lane `i` of VGATHER, VSCATTER and VAADD. -/
def Ctx.laneAddr (c : Ctx) (f : Fw) (i : Nat) : Nat :=
  (c.baseAddr f + BitVec.ofNat 64 (laneOf f.esz (c.getV f.b) i)).toNat

end Sys2Proof.Machine
end

