-- ==== Sys2Proof/Machine/Instance.lean ====
section
/-! DEFINITION. Life of a Waybill and of its instance (R129, R130, R232, R236 to R249, R258, R277, R278): admission,
start, input, segment boundaries, end causes and the end. -/

namespace Sys2Proof.Machine

/-! ## Waybills, images and instances -/

def Dev.image (d : Dev) (slot : Nat) : Option Image := fget d.hrt.images none slot
def Dev.modImage (d : Dev) (slot : Nat) (f : Image → Image) : Dev :=
  { d with hrt := { d.hrt with images := fset d.hrt.images slot ((d.image slot).map f) } }
def Dev.inst (d : Dev) (id : Nat) : Option Ctx := fget d.drv.ctxs none id
def Dev.setInst (d : Dev) (id : Nat) (c : Ctx) : Dev := { d with drv := { d.drv with ctxs := fset d.drv.ctxs id (some c) } }
def Dev.modInst (d : Dev) (id : Nat) (f : Ctx → Ctx) : Dev := match d.inst id with
  | some c => d.setInst id (f c)
  | none => d

/-- The thread of an instance. -/
def Dev.wbThread (d : Dev) (id : Nat) : Option Nat :=
  (d.drv.threads.find? (fun p => decide (p.2.wb = some id ∧ p.2.state ≠ .free))).map (·.1)

/-- Whether an instance's thread runs on a context now. -/
def Dev.wbRuns (d : Dev) (id : Nat) : Bool := match d.wbThread id with
  | some n => decide ((d.thread n).state = .running)
  | none => false

/-! ## The input of a Waybill (R129, R247) -/

/-- Parts of granules that an extent covers. -/
def Dev.extentPieces (d : Dev) (e : Nat × Nat × Nat) : Nat :=
  match d.ns e.1 with
  | some n => if e.2.2 = 0 then 0 else (e.2.1 + e.2.2 - 1) / lbasPer n.lbaf - e.2.1 / lbasPer n.lbaf + 1
  | none => 0

/-- LBA size of an extent's namespace. -/
def Dev.extentLba (d : Dev) (e : Nat × Nat × Nat) : Nat := match d.ns e.1 with
  | some n => lbaSize n.lbaf
  | none => 4096

/-- Piece `k` of a list of extents: granule tag, first byte and byte count within the granule. -/
def Dev.pieceAt (d : Dev) (l : List (Nat × Nat × Nat)) (k : Nat) : Option (Nat × Nat × Nat) :=
  match l with
  | [] => none
  | e :: t =>
    if k < d.extentPieces e then
      let sz := d.extentLba e
      let per := 32768 / sz
      let g := e.2.1 / per + k
      let lo := max (g * per) e.2.1
      let hi := min ((g + 1) * per) (e.2.1 + e.2.2)
      some (gtagOf e.1 g, (lo - g * per) * sz, (hi - lo) * sz)
    else d.pieceAt t (k - d.extentPieces e)

/-- Bytes of input of a list of extents. -/
def Dev.inputLen (d : Dev) (l : List (Nat × Nat × Nat)) : Nat := (l.map (fun e => e.2.2 * d.extentLba e)).sum

/-- The extent that a byte of the input lies in, with its offset there. -/
def Dev.extentOf (d : Dev) (l : List (Nat × Nat × Nat)) (pos : Nat) : Nat × Nat :=
  match l with
  | [] => (0, pos)
  | e :: t =>
    let n := e.2.2 * d.extentLba e
    if pos < n || t.isEmpty then (0, pos) else
      let r := d.extentOf t (pos - n)
      (r.1 + 1, r.2)

/-- Input bytes whose reads have begun. -/
def Dev.readAhead (d : Dev) (id pos : Nat) : Nat :=
  (d.divertReads id).foldl (fun n g => max n (g.hostPos + g.count)) pos

/-- Begins the next read of a Waybill while less than two chunks are ahead. -/
def Dev.feedOne (d : Dev) (id : Nat) : Dev :=
  match d.wb id with
  | none => d
  | some w =>
    let at' := d.readAhead id w.pos
    if w.state ≠ .running ∨ w.pos + 131072 ≤ at' then d
    else match d.pieceAt w.extents w.nextPiece with
      | none => d
      | some (t, first, count) =>
        let d := d.modWb id (fun w => { w with nextPiece := w.nextPiece + 1 })
        d.startRead w.ref t 0 (.divert id) first count at'

/-- Begins reads up to two chunks ahead: at most 33 pieces of 4,096 bytes or more. -/
def Dev.feed (d : Dev) (id : Nat) : Dev := iter 33 (fun d => d.feedOne id) d

/-! ## End causes (R241, R245, R246) -/

/-- Removes what the engines and Tongs still do for an instance; the tickets and contexts of pools 24, 25 and 26 go back
(R246 step 3, R296, R311). -/
def Dev.dropJobs (d : Dev) (id : Nat) : Dev :=
  let fix := match d.wb id with
    | some w => w.ref.fix
    | none => 0
  let cj := (d.cxe.jobs.filter (fun p => decide (p.2.state ≠ 0 ∧ p.2.wb = id))).map (·.1)
  let dj := (d.dge.ctxs.filter (fun p => decide (p.2.state ≠ 0 ∧ p.2.wb = id))).map (·.1)
  let cw := (d.cxe.waiting.filter (fun j => decide (j.wb = id ∧ j.state = 1))).length
  let dw := (d.dge.waiting.filter (fun j => decide (j.wb = id ∧ j.state = 1))).length
  let ts := (d.tng.units.map (fun p => (p.2.searches.filter (fun s => s.wb = id)).length)).sum
  let units : FMap TUnit := d.tng.units.map (fun p => (p.1, { p.2 with searches := p.2.searches.filter (fun s => s.wb ≠ id) }))
  let count (e : Eng) : Eng := { e with squashed := satAdd 32 e.squashed 1 }
  let d := { d with
    cxe := { d.cxe with
      jobs := d.cxe.jobs.filter (fun p => decide (p.1 ∉ cj))
      waiting := d.cxe.waiting.filter (fun j => j.wb ≠ id)
      engs := cj.foldl (fun m k => fmod m {} (k / 16) count) d.cxe.engs }
    dge := { d.dge with
      ctxs := d.dge.ctxs.filter (fun p => decide (p.1 ∉ dj))
      waiting := d.dge.waiting.filter (fun j => j.wb ≠ id)
      engs := dj.foldl (fun m k => fmod m {} (k / 16) count) d.dge.engs }
    tng := { d.tng with units := units } }
  let d := ((d.giveBack 25 fix (cj.length + cw)).giveBack 26 fix (dj.length + dw)).giveBack 24 0 ts
  iter 5 (fun d => (d.withdraw 25 (.waybill id)).withdraw 26 (.waybill id)) d

/-- An instance stops (step 1 of R246): its thread, its context with the unit of pool 21, and what it had asked of the
engines. CYCLES is a number that no rule gives. -/
def Dev.stopInstance (d : Dev) (id : Nat) : Dev :=
  match d.wb id with
  | none => d
  | some w =>
    let free := match d.inst id with
      | some c => c.free
      | none => 0
    let d := match d.wbThread id with
      | some n => d.endThread n
      | none => d
    let d := (d.giveBack 21 w.ref.fix 1).dropJobs id
    let d := { d with drv := { d.drv with ctxs := d.drv.ctxs.filter (fun p => p.1 ≠ id) } }
    d.modWb id (fun w => { w with state := .ending, cycles := (Config.freeWord id free).toNat })

/-- An end cause of R245: the first one stands. A blocked or READY instance stops at once, a running one at its next
segment boundary (R242). -/
def Dev.endCause (d : Dev) (id st : Nat) : Dev :=
  match d.wb id with
  | none => d
  | some w =>
    if w.state = .running then
      let d := d.modWb id (fun w => { w with state := .ending, cause := some st })
      if d.wbRuns id then d else d.stopInstance id
    else d

/-- A taint of R245, with the offset from which the output is untrusted (R248). -/
def Dev.taint (d : Dev) (id st from' : Nat) : Dev :=
  d.modWb id (fun w => { w with
    taint := w.taint.or (some st)
    untrusted := some (if w.ordered then min from' (w.untrusted.getD from') else 0) })

/-- INSTANCE_FAULT: SANDBOX_FAULT with a cause code of R277 and FAULT_ADDR, event 0x0201 and HRT_LAST_FAULT (R278). The
instance stops there. Code 4 is also reported against the core that runs it. -/
def Dev.faultInstance (d : Dev) (id code addr : Nat) : Dev :=
  match d.wb id with
  | none => d
  | some w =>
    let d := d.log 0x0201 noUnit (fields [(2, w.ref.fix), (4, w.handle), (8, w.epoch), (1, code), (8, addr)])
    let d := { d with hrt := { d.hrt with faultHandle := w.handle, faultFix := w.ref.fix } }
    let d := match (d.wbThread id).bind (fun n => (d.thread n).ctx) with
      | some c => if code = 4 then d.transition (uid 1 (c / 4)) .degraded .hardware else d
      | none => d
    let first := decide (w.cause = none)
    let d := d.modWb id (fun w => { w with
      state := .ending, cause := w.cause.or (some 1), faultCode := if first then code else w.faultCode
      faultAddr := if first then addr else w.faultAddr })
    d.stopInstance id

/-! ## Admission and start (R238, R240, R243) -/

/-- WAYBILL_ADMITTED: the unit of pool 20 has been issued, and the units of R238 are requested together. -/
def execWaybillAdmitted (wb : Nat) (s : State) : Host.Outcome State Fault Refusal :=
  act s fun d =>
    match d.wb wb with
    | none => d
    | some w =>
      let t : Option Dev := if 20 ∈ w.got then some d else d.takeGrant 20 (.waybill wb)
      match t, d.image w.slot with
      | some d, some im =>
        if w.state ≠ .admitting then d
        else
          let fix := w.ref.fix
          let (d, a) := d.request 21 fix 1 (.waybill wb)
          let (d, b) := d.request 22 fix im.scratch (.waybill wb)
          let (d, c) := d.request 17 fix 1 (.waybill wb)
          d.modWb wb (fun w => { w with
            state := .waiting
            got := [20] ++ (if a then [21] else []) ++ (if b then [22] else []) ++ (if c then [17] else []) })
      | _, _ => d

/-- Takes up a unit that was granted to a waiting Waybill. -/
def Dev.collect (d : Dev) (id p : Nat) : Dev :=
  match d.wb id with
  | none => d
  | some w =>
    if p ∈ w.got then d
    else match d.takeGrant p (.waybill id) with
      | some d => d.modWb id (fun w => { w with got := w.got ++ [p] })
      | none => d

/-- The owner Hearth with the most free contexts for instances; the lowest on a tie. -/
def Dev.startHearth (d : Dev) : Option Nat :=
  ([2, 3, 4, 5].filter (fun h => decide (d.hearthRole h = 1 ∧ d.instancesOn h < 32))).foldl (fun a h => match a with
    | none => some h
    | some k => if d.instancesOn h < d.instancesOn k then some h else some k) none

/-- Tokens of a graph's edges at the start (R359). -/
def Image.firstTokens (im : Image) : FMap (List Nat) := im.edges.zipIdx.map (fun p => (p.2, List.replicate p.1.init p.1.value))

/-- The address of a byte of the code section (R239). -/
def codeAddr (off : Nat) : BitVec 64 := BitVec.ofNat 64 (0x10000000000 + off)

/-- The instance at its start (R240): the start values in x1 to x4, or in x24 to x27 for a graph (R361). -/
def startCtx (w : Waybill) (im : Image) : Ctx :=
  let base := if im.graph then 24 else 1
  let c : Ctx := { wb := w.id, pc := codeAddr im.entry, w3 := im.tables, w4 := padTo 64 w.params
                   scratch := im.scratch * 1048576, tokens := if im.graph then im.firstTokens else [] }
  (((c.setX base (BitVec.ofNat 64 w.extents.length)).setX (base + 1) (BitVec.ofNat 64 w.outLen)).setX (base + 2)
    (BitVec.ofNat 64 im.tables.length)).setX (base + 3) (BitVec.ofNat 64 (im.scratch * 1048576))

/-- INSTANCE_START: with the units of R238 issued and its image read, the instance starts on an owner Hearth, and its
reads begin. A full Hearth leaves the Waybill WAITING (R350). -/
def execInstanceStart (wb : Nat) (s : State) : Host.Outcome State Fault Refusal :=
  act s fun d =>
    let d := ((d.collect wb 21).collect wb 22).collect wb 17
    match d.wb wb with
    | none => d
    | some w =>
      match d.image w.slot, d.startHearth, d.freeThread with
      | some im, some h, some n =>
        if w.state ≠ .waiting ∨ [21, 22, 17].any (fun p => decide (p ∉ w.got)) ∨ im.fetched = false then d
        else if d.readyFull h then d.refuse h (.start wb)
        else
          let d := d.modDh h (fun q => { q with held := q.held.filter (fun x => decide (x ≠ Held.start wb)) })
          let d := d.modThread n (fun _ => { hearth := h, level := d.tf 8 0x22 1, fix := some w.ref.fix
                                             epoch := w.epoch % 65536, wb := some wb })
          let d := (d.place' n false).setInst wb (startCtx w im)
          let out := d.takeBuf { owner := .control, wb := wb, kind := 2 }
          let d := match out with
            | some (d, _) => d
            | none => d
          let d := d.modWb wb (fun w => { w with state := .running, startTick := d.clk.ticks, outBuf := out.map (·.2) })
          let d := d.modCmd w.ref (fun c => { c with started := true })
          ({ d with hrt := { d.hrt with started := d.hrt.started + 1 } }).feed wb
      | _, _, _ => d

/-- IMAGE_FETCH: the first instance of an image after power-up finds it read from the media (R236). -/
def execImageFetch (slot : Nat) (s : State) : Host.Outcome State Fault Refusal :=
  act s fun d =>
    if d.hrt.wbs.any (fun w => decide (w.slot = slot ∧ w.state = .waiting)) then
      match d.image slot with
      | some im =>
        if im.fetched = false ∧ d.canRead (pgaDie im.pga) (pgaBlock im.pga) = false then d else
        let d := if im.fetched then d else d.readPages (pgaDie im.pga) (pgaBlock im.pga) im.pages (4 * im.pages)
        d.modImage slot (fun im => { im with fetched := true })
      | none => d
    else d

/-! ## Input (R129, R130) -/

/-- The bytes that a diverted granule gives: zeros for an UNMAPPED one, else what decompression gave, and a free value where that
gave none (R127, R130; log 106). -/
def RGran.divertBytes (g : RGran) : Bytes :=
  if g.entry.units = 0 then zeroBytes g.count
  else (List.range g.count).map (fun i => (g.data[g.first + i]?).getD (Config.untrustedByte g.id (g.first + i)))

/-- Input bytes that stand delivered from `pos` on without a gap, oldest first. -/
def readyTo (l : List RGran) (pos : Nat) : Nat :=
  l.foldl (fun p g => if g.stage = .deliver ∧ g.hostPos ≤ p ∧ p < g.hostPos + g.count then g.hostPos + g.count else p) pos

/-- Whether the next granule of the input stays unrecovered. -/
def lostAt (l : List RGran) (pos : Nat) : Bool :=
  l.any (fun g => decide (g.stage = .lost ∧ g.hostPos ≤ pos ∧ pos < g.hostPos + g.count))

/-- Bytes `lo` to `hi` − 1 of the input. -/
def inputBytes (l : List RGran) (lo hi : Nat) : Bytes :=
  (l.map (fun g =>
    let a := max lo g.hostPos
    let b := min hi (g.hostPos + g.count)
    if a < b then slice g.divertBytes (a - g.hostPos) (b - a) else [])).flatten

/-- A diverted granule has passed bytes to a hand-off buffer that was handed over: kept with BYTES_OUT at its first
hand-over; once its last byte is over, it leaves the pipeline and its verdict follows (R130). -/
def Dev.passGranule (d : Dev) (id hi : Nat) (g : RGran) : Dev :=
  match d.wb id with
  | none => d
  | some w =>
    if hi ≤ g.hostPos then d
    else
      let out := match w.delivered.find? (fun p => p.1 = g.id) with
        | some p => p.2
        | none => w.bytesOut
      if g.hostPos + g.count ≤ hi then
        let d := d.endRg g
        let d := { d with rdp := { d.rdp with diverted := d.rdp.diverted + 1 } }
        d.modWb id (fun w => { w with
          delivered := w.delivered.filter (fun p => p.1 ≠ g.id)
          verdicts := w.verdicts ++ [(g.id, out, g.checkFail.map (fun size => (size, g.gtag, g.entry)))] })
      else if w.delivered.any (fun p => p.1 = g.id) then d
      else d.modWb id (fun w => { w with delivered := w.delivered ++ [(g.id, out)] })

/-- The hand-off buffer that the next bytes of a Waybill's input stand in: the oldest being filled, or one taken now where nothing
but UNMAPPED granules give them. -/
def Dev.nextBuf (d : Dev) (w : Waybill) (h : Handoff) : Option (Dev × Nat) :=
  match w.fill with
  | i :: t =>
    some ((d.modWb w.id (fun w => { w with fill := t })).modBuf i (fun b => { b with
      owner := h.owner, bytes := h.bytes, extent := h.extent, offset := h.offset }), i)
  | [] => d.takeBuf h

/-- HANDOFF_DELIVERY: a hand-off buffer is handed to the instance when it is full or the input ends; at most two are
held. A granule that stays unrecovered ends the instance with MEDIA_UNRECOVERED. -/
def execHandoffDelivery (wb : Nat) (s : State) : Host.Outcome State Fault Refusal :=
  act s fun d =>
    match d.wb wb with
    | none => d
    | some w =>
      let l := d.divertReads wb
      let total := d.inputLen w.extents
      let hi := min (w.pos + 65536) total
      if w.state ≠ .running ∨ 2 ≤ w.ready.length + (if w.cur.isSome then 1 else 0) ∨ total ≤ w.pos then d
      else if lostAt l (readyTo l w.pos) && decide (readyTo l w.pos < hi) then d.endCause wb 6
      else if readyTo l w.pos < hi then d
      else
        let ext := d.extentOf w.extents w.pos
        match d.nextBuf w { owner := .control, wb := wb, kind := 1, bytes := inputBytes l w.pos hi
                            extent := ext.1, offset := ext.2 } with
        | none => d
        | some (d, i) =>
          let d := d.forEach l (fun d g => d.passGranule wb hi g)
          let d := d.modWb wb (fun w => { w with
            pos := hi, ready := w.ready ++ [i], bytesIn := hi, lastExtent := (d.extentOf w.extents (hi - 1)).1 })
          (d.emit (.doorbell 0)).feed wb

/-- CHECK_VERDICT_FINAL: the verdict on a diverted granule becomes final; a failing one taints the result, is queued for
repair and ends the instance at its next segment boundary (R130, R245). -/
def execCheckVerdictFinal (wb id : Nat) (s : State) : Host.Outcome State Fault Refusal :=
  act s fun d =>
    match d.wb wb with
    | none => d
    | some w =>
      match w.verdicts.find? (fun v => v.1 = id) with
      | none => d
      | some (_, out, v) =>
        let d := d.modWb wb (fun w => { w with verdicts := w.verdicts.filter (fun v => v.1 ≠ id) })
        match v with
        | none => d
        | some (size, t, e) =>
          let st := if size then 3 else 6
          ((d.taint wb st out).endCause wb st).startRepair t e

/-! ## Segment boundaries and limits (R242, R244) -/

/-- SEGMENT_BOUNDARY: an instance that runs reaches a boundary after 65,536 instructions or 50 µs; one with an end cause
stops there. -/
def execSegmentBoundary (wb : Nat) (s : State) : Host.Outcome State Fault Refusal :=
  act s fun d =>
    match d.wb wb with
    | none => d
    | some w =>
      if d.wbRuns wb = false then d
      else if w.state = .ending then d.stopInstance wb
      else d.modInst wb (fun c => { c with retired := 0, boundary := false })

/-- TIME_LIMIT_EXPIRY: an epoch boundary has found the limit passed. -/
def execTimeLimitExpiry (wb : Nat) (s : State) : Host.Outcome State Fault Refusal :=
  act s fun d =>
    match d.wb wb with
    | some w => if w.overtime then d.endCause wb 2 else d
    | none => d

/-! ## The end (R246) -/

/-- The result record of R107. -/
def Waybill.record (w : Waybill) : Bytes :=
  let st := match w.cause.getD 0 with
    | 0 => w.taint.getD 0
    | c => c
  fields [(8, w.userTag), (2, st), (2, b2n w.untrusted.isSome + 2 * b2n w.outFull), (4, w.exitCode), (8, w.bytesIn),
    (8, w.bytesOut), (8, w.untrusted.getD w.bytesOut), (8, w.faultAddr), (8, w.cycles), (4, w.handle), (1, w.lastExtent),
    (3, 0)]

/-- STATUS of the result record. -/
def Waybill.status (w : Waybill) : Nat := match w.cause.getD 0 with
  | 0 => w.taint.getD 0
  | c => c

/-- Reads not yet delivered are cancelled, and input buffers go back (step 4 of R246). -/
def Dev.dropInput (d : Dev) (id : Nat) : Dev :=
  match d.wb id with
  | none => d
  | some w =>
    let d := d.forEach (d.divertReads id) (fun d g => d.endRg g)
    let d := d.forEach (w.fill ++ w.ready ++ w.cur.toList) (fun d i => d.dropBuf i)
    d.modWb id (fun w => { w with fill := [], ready := [], cur := none, delivered := [] })

/-- Scratch of a Waybill goes back to pool 22. -/
def Dev.dropScratch (d : Dev) (w : Waybill) : Dev :=
  match d.image w.slot with
  | some im => d.giveBack 22 w.ref.fix im.scratch
  | none => d

/-- The result record goes to the host, but not for a function that has been reset since (R80). -/
def Dev.writeResult (d : Dev) (w : Waybill) : Dev :=
  d.doIf (decide (w.epoch = (d.fn w.ref.fix).epoch)) (fun d => d.emit (.hostWrite w.ref.fix w.resultAddr w.record))

/-- INSTANCE_END: a stopped instance with no verdict and no output outstanding returns its units; the result record and
the completion entry follow. An Abort gives Command Abort Requested (R82). -/
def execInstanceEnd (wb : Nat) (s : State) : Host.Outcome State Fault Refusal :=
  act s fun d =>
    match d.wb wb with
    | none => d
    | some w =>
      if w.state ≠ .ending ∨ (d.inst wb).isSome ∨ w.verdicts ≠ [] ∨ w.lent ≠ [] then d
      else
        let d := (d.dropInput wb).dropScratch w
        let d := match w.outBuf with
          | some i => d.dropBuf i
          | none => d
        let d := d.writeResult w
        let d := { d with hrt := { d.hrt with ends := fmod d.hrt.ends 0 w.status (· + 1) } }
        ((d.giveBack 20 w.ref.fix 1).dropWb wb).complete w.ref (if w.byAbort then .abortRequested else .success)

/-- A Waybill that has not started ends: its units and requests go back (R243). -/
def Dev.dropWaiting (d : Dev) (w : Waybill) : Dev :=
  let who := Waiter.waybill w.id
  let fix := w.ref.fix
  let d := (((d.withdraw 20 who).withdraw 21 who).withdraw 22 who).withdraw 17 who
  let d := if 20 ∈ w.got then d.giveBack 20 fix 1 else d
  let d := if 21 ∈ w.got then d.giveBack 21 fix 1 else d
  let d := if 22 ∈ w.got then d.dropScratch w else d
  let d := if 17 ∈ w.got then d.giveBack 17 fix 1 else d
  let d := d.forEach [2, 3, 4, 5] (fun d h =>
    d.modDh h (fun q => { q with held := q.held.filter (fun x => decide (x ≠ Held.start w.id)) }))
  d.dropWb w.id

/-- WAYBILL_SANITIZE_END: a Waybill in ADMITTING or WAITING ends with a result record that carries ABORTED (R243). -/
def Dev.sanitizeWaybill (d : Dev) (w : Waybill) : Dev :=
  match w.state with
  | .admitting | .waiting =>
    let x := { w with cause := some 7, bytesIn := 0 }
    let d := (d.dropWaiting w).writeResult x
    ({ d with hrt := { d.hrt with ends := fmod d.hrt.ends 0 7 (· + 1) } }).complete w.ref .success
  | .running => d.endCause w.id 7
  | _ => d

/-- A Waybill of an old function epoch vanishes: no result record and no completion (R65, R80, R243). -/
def Dev.squashWaybill (d : Dev) (id : Nat) : Dev :=
  match d.wb id with
  | none => d
  | some w =>
    match w.state with
    | .admitting | .waiting => d.dropWaiting w
    | _ =>
      let d := if (d.inst id).isSome then d.stopInstance id else d
      let d := (d.dropInput id).dropScratch w
      let d := d.forEach (w.lent ++ w.outBuf.toList) (fun d i => d.dropBuf i)
      (d.giveBack 20 w.ref.fix 1).dropWb id

/-! ## Hearths and cores (R258, R277) -/

/-- HEARTH_DRAIN_COMPLETE: the last instance of a draining Hearth has ended, and it passes to firmware. -/
def execHearthDrainComplete (hearth : Nat) (s : State) : Host.Outcome State Fault Refusal :=
  act s fun d =>
    if d.hearthRole hearth = 2 ∧ d.instancesOn hearth = 0 then
      ({ d with hrt := { d.hrt with hearths := fset d.hrt.hearths hearth { role := 0 } } }).transition (uid 2 hearth) .alive .none
    else d

/-- CORE_UNCORRECTABLE_ERROR: the instance on the context ends with code 4 and FAULT_ADDR 0, and the core is degraded. -/
def execCoreUncorrectableError (ctx : Nat) (s : State) : Host.Outcome State Fault Refusal :=
  act s fun d =>
    if 192 ≤ ctx then d
    else
      let d := (d.transition (uid 1 (ctx / 4)) .degraded .hardware).privEvent (ctx / 4) 2
      match (d.busyOf ctx).bind (fun n => (d.thread n).wb) with
      | some id => d.faultInstance id 4 0
      | none => d

end Sys2Proof.Machine
end

