-- ==== Sys2Proof/Machine/Pointers.lean ====
section
/-! DEFINITION. The frame of a fetched command: data pointers and their checks (R83, R84, R475), and the commands that
fetch brought (R80). -/

namespace Sys2Proof.Machine

/-! ## Data pointers -/

/-- What a pointer describes: data to the device, data to the host, or metadata. -/
inductive PtrUse where
  | toDevice | toHost | metadata
  deriving DecidableEq, Repr

/-- Whether R83 has a descriptor for this use. -/
def kindAllowed (k : SglKind) (u : PtrUse) : Bool :=
  match k with
  | .data | .segment | .lastSegment => true
  | .bitBucket => decide (u = .toHost)
  | .keyed | .reserved => false

/-- Whether a descriptor points to a further segment. -/
def kindPoints (k : SglKind) : Bool := decide (k = SglKind.segment ∨ k = SglKind.lastSegment)

/-- The checks of one segment's descriptors in order; `final` holds for the segment that a Last Segment descriptor
names. -/
def segCheck (u : PtrUse) (final : Bool) (l : List SglDesc) : Option Status :=
  match l with
  | [] => none
  | x :: t =>
    if kindAllowed x.kind u = false then some .sglType
    else if kindPoints x.kind && (decide (x.len = 0) || decide (x.len % 16 ≠ 0) || !t.isEmpty || final) then some .sglCount
    else segCheck u final t

/-- The walk of an SGL: the first failing descriptor decides; a failing read of a segment ends it. -/
def sglWalk (u : PtrUse) (final : Bool) (segs : List SglSeg) : Option Status :=
  match segs with
  | [] => none
  | s :: t =>
    if s.fetched = false then some .dataTransferError
    else match segCheck u final s.descs with
      | some e => some e
      | none => match s.descs.getLast? with
        | some x => if kindPoints x.kind then sglWalk u (decide (x.kind = SglKind.lastSegment)) t else none
        | none => none

/-- Bytes that a walked SGL describes. -/
def sglTotal (segs : List SglSeg) : Nat :=
  match segs with
  | [] => 0
  | s :: t =>
    let n := ((s.descs.filter (fun x => !kindPoints x.kind)).map (·.len)).sum
    match s.descs.getLast? with
    | some x => if kindPoints x.kind then n + sglTotal t else n
    | none => n

/-- Descriptor errors of a pointer. -/
def ptrWalk (p : DataPtr) (u : PtrUse) : Option Status :=
  match p with
  | .prp => none
  | .sgl segs => sglWalk u false segs

/-- Whether a pointer's total length differs from the declared one. -/
def ptrLengthBad (p : DataPtr) (n : Nat) : Bool :=
  match p with
  | .prp => false
  | .sgl segs => decide (sglTotal segs ≠ n)

/-- SGL_CHECK_FAILURE (R475): the checks of a command's pointers, the data's first; `metaLen` is given where metadata
goes through its own pointer. -/
def sglCheck (u : PtrUse) (dp : DataPtr) (len : Nat) (mp : Option (DataPtr × Nat)) : Option Status :=
  match ptrWalk dp u with
  | some e => some e
  | none =>
    match mp.bind (fun m => ptrWalk m.1 .metadata) with
    | some e => some e
    | none =>
      if ptrLengthBad dp len then some .dataSglLength
      else match mp with
        | some (m, n) => if ptrLengthBad m n then some .metaSglLength else none
        | none => none

/-! ## Commands -/

/-- A fetched command of its function's present epoch: one of an old epoch does nothing more (R65, step 1). -/
def Dev.live (d : Dev) (ref : CmdRef) : Option Cmd :=
  (d.cmd ref).filter (fun c => decide (c.epoch = (d.fn ref.fix).epoch))

/-- The fetched command that a row runs, if it has not been run yet. -/
def Dev.fresh (d : Dev) (ref : CmdRef) : Option Cmd := (d.live ref).filter (fun c => !c.ran)

/-- A command is run now. -/
def Dev.ran (d : Dev) (ref : CmdRef) : Dev := d.modCmd ref (fun c => { c with ran := true })

/-- Runs an admin command that has not been run. -/
def Dev.admin (d : Dev) (ref : CmdRef) (f : Dev → Dev) : Dev := if (d.fresh ref).isSome then f (d.ran ref) else d

/-- Runs an admin command that only a PF has; a VF receives Invalid Command Opcode (R73, R93). -/
def Dev.pfAdmin (d : Dev) (ref : CmdRef) (f : Dev → Dev) : Dev :=
  d.admin ref (fun d => if d.isPf ref.fix then f d else d.complete ref .invalidOpcode)

/-- Runs an I/O command that has not been run. Before the device is NVMe ready it completes with Namespace Not Ready
(R421), while a Sanitize runs with Sanitize In Progress (R91). -/
def Dev.io (d : Dev) (ref : CmdRef) (f : Dev → Dev) : Dev :=
  if (d.fresh ref).isSome then
    if d.nvm.ready = false then d.complete ref .nsNotReady
    else if d.nvm.sanitize ≠ 0 then d.complete ref .sanitizeInProgress
    else f (d.ran ref)
  else d

end Sys2Proof.Machine
end

