-- ==== Sys2Proof/Machine/Logs.lean ====
section
/-! DEFINITION. The log pages of R75 and R446, the Identify data of R72, and the Manifest records as bytes (R436). Bytes of
NVMe structures that the spec does not fix come from Config.pageByte (log 36). -/

namespace Sys2Proof.Machine

/-! ## Manifest records (R436) -/

/-- DETAIL: kept for groups and dies, the epoch for a function, otherwise 0. -/
def Dev.detailOf (d : Dev) (id : Nat) (u : MUnit) : Nat :=
  match id / 2 ^ 24 with
  | 4 => u.detail
  | 5 => u.detail
  | 12 => (d.fn (id % 2 ^ 24)).epoch
  | _ => 0

/-- A record of R436. -/
def Dev.recordOf (d : Dev) (id : Nat) (u : MUnit) : Bytes :=
  ({ u with detail := d.detailOf id u }).bytes id

def Dev.record436 (d : Dev) (id : Nat) : Bytes := d.recordOf id (d.unit id)

/-! ## Pages -/

/-- An open page of `n` bytes of an NVMe structure, with the fields given written over it. -/
def openPage (log : Bool) (id n : Nat) (l : List (Nat × Bytes)) : Bytes :=
  l.foldl (fun b p => overlay b p.1 p.2) ((List.range n).map (Config.pageByte log id))

/-- Spares remaining over spares at manufacture in percent, over the alive dies (R197); with no spare at manufacture the spec
states no result (log 47). -/
def Dev.availableSpare (d : Dev) : Nat :=
  let dies := d.mch.dies.filter (fun p => decide ((d.unit (uid 4 p.1)).state = .alive))
  let made := (dies.map (fun p => p.2.geo.spares.length)).sum
  if made = 0 then Config.openRatio 0 % 101 else 100 * (dies.map (fun p => p.2.spares.length)).sum / made

/-- Percentage Used (R448): 100 × the mean PE_COUNT of the blocks that are not retired ÷ the rated cycles of their
profiles. -/
def Dev.percentUsed (d : Dev) : Nat :=
  let dies := d.mch.dies.filter (·.2.known)
  let retired (n : Nat) : Nat := (d.map.blocks.filter (fun p => decide (p.1 / 8160 = n ∧ p.2.state = 4))).length
  let count := (dies.map (fun p => p.2.geo.blocks - retired p.1)).sum
  let cycles (n : Nat) : Nat :=
    ((d.map.blocks.filter (fun p => decide (p.1 / 8160 = n ∧ p.2.state ≠ 4))).map (fun p => p.2.pe)).sum
  let sum := dies.foldl (fun (q : Nat × Nat) p =>
    let r := max 1 (Config.ratedCycles p.2.geo.number)
    (q.1 * r + cycles p.1 * q.2, q.2 * r)) (0, 1)
  if count = 0 then Config.openRatio 1 % 256 else min 255 (100 * sum.1 / (sum.2 * count))

/-- The log page of the entries a controller has written: newest first. -/
def Dev.errorPage (d : Dev) (fix : Nat) : Bytes :=
  padTo 4096 ((d.nvm.errors.filter (fun e => e.ref.fix = fix)).map (fun e =>
    leBytes 8 e.count ++ leBytes 2 e.ref.qid ++ leBytes 2 e.ref.cid ++ leBytes 2 (2 * e.status.code) ++
      (List.range 50).map (fun i => Config.pageByte true 1 (14 + i)))).flatten

/-- SMART / Health Information. -/
def Dev.smartPage (d : Dev) (fix : Nat) : Bytes :=
  openPage true 2 512 [(0, leBytes 1 (maskOf d.nvm.critical ||| 2 * b2n (d.fn fix).tempPast)), (1, leBytes 2 (d.emb.tj + 273).toNat),
    (3, leBytes 1 d.availableSpare), (4, leBytes 1 (d.tf 9 0x20 1)), (5, leBytes 1 d.percentUsed),
    (32, leBytes 16 (ceilDiv (d.nvm.unitsRead * 64) 1000)), (48, leBytes 16 (ceilDiv d.nvm.bytesWritten 512000)),
    (64, leBytes 16 d.nvm.readCmds), (80, leBytes 16 d.nvm.writeCmds), (160, leBytes 16 d.nvm.mediaErrors),
    (176, leBytes 16 (fget d.nvm.errCounts 0 fix))]

/-- Firmware Slot Information: slot A is number 1, slot B number 2. -/
def Dev.slotPage (d : Dev) : Bytes :=
  let ver (n : Nat) : Nat := match fget d.bot.slots none n with
    | some i => i.version
    | none => 0
  let next := if d.bot.record.slot = d.bot.slot then 0 else d.bot.record.slot + 1
  padTo 512 (leBytes 1 (d.bot.slot + 1 + 16 * next) ++ zeroBytes 7 ++ leBytes 8 (ver 0) ++ leBytes 8 (ver 1))

/-- Admin opcodes that a function supports (R73, R93). -/
def Dev.adminOps (d : Dev) (fix : Nat) : List Nat :=
  [0x00, 0x01, 0x02, 0x04, 0x05, 0x06, 0x08, 0x09, 0x0A, 0x0C, 0x14, 0xC1, 0xC2, 0xC3, 0xC5, 0xC6] ++
    (if d.isPf fix then [0x0D, 0x10, 0x11, 0x15, 0x80, 0x84, 0xC0, 0xC4] else [])

/-- I/O opcodes (R74, R93). -/
def ioOps : List Nat := [0x00, 0x01, 0x02, 0x05, 0x08, 0x09, 0x0C, 0x0D, 0x0E, 0x11, 0x15, 0x81, 0x82, 0x83]

/-- Data transfer direction of a command: 0 none, 1 host to device, 2 device to host, 3 both; the vendor commands' are R93's, and
NVMe 2.1 codes that of its own in the low bits of the opcode. -/
def transferDir (o : Nat) : Nat :=
  match o with
  | 0xC0 => 3 | 0xC1 => 1 | 0xC2 => 0 | 0xC3 => 3 | 0xC4 => 2 | 0xC5 => 2 | 0xC6 => 2 | 0x81 => 0 | 0x82 => 1 | 0x83 => 2
  | _ => o % 4

/-- Commands Supported and Effects: an entry of an opcode that is absent is 0; the effects are NVMe's. Which bits of an entry
report the direction the spec leaves open (log 102). -/
def Dev.effectsPage (d : Dev) (fix : Nat) : Bytes :=
  let entry (ok : Bool) (o off : Nat) : Bytes :=
    if ok then (List.range 4).map (fun i => (if i = 0 then 1#8 else 0#8) ||| Config.pageByte true 5 (off + i) |||
      Config.directionByte (transferDir o) i)
    else zeroBytes 4
  padTo 4096 (((List.range 256).map (fun o => entry (decide (o ∈ d.adminOps fix)) o (4 * o))).flatten ++
    ((List.range 256).map (fun o => entry (decide (o ∈ ioOps)) o (1024 + 4 * o))).flatten)

/-- Device Self-test: byte 0 the test that runs, then up to 20 results, newest first. -/
def Dev.testPage (d : Dev) : Bytes :=
  let t := d.nvm.selfTest
  let res (i : Nat) : Bytes := match t.results[i]? with
    | some (k, r) => leBytes 1 (16 * k + r) ++ (List.range 27).map (fun j => Config.pageByte true 6 (5 + j))
    | none => leBytes 1 0xF ++ zeroBytes 27
  leBytes 1 t.running ++ [Config.pageByte true 6 1, 0, 0] ++ ((List.range 20).map res).flatten

/-- A telemetry log: the header, then the three areas in blocks of 512 bytes (R446). -/
def Dev.telemetryPage (d : Dev) (lid : Nat) (t : Telem) : Bytes :=
  let head := openPage true lid 512 [(0, leBytes 1 lid), (8, leBytes 2 8), (10, leBytes 2 677), (12, leBytes 2 933),
    (382, leBytes 1 1), (383, leBytes 1 t.gen)]
  head ++ padTo 4096 t.area1 ++
    (unitIds.map (fun id => d.recordOf id (fget t.units (unitInit id) id))).flatten ++
    padTo 131072 ((t.ring.map Ev.bytes).flatten)

/-- Reservation Notification: the oldest notification that has not been read, or an empty page. -/
def Fn.resvPage (f : Fn) : Bytes :=
  match f.resvLog with
  | (ty, nsid) :: t =>
    padTo 64 (leBytes 8 (f.resvCount - t.length) ++ leBytes 1 ty ++ leBytes 1 t.length ++ zeroBytes 2 ++ leBytes 4 nsid)
  | [] => zeroBytes 64

/-- Sanitize Status, with the estimated times of R91. -/
def Dev.sanitizePage (d : Dev) : Bytes :=
  openPage true 0x81 512 [(2, leBytes 2 d.nvm.sanStatus), (4, leBytes 4 d.nvm.sanAction), (12, leBytes 4 120),
    (16, leBytes 4 2)]

/-- Changed Namespace List. -/
def Fn.changedPage (f : Fn) : Bytes := padTo 4096 ((f.changedNs.map (leBytes 4)).flatten)

/-- The log pages of R75 (none: not supported). -/
def Dev.logPage (d : Dev) (fix lid : Nat) : Option Bytes :=
  match lid with
  | 0x01 => some (d.errorPage fix)
  | 0x02 => some (d.smartPage fix)
  | 0x03 => some d.slotPage
  | 0x04 => some (d.fn fix).changedPage
  | 0x05 => some (d.effectsPage fix)
  | 0x06 => some d.testPage
  | 0x07 => some (d.telemetryPage 7 d.mgt.telemHost)
  | 0x08 => some (d.telemetryPage 8 d.mgt.telemCtrl)
  | 0x80 => some (d.fn fix).resvPage
  | 0x81 => some d.sanitizePage
  | _ => none

/-- The log page that clears an asynchronous event, by the event's key (R443; NVMe 2.1 for the others). -/
def aenPage (key : Nat) : Nat :=
  match key / 256 with
  | 0 => 0x01
  | 1 => 0x02
  | 6 => if key % 256 = 0 then 0x80 else 0x81
  | 7 => 0x08
  | _ => if key % 256 = 0 then 0x04 else if key % 256 = 1 then 0x03 else 0x07

/-- A read of a log page with RAE clear: its events may be posted anew, and what the page counts as read is dropped. -/
def Dev.clearEvents (d : Dev) (fix lid : Nat) : Dev :=
  d.modFn fix (fun f => { f with
    merged := f.merged.filter (fun k => aenPage k ≠ lid)
    changedNs := if lid = 0x04 then [] else f.changedNs
    resvLog := if lid = 0x80 then f.resvLog.drop 1 else f.resvLog })

/-! ## Identify (R72, R476, R187) -/

/-- Atomic write units of a format, 0-based: one granule (R72). -/
def atomicUnit (lbaf : Nat) : Nat := lbasPer lbaf - 1

/-- AWUN and AWUPF of a controller: 7 at 4,096-byte LBAs, 1 at 16,384-byte LBAs; where namespaces of both stand, what holds for
every one of them (DEDUCED, log 98). -/
def Dev.awun (d : Dev) : Nat :=
  if d.nvm.nss.any (fun p => match p.2 with
    | some n => decide (3 ≤ n.lbaf)
    | none => false) then atomicUnit 3 else atomicUnit 0

/-- OACS: Format, Firmware, Namespace Management and Device Self-test; a VF has the last alone (R73). -/
def Dev.oacs (d : Dev) (fix : Nat) : Nat := if d.isPf fix then 0x1E else 0x10

/-- ONCS: Compare, Dataset Management, Write Zeroes, Save and Select fields, reservations, Timestamp, Verify (R74, R75). -/
def oncs : Nat := 0xFD

/-- SGLS: SGLs of byte alignment, Bit Bucket, and an SGL at MPTR (R83). -/
def sgls : Nat := 1 + 2 ^ 16 + 2 ^ 19

/-- Identify Controller. FRMW: two slots, neither read-only, activation without reset. LPA, OAES, CTRATT, KPIOC, SQES, CQES, FUSES
and FNA are what NVMe 2.1 requires for what R73 to R76, R83, R90 and R92 support (log 38). -/
def Dev.identifyController (d : Dev) (fix : Nat) : Bytes :=
  openPage false 1 4096 [(80, leBytes 4 vsRegister), (92, leBytes 4 0x300), (96, leBytes 4 1), (256, leBytes 2 (d.oacs fix)),
    (261, leBytes 1 0x0E), (358, leBytes 1 1), (512, leBytes 1 0x66), (513, leBytes 1 0x44), (520, leBytes 2 oncs),
    (522, leBytes 2 0), (524, leBytes 1 4), (526, leBytes 2 d.awun), (528, leBytes 2 d.awun), (536, leBytes 4 sgls),
    (76, leBytes 1 (6 + b2n (decide (d.hlk.modeA = 1)))), (77, leBytes 1 9), (78, leBytes 2 fix),
    (88, leBytes 4 100000), (258, leBytes 1 7), (259, leBytes 1 7), (260, leBytes 1 0x14), (262, leBytes 1 63),
    (263, leBytes 1 0), (328, leBytes 4 3), (516, leBytes 4 1024), (525, leBytes 1 0), (2048, leBytes 2 9500)]

/-- Identify Namespace of a namespace. -/
def Ns.page (n : Ns) : Bytes :=
  openPage false 0 4096 ([(0, leBytes 8 n.nsze), (8, leBytes 8 n.nsze), (25, leBytes 1 5),
    (26, leBytes 1 (n.lbaf + 16 * b2n n.extended)), (27, leBytes 1 3), (28, leBytes 2 0), (30, leBytes 1 (b2n n.shared)), (31, leBytes 1 0x7F),
    (33, leBytes 1 0x09), (34, leBytes 2 (atomicUnit n.lbaf)), (36, leBytes 2 (atomicUnit n.lbaf)),
    (99, leBytes 1 (b2n n.readOnly))] ++
    (List.range 6).map (fun i => (128 + 4 * i, leBytes 2 (lbaMeta i) ++ leBytes 1 (if i < 3 then 12 else 14))))

/-- The I/O Command Set Independent Identify Namespace data with the Key Per I/O fields of NVMe 2.1 (R90): supported, and enabled
where the namespace was created so, with the greatest key tag. -/
def Ns.independentPage (n : Ns) : Bytes :=
  openPage false 8 4096 [(1, leBytes 1 (b2n n.shared)), (2, leBytes 1 0x7F), (8, leBytes 1 (b2n n.readOnly)), (14, leBytes 1 1),
    (15, leBytes 1 (2 + b2n n.kpio)), (16, leBytes 2 (if n.kpio then 4095 else 0))]

/-- A list of identifiers as NVMe 2.1 lays it out: ascending, 4 bytes each, at most 1,024. -/
def idList (l : List Nat) : Bytes := padTo 4096 ((l.take 1024).map (leBytes 4)).flatten

/-- A controller list: a count, then 2-byte identifiers. -/
def ctrlList (l : List Nat) : Bytes := padTo 4096 (leBytes 2 l.length ++ (l.map (leBytes 2)).flatten)

/-- NSIDs above one, allocated, and attached to a controller if one is named. -/
def Dev.nsidsAbove (d : Dev) (nsid : Nat) (ctrl : Option Nat) : List Nat :=
  (d.nvm.nss.filter (fun p => decide (nsid < p.1) && (match p.2, ctrl with
    | some n, some c => n.ready && decide (c ∈ n.attached)
    | some n, none => n.ready
    | none, _ => false))).map (·.1)

/-- Whether an NSID can name a namespace (NN of R72). -/
def nsidValid (nsid : Nat) : Bool := decide (1 ≤ nsid ∧ nsid ≤ 1024)

/-- The data that Identify returns, or a status. -/
def Dev.identify72 (d : Dev) (fix cns nsid cntid : Nat) : Except Status Bytes :=
  let nsPage (only : Bool) : Bytes := match d.ns nsid with
    | some n => if n.ready && (!only || decide (fix ∈ n.attached)) then n.page else zeroBytes 4096
    | none => zeroBytes 4096
  match cns with
  | 0x00 => if nsid = 0xFFFFFFFF then .ok (openPage false 0 4096 [(25, leBytes 1 5), (33, leBytes 1 0x09)])
            else if nsidValid nsid then .ok (nsPage true) else .error .invalidNsid
  | 0x01 => .ok (d.identifyController fix)
  | 0x02 => if nsid < 0xFFFFFFFE then .ok (idList (d.nsidsAbove nsid (some fix))) else .error .invalidNsid
  | 0x10 => if nsid < 0xFFFFFFFE then .ok (idList (d.nsidsAbove nsid none)) else .error .invalidNsid
  | 0x11 => if nsidValid nsid then .ok (nsPage false) else .error .invalidNsid
  | 0x12 => match d.ns nsid with
    | some n => .ok (ctrlList (n.attached.filter (fun c => decide (cntid ≤ c))))
    | none => if nsidValid nsid then .ok (ctrlList []) else .error .invalidNsid
  | 0x13 => .ok (ctrlList ((List.range nFn).filter (fun c => decide (cntid ≤ c) && d.fnExists c)))
  | 0x08 => if nsidValid nsid then .ok (match d.ns nsid with
      | some n => if n.ready && decide (fix ∈ n.attached) then n.independentPage else zeroBytes 4096
      | none => zeroBytes 4096) else .error .invalidNsid
  | 0x03 | 0x05 | 0x06 => .ok (openPage false cns 4096 [])
  | _ => .error .invalidField

end Sys2Proof.Machine
end

