-- ==== Sys2Proof/Machine/Admin.lean ====
section
/-! DEFINITION. Admin commands of the queues, the features, the logs and the controllers (R72, R73, R75, R76, R79, R82,
R86, R443), shutdown (R472) and Device Self-test (R353). -/

namespace Sys2Proof.Machine

/-! ## Absent commands and queues -/

/-- UNSUPPORTED_COMMAND: an absent opcode, or a PF-only one from a VF. -/
def execUnsupportedCommand (ref : CmdRef) (s : State) : Host.Outcome State Fault Refusal :=
  act s fun d => d.admin ref (fun d => d.complete ref .invalidOpcode)

/-- The checks of R76, then those of NVMe 2.1 that follow them (log 38). -/
def queueCheck (contiguous there : Bool) (qid entries : Nat) : Option Status :=
  if !contiguous then some .invalidField
  else if qid < 1 ∨ 256 < qid then some .invalidQueueId
  else if there then some .invalidQueueId
  else if 65536 < entries ∨ entries < 2 then some .invalidQueueSize
  else none

/-- CREATE_IO_SQ. -/
def execCreateIoSq (ref : CmdRef) (contiguous : Bool) (qid entries base cqid : Nat) (s : State) :
    Host.Outcome State Fault Refusal :=
  act s fun d => d.admin ref fun d =>
    let f := d.fn ref.fix
    match queueCheck contiguous (f.sq qid).isSome qid entries with
    | some e => d.complete ref e
    | none =>
      if cqid < 1 ∨ 256 < cqid then d.complete ref .invalidQueueId
      else if (f.cq cqid).isNone then d.complete ref .cqInvalid
      else (d.modFn ref.fix (fun f => { f with
        sqs := fset f.sqs qid (some { base := base, size := entries, cqid := cqid }) })).complete ref .success

/-- CREATE_IO_CQ. -/
def execCreateIoCq (ref : CmdRef) (contiguous ien : Bool) (qid entries base vector : Nat) (s : State) :
    Host.Outcome State Fault Refusal :=
  act s fun d => d.admin ref fun d =>
    let f := d.fn ref.fix
    match queueCheck contiguous (f.cq qid).isSome qid entries with
    | some e => d.complete ref e
    | none =>
      if 256 < vector then d.complete ref .invalidVector
      else (d.modFn ref.fix (fun f => { f with
        cqs := fset f.cqs qid (some { base := base, size := entries, vector := vector, ien := ien }) })).complete ref .success

/-! ## Started commands (R79, R82, R472) -/

/-- Whether a fetched command has started changing media or running a program: its row has been run, and it does not
wait for a share or for its instance (log 39). -/
def Cmd.begun (c : Cmd) : Bool :=
  match c.job with
  | .share _ => false
  | .compute _ => c.started
  | _ => c.ran

/-- Ends a command that has not started, with what it waits for. -/
def Dev.cancelCmd (d : Dev) (c : Cmd) (st : Status) : Dev :=
  let d := match c.job with
    | .share p => d.withdraw p (.cmd c.ref)
    | .compute id => match d.wb id with
      | some w => d.dropWaiting w
      | none => d
    | .aer => d.modFn c.ref.fix (fun f => { f with aers := f.aers.filter (· ≠ c.ref) })
    | _ => d
  d.complete c.ref st

/-- DELETE_IO_SQ: entries fetched and not started are aborted as NVMe 2.1 requires; with started ones still out, the
command completes after the last of them. -/
def execDeleteIoSq (ref : CmdRef) (qid : Nat) (s : State) : Host.Outcome State Fault Refusal :=
  act s fun d => d.admin ref fun d =>
    if qid = 0 ∨ ((d.fn ref.fix).sq qid).isNone then d.complete ref .invalidQueueId
    else
      let d := d.modFn ref.fix (fun f => { f with
        sqs := fset f.sqs qid ((f.sq qid).map (fun q => { q with ready := false, head := q.tail })) })
      let mine := d.nvm.cmds.filter (fun c => decide (c.ref.fix = ref.fix ∧ c.ref.qid = qid) && !c.begun)
      let d := d.forEach mine (fun d c => d.cancelCmd c .abortedSqDeletion)
      let d := d.modCmd ref (fun c => { c with job := .sqDelete qid })
      match d.cmd ref with
      | some c => d.endDelete c
      | none => d

/-- DELETE_IO_CQ. The queue goes once every completion that it holds back for want of room is in it (R32; log 73). -/
def execDeleteIoCq (ref : CmdRef) (qid : Nat) (s : State) : Host.Outcome State Fault Refusal :=
  act s fun d => d.admin ref fun d =>
    let f := d.fn ref.fix
    match f.cq qid with
    | none => d.complete ref .invalidQueueId
    | some _ =>
      if qid = 0 then d.complete ref .invalidQueueId
      else if f.sqs.any (fun p => match p.2 with
        | some x => decide (p.1 ≠ 0 ∧ x.cqid = qid)
        | none => false) then d.complete ref .invalidQueueDeletion
      else
        let d := d.modCmd ref (fun c => { c with job := .cqDelete qid })
        match d.cmd ref with
        | some c => d.endDelete c
        | none => d

/-! ## Logs and Identify -/

/-- GET_LOG_PAGE: `len` bytes from `offset`; a Telemetry Host-Initiated read with `capture` captures first (R446). With
RAE clear the page's events may be posted anew (R443). -/
def execGetLogPage (ref : CmdRef) (lid offset len : Nat) (rae capture : Bool) (s : State) :
    Host.Outcome State Fault Refusal :=
  act s fun d => d.admin ref fun d =>
    let d : Dev := if lid = 7 ∧ capture then { d with mgt := { d.mgt with telemHost := d.capture d.mgt.telemHost } } else d
    match d.logPage ref.fix lid with
    | none => d.complete ref .invalidField
    | some page =>
      if page.length < offset then d.complete ref .invalidField
      else
        let d := d.emit (.toHost ref 0 (slice page offset len))
        let d := if rae then d else d.clearEvents ref.fix lid
        d.complete ref .success

/-- IDENTIFY. -/
def execIdentify (ref : CmdRef) (cns nsid cntid : Nat) (s : State) : Host.Outcome State Fault Refusal :=
  act s fun d => d.admin ref fun d =>
    match d.identify72 ref.fix cns nsid cntid with
    | .ok b => (d.emit (.toHost ref 0 b)).complete ref .success
    | .error e => d.complete ref e

/-! ## Abort (R82) -/

/-- An Abort without effect: Dword 0 bit 0 set. -/
def Dev.abortNone (d : Dev) (ref : CmdRef) : Dev := d.complete ref .success 1

/-- ABORT of the command with identifier `cid` on queue `sqid` of the same controller. -/
def execAbort (ref : CmdRef) (sqid cid : Nat) (s : State) : Host.Outcome State Fault Refusal :=
  act s fun d => d.admin ref fun d =>
    match d.cmd ⟨ref.fix, sqid, cid⟩ with
    | none => d.abortNone ref
    | some c =>
      match c.job with
      | .aer => (d.cancelCmd c .abortRequested).complete ref .success
      | .share _ => (d.cancelCmd c .abortRequested).complete ref .success
      | .compute id =>
        match d.wb id with
        | none => d.abortNone ref
        | some w =>
          match w.state with
          | .admitting | .waiting => (d.cancelCmd c .abortRequested).complete ref .success
          | .running => ((d.modWb id (fun w => { w with byAbort := true })).endCause id 7).complete ref .success
          | _ => d.abortNone ref
      | _ =>
        if sqid ≠ 0 ∧ c.ran = false then (d.cancelCmd c .abortRequested).complete ref .success
        else d.abortNone ref

/-! ## Features (R75, R86, R87, R222) -/

/-- A change of aggregation: with a time of 0 the message for unsignalled entries goes out at once; a changed time puts
every vector's T back to TMAX (R86, R87). -/
def Dev.setCoalescing (d : Dev) (fix thr time : Nat) : Dev :=
  let old := (d.fn fix).feat.aggTime
  let d := d.modFn fix (fun f => { f with
    feat := { f.feat with aggThr := thr, aggTime := time }
    vecs := if time = old then f.vecs else f.vecs.map (fun p => (p.1, { p.2 with adaptive := none })) })
  if time = 0 then
    d.forEach (((d.fn fix).vecs.filter (fun p => decide (0 < p.2.unsignalled))).map (·.1)) (fun d v => d.sendMsg fix v)
  else d

/-- A change of a vector's Coalescing Disable. -/
def Dev.setCoalesceDisable (d : Dev) (fix v : Nat) (off : Bool) : Dev :=
  let x := (d.fn fix).vec v
  let d := d.modVec fix v (fun x => { x with
    noCoalesce := off, adaptive := if x.noCoalesce && !off then none else x.adaptive })
  if off && decide (0 < x.unsignalled) then d.sendMsg fix v else d

/-- Whether Dword 11 of Temperature Threshold selects what is absent: the Composite Temperature is the one temperature that the
controllers report (log 12), and THSEL is 0 over or 1 under. -/
def tempSelBad (v : Nat) : Bool := decide (bitsOf v 16 4 ∉ [0, 15]) || decide (1 < bitsOf v 20 2)

/-- SET_FEATURES: identifier, Save, NSID, Command Dword 11 and the data of the features that have some (none: the transfer
failed). No feature is saveable (R471). -/
def execSetFeatures (ref : CmdRef) (fid : Nat) (save : Bool) (nsid value : Nat) (data : Option Bytes) (s : State) :
    Host.Outcome State Fault Refusal :=
  act s fun d => d.admin ref fun d =>
    let fix := ref.fix
    let feat (g : Features → Features) : Dev := d.modFn fix (fun f => { f with feat := g f.feat })
    let withData (g : Bytes → Dev) : Dev := match data with
      | some b => ((g b).hostRead fix b.length).complete ref .success
      | none => d.complete ref .dataTransferError
    if fid ∉ [0x01, 0x02, 0x04, 0x05, 0x07, 0x08, 0x09, 0x0B, 0x0E, 0x81, 0x82] then d.complete ref .invalidField
    else if save then d.complete ref .featureNotSaveable
    else match fid with
      | 0x01 => (feat (fun f => { f with burst := value % 8 })).complete ref .success
      | 0x02 => if value % 32 = 0 then d.complete ref .success else d.complete ref .invalidField
      | 0x04 =>
        if tempSelBad value then d.complete ref .invalidField
        else
          let t := value % 65536
          ((feat (fun f => if bit value 20 then { f with tempUnder := t } else { f with tempOver := t })).checkTemps).complete ref
            .success
      | 0x05 => (feat (fun f => { f with errRecovery := value })).complete ref .success
      | 0x07 =>
        if value % 65536 = 65535 ∨ value / 65536 = 65535 then d.complete ref .invalidField
        else d.complete ref .success (255 + 65536 * 255)
      | 0x08 => (d.setCoalescing fix (value % 256) (value / 256 % 256)).complete ref .success
      | 0x09 =>
        if 256 < value % 65536 then d.complete ref .invalidField
        else (d.setCoalesceDisable fix (value % 65536) (bit value 16)).complete ref .success
      | 0x0B => (feat (fun f => { f with asyncCfg := value })).complete ref .success
      | 0x0E => withData (fun b => { d with clk := { d.clk with stamp := some (fieldAt b 0 6, d.clk.ticks) } })
      | 0x81 => withData (fun b => feat (fun f => { f with hostId := fieldAt b 0 (if bit value 0 then 16 else 8) }))
      | _ =>
        if nsid = 0xFFFFFFFF then
          let l := d.nsidsAbove 0 (some fix)
          (feat (fun f => { f with resvMask := l.foldl (fun m n => fset m n value) f.resvMask })).complete ref .success
        else match d.ns nsid with
          | some n =>
            if fix ∈ n.attached then (feat (fun f => { f with resvMask := fset f.resvMask nsid value })).complete ref .success
            else d.complete ref .invalidField
          | none => d.complete ref .invalidNsid

/-- Dword 0 of a feature's value. -/
def Dev.featureValue (d : Dev) (fix : Nat) (f : Features) (fid nsid value : Nat) : Nat :=
  match fid with
  | 0x01 => f.burst
  | 0x04 => if bit value 20 then f.tempUnder else f.tempOver
  | 0x05 => f.errRecovery
  | 0x07 => 255 + 65536 * 255
  | 0x08 => f.aggThr + 256 * f.aggTime
  | 0x09 => value % 65536 + 65536 * b2n ((d.fn fix).vec (value % 65536)).noCoalesce
  | 0x0B => f.asyncCfg
  | 0x82 => fget f.resvMask 0 nsid
  | _ => 0

/-- GET_FEATURES: Select 0 current, 1 default, 2 saved (the default, since none is saveable), 3 capabilities (changeable
but for Number of Queues and Power Management; namespace specific for the reservation mask). -/
def execGetFeatures (ref : CmdRef) (fid sel nsid value : Nat) (s : State) : Host.Outcome State Fault Refusal :=
  act s fun d => d.admin ref fun d =>
    let fix := ref.fix
    let f := if sel = 0 then (d.fn fix).feat else {}
    if fid ∉ [0x01, 0x02, 0x04, 0x05, 0x07, 0x08, 0x09, 0x0B, 0x0E, 0x81, 0x82] ∨ 3 < sel then d.complete ref .invalidField
    else if (fid = 0x09 ∧ 256 < value % 65536) ∨ (fid = 0x04 ∧ tempSelBad value = true) then d.complete ref .invalidField
    else if sel = 3 then
      d.complete ref .success ((if fid = 0x02 ∨ fid = 0x07 then 0 else 4) + (if fid = 0x82 then 2 else 0))
    else match fid with
      | 0x0E =>
        let set := d.clk.stamp.isSome
        (d.emit (.toHost ref 0 (leBytes 6 d.nowMs ++ leBytes 1 (2 * b2n set) ++ [0]))).complete ref .success
      | 0x81 => (d.emit (.toHost ref 0 (leBytes (if bit value 0 then 16 else 8) f.hostId))).complete ref .success
      | _ =>
        if sel ≠ 0 ∧ fid = 0x09 then d.complete ref .success (value % 65536)
        else d.complete ref .success (d.featureValue fix f fid nsid value)

/-! ## Asynchronous events (R443) -/

/-- ASYNCHRONOUS_EVENT_REQUEST: answered with the oldest event that waits, else held; at most 8 (R72). -/
def execAsynchronousEventRequest (ref : CmdRef) (s : State) : Host.Outcome State Fault Refusal :=
  act s fun d => d.admin ref fun d =>
    let f := d.fn ref.fix
    match f.events with
    | (ty, info, page) :: t =>
      ((d.modFn ref.fix (fun f => { f with events := t })).emit (.aen ref.fix ty info page)).complete ref .success
        (ty + 256 * info + 65536 * page)
    | [] =>
      if 8 ≤ f.aers.length then d.complete ref .aerLimit
      else (d.modFn ref.fix (fun f => { f with aers := f.aers ++ [ref] })).modCmd ref (fun c => { c with job := .aer })

/-! ## Shutdown (R472) -/

/-- The cycle of a CC.SHN write: fetch stops, SHST reads 01b, and Waybills end. -/
def Dev.beginShutdown (d : Dev) (fix shn : Nat) : Dev :=
  let d := d.modFn fix (fun f => { f with noFetch := true, shst := 1, shn := shn })
  d.forEach (d.hrt.wbs.filter (fun w => decide (w.ref.fix = fix))) (fun d w => d.sanitizeWaybill w)

/-- Whether a shutdown can begin on a controller. -/
def Dev.canShutDown (d : Dev) (fix : Nat) : Bool :=
  d.fnExists fix && (d.fn fix).ccEn && !(d.fn fix).resetting && decide ((d.fn fix).shst = 0)

/-- CONTROLLER_SHUTDOWN_NORMAL. -/
def execControllerShutdownNormal (fix : Nat) (s : State) : Host.Outcome State Fault Refusal :=
  act s fun d => if d.canShutDown fix then d.beginShutdown fix 1 else d

/-- CONTROLLER_SHUTDOWN_ABRUPT: commands fetched and not started complete with Command Abort Requested. -/
def execControllerShutdownAbrupt (fix : Nat) (s : State) : Host.Outcome State Fault Refusal :=
  act s fun d =>
    if d.canShutDown fix then
      let d := d.beginShutdown fix 2
      d.forEach (d.nvm.cmds.filter (fun c => decide (c.ref.fix = fix) && (!c.begun || decide (c.job = .aer))))
        (fun d c => d.cancelCmd c .abortRequested)
    else d

/-! ## Device Self-test (R73, R353) -/

/-- A commit of FLOW_MODE on every firmware Hearth: it waits there for the threads with a flow (R353). -/
def Dev.firmwareFlowMode (d : Dev) (m : Nat) : Dev :=
  d.forEach ((List.range 6).filter (fun h => decide (d.hearthRole h = 0))) (fun d h =>
    d.modDh h (fun q => { q with flowMode := m, flowNext := if q.flowModeA = m then none else some m }))

/-- FLOW_MODE at the end of a start (step 6 of R194): 0 is committed on every firmware Hearth, and owner Hearths run with 0. -/
def Dev.startFlowMode (d : Dev) : Dev :=
  (d.firmwareFlowMode 0).forEach ((List.range 6).filter (fun h => decide (d.hearthRole h ≠ 0))) Dev.atomicMode

/-- Starts a self-test: 1 short, 2 extended. Its command completes; ordered flow mode serves the test. -/
def Dev.startSelfTest (d : Dev) (ref : CmdRef) (kind : Nat) : Dev :=
  if d.nvm.selfTest.running ≠ 0 then d.complete ref .selfTestInProgress
  else (({ d with nvm := { d.nvm with selfTest := { d.nvm.selfTest with running := kind, fix := ref.fix } } }).firmwareFlowMode
    1).complete ref .success

/-- DEVICE_SELF_TEST_SHORT. -/
def execDeviceSelfTestShort (ref : CmdRef) (s : State) : Host.Outcome State Fault Refusal :=
  act s fun d => d.admin ref (fun d => d.startSelfTest ref 1)

/-- DEVICE_SELF_TEST_EXTENDED. -/
def execDeviceSelfTestExtended (ref : CmdRef) (s : State) : Host.Outcome State Fault Refusal :=
  act s fun d => d.admin ref (fun d => d.startSelfTest ref 2)

/-- DEVICE_SELF_TEST_COMPLETE: logged with a result code, 0 for a pass; a core that failed is retired (R438), and firmware
commits FLOW_MODE 0. -/
def execDeviceSelfTestComplete (failedCore : Option Nat) (s : State) : Host.Outcome State Fault Refusal :=
  act s fun d =>
    if d.nvm.selfTest.running = 0 then d
    else
      let d := match failedCore with
        | some c => if c < 48 then (d.endSelfTest 7).transition (uid 1 c) .retired .hardware else d.endSelfTest 7
        | none => d.endSelfTest 0
      d.firmwareFlowMode 0

end Sys2Proof.Machine
end

