-- ==== Sys2Proof/Machine/Flags.lean ====
section
/-! DEFINITION. What stands for flags on Feresk: it has no condition flags (R261); comparisons write predicates, with the
lane-size tag and the conversions of R262. -/

namespace Sys2Proof.Machine

/-- Bit `i` of a predicate read at lane size `esz`: to a smaller size each lane takes the bit of the larger lane that
contains it, to a larger size a lane is active only when every smaller lane in it is. -/
def Pred.bitAt (p : Pred) (esz i : Nat) : Bool :=
  if esz ≤ p.psz then p.mask.getLsbD (i / 2 ^ (p.psz - esz))
  else (List.range (2 ^ (esz - p.psz))).all (fun j => p.mask.getLsbD (i * 2 ^ (esz - p.psz) + j))

/-- The lanes of a predicate at a lane size. -/
def Pred.bits (p : Pred) (esz : Nat) : List Bool := (List.range (laneCount esz)).map (p.bitAt esz)

/-- The number whose bits are those listed, the first at bit 0. -/
def ofBits (l : List Bool) : Nat :=
  match l with
  | [] => 0
  | b :: t => b2n b + 2 * ofBits t

/-- A predicate written at lane size `esz`; bits beyond the lanes are 0. -/
def Pred.of (esz : Nat) (f : Nat → Bool) : Pred :=
  { psz := esz, mask := BitVec.ofNat 64 (ofBits ((List.range (laneCount esz)).map f)) }

/-- Whether lane `i` is active under the governing predicate of an instruction. -/
def Ctx.activeLane (c : Ctx) (f : Fw) (i : Nat) : Bool := !f.pg || (c.getP f.pn).bitAt f.esz i

/-- The active lanes, ascending. -/
def Ctx.activeLanes (c : Ctx) (f : Fw) : List Nat := (List.range (laneCount f.esz)).filter (c.activeLane f)

/-- A result written to the active lanes of v[dst]; the others are zeroed or kept (R263, R271). -/
def Ctx.putLanes (c : Ctx) (f : Fw) (g : Nat → Nat) : Ctx :=
  c.setV f.dst (ofLanes f.esz ((List.range (laneCount f.esz)).map (fun i =>
    if c.activeLane f i then g i else if f.zero then 0 else laneOf f.esz (c.getV f.dst) i)))

/-- A comparison written to p[dst]; inactive lanes are cleared (R262). -/
def Ctx.putPred (c : Ctx) (f : Fw) (g : Nat → Bool) : Ctx :=
  c.setP f.dst (Pred.of f.esz (fun i => c.activeLane f i && g i))

end Sys2Proof.Machine
end

