-- ==== Sys2Proof/Machine/Feresk.lean ====
section
/-! DEFINITION. The frame of a Feresk instruction (R261, R263, R277, R279) and the data windows (R239, R253, R269, R270). -/

namespace Sys2Proof.Machine

/-! ## The frame of an instruction -/

/-- The instance that runs on a hardware context: its Waybill's number. -/
def Dev.instOn (d : Dev) (ctx : Nat) : Option Nat := (d.busyOf ctx).bind (fun n => (d.thread n).wb)

/-- The word at the program counter of an instance (R263). -/
def Image.wordAt (im : Image) (pc : BitVec 64) : Nat := fieldAt im.code (pc.toNat - 0x10000000000) 8

/-- The instruction that a hardware context is about to run, if it is of opcode `op`: the instance's number, its state,
the fields of the word and the image. A blocked instance, one at a segment boundary and a graph between firings run
none. -/
def Dev.fetch (d : Dev) (ctx op : Nat) : Option (Nat × Ctx × Fw × Image) :=
  match d.instOn ctx with
  | none => none
  | some id =>
    match d.inst id, (d.wb id).bind (fun w => d.image w.slot) with
    | some c, some im =>
      let f := Fw.decode (im.wordAt c.pc)
      if c.block = .none ∧ c.boundary = false ∧ (im.graph = false ∨ c.firing.isSome ∨ c.quiescent = true) ∧ f.op = op then
        some (id, c, f, im)
      else none
    | _, _ => none

/-- An instruction that has completed counts as retired (R279); at 65,536 the instance stands at a segment boundary. -/
def Ctx.retire (c : Ctx) : Ctx := { c with retired := c.retired + 1, boundary := decide (65536 ≤ c.retired + 1) }

/-- Runs one instruction of opcode `op`: its effect, or the cause code of R277 on which it ends the instance with nothing
written. -/
def Dev.instr (d : Dev) (ctx op : Nat) (e : Image → Ctx → Fw → Except Nat Ctx) : Dev :=
  match d.fetch ctx op with
  | none => d
  | some (id, c, f, im) => match e im c f with
    | .ok x => d.setInst id x.retire
    | .error code => d.faultInstance id code c.pc.toNat

/-- The next instruction. -/
def Ctx.next (c : Ctx) : Ctx := { c with pc := c.pc + 8 }

/-- An instruction without faults that goes on at PC + 8. -/
def Dev.plain (d : Dev) (ctx op : Nat) (e : Ctx → Fw → Ctx) : Dev := d.instr ctx op (fun _ c f => .ok (e c f).next)

/-! ## Windows (R239) -/

/-- The window that an address names, its offset, and whether bits [63:40] are 0. -/
def winOf (a : Nat) : Nat := a / 2 ^ 36 % 16
def offOf (a : Nat) : Nat := a % 2 ^ 36

/-- Length of a window. W0 has length 0 while it holds no chunk: before the first one, and after END_OF_INPUT (R240, R251). -/
def Ctx.winLen (c : Ctx) (w : Nat) : Nat :=
  match w with
  | 0 => if c.w0.isEmpty then 0 else 65536
  | 1 => 65536
  | 2 => c.scratch
  | 3 => c.w3.length
  | 4 => 64
  | _ => 0

/-- Whether an access of `n` bytes is valid: wholly within one window that grants it. -/
def Ctx.valid (c : Ctx) (a n : Nat) (write : Bool) : Bool :=
  decide (a < 2 ^ 40 ∧ offOf a + n ≤ c.winLen (winOf a)) && (!write || decide (winOf a = 1 ∨ winOf a = 2)) &&
    decide (winOf a < 5)

/-- A byte of a window as it stands. -/
def Ctx.byteAt (c : Ctx) (a : Nat) : Byte :=
  match winOf a with
  | 0 => (c.w0[offOf a]?).getD 0
  | 1 => mget c.w1 (offOf a)
  | 2 => mget c.w2 (offOf a)
  | 3 => (c.w3[offOf a]?).getD 0
  | 4 => (c.w4[offOf a]?).getD 0
  | _ => 0

/-- Whether a byte lies in the destination of an operation that is outstanding (R253). -/
def Ctx.inFlight (c : Ctx) (a : Nat) : Bool := c.tickets.any (fun t => decide (t.dst ≤ a ∧ a < t.dst + t.dstLen))

/-- A byte that the program reads: a free value within the destination of an outstanding operation (R253, log 4). -/
def Ctx.readByte (c : Ctx) (a : Nat) : Byte :=
  if c.inFlight a then (Config.freeWord c.wb (c.free + a)).setWidth 8 else c.byteAt a

/-- `n` bytes that the program reads. -/
def Ctx.readBytes (c : Ctx) (a n : Nat) : Bytes := (List.range n).map (fun i => c.readByte (a + i))

/-- The value of `n` bytes that the program reads. -/
def Ctx.readVal (c : Ctx) (a n : Nat) : Nat := ofLe (c.readBytes a n)

/-- After a load that met an outstanding destination, later loads read other free values. -/
def Ctx.draw (c : Ctx) (a n : Nat) : Ctx :=
  if (List.range n).any (fun i => c.inFlight (a + i)) then { c with free := c.free + 2 ^ 40 } else c

/-- Writes bytes to W1 or W2. -/
def Ctx.putBytes (c : Ctx) (a : Nat) (b : Bytes) : Ctx :=
  if winOf a = 1 then { c with w1 := mwrite c.w1 (offOf a) b } else { c with w2 := mwrite c.w2 (offOf a) b }

/-- Whether two spans of bytes meet. -/
def spansMeet (a n b m : Nat) : Bool := decide (a < b + m ∧ b < a + n)

/-- A store of the program: one to the source or destination of an outstanding operation leaves its result undefined
(R253). -/
def Ctx.store (c : Ctx) (a : Nat) (b : Bytes) : Ctx :=
  { c.putBytes a b with tickets := c.tickets.map (fun t =>
      { t with spoilt := t.spoilt || spansMeet a b.length t.src t.srcLen || spansMeet a b.length t.dst t.dstLen }) }

/-! ## Loads and stores (R269, R270) -/

/-- LD. -/
def Ctx.load (c : Ctx) (f : Fw) : Except Nat Ctx :=
  let a := c.scaledAddr f
  if c.valid a f.size false then
    .ok (((c.setX f.dst (extLane f.esz f.sg (c.readVal a f.size))).draw a f.size).next)
  else .error 1

/-- ST. -/
def Ctx.storeX (c : Ctx) (f : Fw) : Except Nat Ctx :=
  let a := c.scaledAddr f
  if c.valid a f.size true then .ok ((c.store a (leBytes f.size (c.getX f.dst).toNat)).next) else .error 1

/-- A vector load: lane `i` from the address `at' i`. Only active lanes are accessed. -/
def Ctx.vload (c : Ctx) (f : Fw) (at' : Nat → Nat) : Except Nat Ctx :=
  let on := c.activeLanes f
  if on.all (fun i => c.valid (at' i) f.size false) then
    let r := c.putLanes f (fun i => c.readVal (at' i) f.size)
    .ok ((on.foldl (fun r i => if r.free = c.free then r.draw (at' i) f.size else r) r).next)
  else .error 1

/-- A vector store, in ascending lane order. -/
def Ctx.vstore (c : Ctx) (f : Fw) (at' : Nat → Nat) : Except Nat Ctx :=
  let on := c.activeLanes f
  if on.all (fun i => c.valid (at' i) f.size true) then
    .ok ((on.foldl (fun r i => r.store (at' i) (leBytes f.size (laneOf f.esz (c.getV f.dst) i))) c).next)
  else .error 1

/-- Address of lane `i` of 64 consecutive bytes. -/
def Ctx.runAddr (c : Ctx) (f : Fw) (i : Nat) : Nat := c.plainAddr f + f.size * i

def execLd (ctx : Nat) (s : State) : Host.Outcome State Fault Refusal := act s fun d => d.instr ctx 0x30 (fun _ c f => c.load f)
def execSt (ctx : Nat) (s : State) : Host.Outcome State Fault Refusal := act s fun d => d.instr ctx 0x31 (fun _ c f => c.storeX f)
def execVld (ctx : Nat) (s : State) : Host.Outcome State Fault Refusal :=
  act s fun d => d.instr ctx 0x40 (fun _ c f => c.vload f (c.runAddr f))
def execVst (ctx : Nat) (s : State) : Host.Outcome State Fault Refusal :=
  act s fun d => d.instr ctx 0x41 (fun _ c f => c.vstore f (c.runAddr f))
def execVgather (ctx : Nat) (s : State) : Host.Outcome State Fault Refusal :=
  act s fun d => d.instr ctx 0x42 (fun _ c f => c.vload f (c.laneAddr f))
def execVscatter (ctx : Nat) (s : State) : Host.Outcome State Fault Refusal :=
  act s fun d => d.instr ctx 0x43 (fun _ c f => c.vstore f (c.laneAddr f))

/-- VLDB: the same bytes for every active lane. -/
def execVldb (ctx : Nat) (s : State) : Host.Outcome State Fault Refusal :=
  act s fun d => d.instr ctx 0x44 (fun _ c f => c.vload f (fun _ => c.plainAddr f))

/-! ## Atomics (R275) -/

/-- An atomic on the word at x[srcA] + imm: `g old` is the new value. A word that is not aligned has cause ALIGN, also
where it is outside the windows. -/
def Ctx.atomic (c : Ctx) (f : Fw) (g : Nat → Nat) : Except Nat Ctx :=
  let a := (c.baseAddr f).toNat
  if a % f.size ≠ 0 then .error 2
  else if c.valid a f.size true then
    let old := c.readVal a f.size
    .ok ((((c.draw a f.size).store a (leBytes f.size (g old))).setX f.dst (BitVec.ofNat 64 old)).next)
  else .error 1

/-- The low bits of x[srcB] as a word of the access size. -/
def Ctx.wordB (c : Ctx) (f : Fw) : Nat := (c.getX f.b).toNat % 2 ^ (8 * f.size)

def execAadd (ctx : Nat) (s : State) : Host.Outcome State Fault Refusal :=
  act s fun d => d.instr ctx 0x90 (fun _ c f => c.atomic f (fun o => o + c.wordB f))
def execAand (ctx : Nat) (s : State) : Host.Outcome State Fault Refusal :=
  act s fun d => d.instr ctx 0x91 (fun _ c f => c.atomic f (fun o => o &&& c.wordB f))
def execAor (ctx : Nat) (s : State) : Host.Outcome State Fault Refusal :=
  act s fun d => d.instr ctx 0x92 (fun _ c f => c.atomic f (fun o => o ||| c.wordB f))
def execAxor (ctx : Nat) (s : State) : Host.Outcome State Fault Refusal :=
  act s fun d => d.instr ctx 0x93 (fun _ c f => c.atomic f (fun o => o ^^^ c.wordB f))
def execAminu (ctx : Nat) (s : State) : Host.Outcome State Fault Refusal :=
  act s fun d => d.instr ctx 0x94 (fun _ c f => c.atomic f (fun o => min o (c.wordB f)))
def execAmaxu (ctx : Nat) (s : State) : Host.Outcome State Fault Refusal :=
  act s fun d => d.instr ctx 0x95 (fun _ c f => c.atomic f (fun o => max o (c.wordB f)))
def execAxchg (ctx : Nat) (s : State) : Host.Outcome State Fault Refusal :=
  act s fun d => d.instr ctx 0x96 (fun _ c f => c.atomic f (fun _ => c.wordB f))
def execAcas (ctx : Nat) (s : State) : Host.Outcome State Fault Refusal :=
  act s fun d => d.instr ctx 0x97 (fun _ c f => c.atomic f (fun o =>
    if o = (c.getX f.dst).toNat % 2 ^ (8 * f.size) then c.wordB f else o))

/-- VAADD: each active lane adds to its word, in ascending lane order; the lowest bad lane decides the cause. -/
def Ctx.vaadd (c : Ctx) (f : Fw) : Except Nat Ctx :=
  let on := c.activeLanes f
  let bad (i : Nat) : Option Nat :=
    if c.laneAddr f i % f.size ≠ 0 then some 2 else if c.valid (c.laneAddr f i) f.size true then none else some 1
  match on.findSome? bad with
  | some code => .error code
  | none =>
    .ok ((on.foldl (fun r i =>
      let a := c.laneAddr f i
      (r.draw a f.size).store a (leBytes f.size (r.readVal a f.size + laneOf f.esz (c.getV f.dst) i))) c).next)

def execVaadd (ctx : Nat) (s : State) : Host.Outcome State Fault Refusal :=
  act s fun d => d.instr ctx 0x98 (fun _ c f => c.vaadd f)

end Sys2Proof.Machine
end

