-- ==== Sys2Proof/Machine/Tickets.lean ====
section
/-! DEFINITION. Outstanding service operations of an instance (R253): synchronous calls stand as ticket 0. -/

namespace Sys2Proof.Machine

/-- The instance of a Waybill while it lasts, changed by an engine or a Tongs unit. -/
def Dev.putInst (d : Dev) (wb : Nat) (a : BitVec 64) (b : Bytes) : Dev := d.modInst wb (fun c => c.putBytes a.toNat b)

/-- The engine or the unit has done its part of an operation: its status and its x2 stand. -/
def Dev.opOver (d : Dev) (wb no status x2 : Nat) : Dev :=
  d.modInst wb (fun c => { c with
    tickets := mapWhere c.tickets (fun t => t.no = no) (fun t => { t with unitDone := true, status := status, x2 := x2 }) })

/-- The result of an operation whose source or destination the program has written is undefined: its status, its x2 and
the bytes of its destination are free values (R253, log 4). -/
def Ctx.spoil (c : Ctx) (t : Ticket) : Ctx :=
  if t.spoilt then
    let f (i : Nat) : BitVec 64 := Config.freeWord c.wb (c.free + i)
    let c := c.putBytes t.dst ((List.range t.dstLen).map (fun i => (f (i + 2)).setWidth 8))
    { c with
      free := c.free + t.dstLen + 2
      tickets := mapWhere c.tickets (fun x => x.no = t.no) (fun x => { x with
        status := (f 0).toNat % 12, x2 := (f 1).toNat, spoilt := false }) }
  else c

/-- The ticket of a number. -/
def Ctx.ticket (c : Ctx) (no : Nat) : Option Ticket := c.tickets.find? (fun t => t.no = no)

/-- ASYNC_OPERATION_END: an asynchronous operation ends, and its result is held for service 7. -/
def execAsyncOperationEnd (wb ticket : Nat) (s : State) : Host.Outcome State Fault Refusal :=
  act s fun d =>
    match (d.inst wb).bind (fun c => c.ticket ticket) with
    | none => d
    | some t =>
      if t.unitDone ∧ t.ended = false ∧ 1 ≤ ticket then
        d.modInst wb (fun c =>
          let c := c.spoil t
          { c with tickets := mapWhere c.tickets (fun x => x.no = ticket) (fun x => { x with ended := true }) })
      else d

end Sys2Proof.Machine
end

