-- ==== Sys2Proof/Machine/Engines.lean ====
section
/-! DEFINITION. The engines CXE, DGE and AEE (R299 to R321, R337 to R341): contexts, segments, ends, retirement. -/

namespace Sys2Proof.Machine

/-! ## Contexts of an engine (R300) -/

/-- Which engine: 0 CXE, 1 DGE, 2 AEE. -/
def Dev.eng (d : Dev) (e i : Nat) : Eng := fget (if e = 0 then d.cxe.engs else if e = 1 then d.dge.engs else d.aee.engs) {} i
def Dev.modEng (d : Dev) (e i : Nat) (f : Eng → Eng) : Dev :=
  match e with
  | 0 => { d with cxe := { d.cxe with engs := fmod d.cxe.engs {} i f } }
  | 1 => { d with dge := { d.dge with engs := fmod d.dge.engs {} i f } }
  | _ => { d with aee := { d.aee with engs := fmod d.aee.engs {} i f } }

/-- The source of an instance asserts: a job has ended, or the instance is retired (R367). -/
def Dev.engEvent (d : Dev) (e i : Nat) : Dev := d.srcEvent (160 + 8 * e + i)

/-- Contexts of an engine that hold a job. -/
def Dev.busyCtxs (d : Dev) (e : Nat) : List Nat :=
  match e with
  | 0 => (d.cxe.jobs.filter (fun p => p.2.state ≠ 0)).map (·.1)
  | 1 => (d.dge.ctxs.filter (fun p => p.2.state ≠ 0)).map (·.1)
  | _ => (d.aee.jobs.filter (fun p => p.2.state ≠ 0)).map (·.1)

/-- Alive instances of an engine. -/
def Dev.aliveEngs (d : Dev) (e : Nat) : List Nat := (List.range 8).filter (fun i => !(d.eng e i).retired)

/-- Busy contexts of an instance. -/
def Dev.engBusy (d : Dev) (e i : Nat) : Nat := ((d.busyCtxs e).filter (fun k => k / 16 = i)).length

/-- The context that R300 gives a job: the lowest free one of the alive instance with the fewest busy contexts. -/
def Dev.placeAt (d : Dev) (e : Nat) : Option Nat :=
  let best := (d.aliveEngs e).foldl (fun a i => match a with
    | none => some i
    | some j => if d.engBusy e i < d.engBusy e j then some i else some j) none
  match best with
  | some i => ((List.range 16).map (· + 16 * i)).find? (fun k => decide (k ∉ d.busyCtxs e))
  | none => none

/-- The context of an instance that its round robin serves next, of `n` (R301). -/
def Dev.nextCtx (d : Dev) (e i n : Nat) (work : Nat → Bool) : Option Nat := rotFind n ((d.eng e i).turn + n - 1) work

/-! ## CXE: what a job will do -/

/-- Header of the frame of R303 for `n` source bytes. -/
def frameHead (n : Nat) : Bytes :=
  let magic := leBytes 4 0xFD2FB528
  if n ≤ 8388608 then
    if n < 256 then magic ++ [0x24#8] ++ leBytes 1 n
    else if n ≤ 65791 then magic ++ [0x64#8] ++ leBytes 2 (n - 256)
    else magic ++ [0xA4#8] ++ leBytes 4 n
  else magic ++ [0x84#8, 0x68#8] ++ leBytes 4 n

/-- The window of that frame. -/
def frameWindow (n : Nat) : Nat := if n ≤ 8388608 then n else 8388608

/-- A block of source as it is emitted: RLE where all bytes are equal, else Compressed where that is shorter, else Raw.
The Compressed form decodes to the block, as every emitted frame decodes to its source (R302). -/
def frameBlock (level n : Nat) (last : Bool) (z : ZState) (b : Bytes) : Bytes × ZState :=
  let head (ty size : Nat) : Bytes := leBytes 3 (b2n last + 2 * ty + 8 * size)
  let raw : Bytes × ZState := (head 0 b.length ++ b, { z with out := b.reverse ++ z.out })
  match b with
  | [] => raw
  | x :: t =>
    if t.all (fun y => y = x) then (head 1 b.length ++ [x], { z with out := b.reverse ++ z.out })
    else
      let c := Config.cxeBlock level z.out.reverse b
      let r := zstdCompressed z c (frameWindow n) 131072
      if c.length < b.length ∧ r.2 ∧ r.1.out = b.reverse ++ z.out then (head 2 c.length ++ c, r.1) else raw

/-- The blocks of a frame: for each, its source bytes and its bytes in the frame. -/
def frameBlocks (level n : Nat) (z : ZState) (src : Bytes) (fuel : Nat) : List (Nat × Bytes) :=
  match fuel with
  | 0 => []
  | k + 1 =>
    let b := src.take 131072
    let rest := src.drop 131072
    let r := frameBlock level n rest.isEmpty z b
    (b.length, r.1) :: (if rest.isEmpty then [] else frameBlocks level n r.2 rest k)

/-- Work laid out: bytes written, pieces, status. -/
structure EPlan where
  /-- bytes -/
  out : Bytes
  /-- pieces in order -/
  pieces : List (Nat × Nat × Bool)
  /-- status -/
  status : Nat
  deriving DecidableEq, Repr

/-- Cuts pieces off after `n` output bytes. -/
def cutPieces (l : List (Nat × Nat × Bool)) (n : Nat) : List (Nat × Nat × Bool) :=
  match l with
  | [] => []
  | (s, o, lin) :: t => if o ≤ n then (s, o, lin) :: cutPieces t (n - o) else [(s, n, lin)]

/-- A compression job (R303, R309). -/
def compressPlan (level cap : Nat) (src : Bytes) : EPlan :=
  let n := src.length
  let head := frameHead n
  let blocks := frameBlocks level n {} src (n / 131072 + 1)
  let out := head ++ (blocks.map (·.2)).flatten ++ leBytes 4 (xxh64 src % 2 ^ 32)
  let pieces := (0, head.length, false) :: blocks.map (fun p => (p.1, p.2.length, false)) ++ [(0, 4, false)]
  if out.length ≤ cap then { out := out, pieces := pieces, status := 0 }
  else { out := out.take cap, pieces := cutPieces pieces cap, status := 8 }

/-- A decompression job (R305 to R309). -/
def decompressPlan (cap : Nat) (src : Bytes) : EPlan :=
  let e := zstdDecode src cap
  { out := e.out.reverse, pieces := e.pieces.reverse, status := e.status }

/-- What a segment does: source consumed, output produced, pieces left. A piece that does not go byte by byte takes its
source first. `ob` bounds the output; none for compression. -/
def segmentWork (l : List (Nat × Nat × Bool)) (sb : Nat) (ob : Option Nat) : Nat × Nat × List (Nat × Nat × Bool) :=
  match l with
  | [] => (0, 0, [])
  | (s, o, lin) :: t =>
    let room := ob.getD (s + o)
    if lin then
      let n := min (min s sb) room
      if n < s then (n, n, (s - n, o - n, lin) :: t)
      else
        let r := segmentWork t (sb - n) (ob.map (· - n))
        (n + r.1, n + r.2.1, r.2.2)
    else
      let a := min s sb
      if a < s then (a, 0, (s - a, o, lin) :: t)
      else
        let b := min o room
        if b < o then (a, b, (0, o - b, lin) :: t)
        else
          let r := segmentWork t (sb - a) (ob.map (· - b))
          (a + r.1, b + r.2.1, r.2.2)

/-! ## CXE -/

def Dev.cjob (d : Dev) (k : Nat) : CJob := fget d.cxe.jobs {} k
def Dev.setCjob (d : Dev) (k : Nat) (j : CJob) : Dev := { d with cxe := { d.cxe with jobs := fset d.cxe.jobs k j } }
def Dev.freeCjob (d : Dev) (k : Nat) : Dev := { d with cxe := { d.cxe with jobs := d.cxe.jobs.filter (fun p => p.1 ≠ k) } }

/-- The oldest waiting job whose unit has been issued, with the units granted meanwhile taken up. -/
def Dev.takeCjob (d : Dev) (l : List CJob) : Option (Dev × CJob × List CJob) :=
  match l with
  | [] => none
  | j :: t =>
    if j.state = 1 then some (d, j, t)
    else match d.takeGrant 25 (.waybill j.wb) with
      | some d => some (d, { j with state := 1 }, t)
      | none => (d.takeCjob t).map (fun r => (r.1, r.2.1, j :: r.2.2))

/-- CXE_CONTEXT_PLACE: an issued job gets its context. -/
def execCxeContextPlace (s : State) : Host.Outcome State Fault Refusal :=
  act s fun d =>
    match d.placeAt 0, d.takeCjob d.cxe.waiting with
    | some k, some (d, j, t) => ({ d with cxe := { d.cxe with waiting := t } }).setCjob k j
    | _, _ => d

/-- The source bytes of a job in its instance's windows. -/
def Dev.srcBytes (d : Dev) (wb a n : Nat) : Bytes :=
  match d.inst wb with
  | some c => (List.range n).map (fun i => c.byteAt (a + i))
  | none => []

/-- A job with its work laid out. -/
def Dev.planJob (d : Dev) (j : CJob) : CJob :=
  if j.planned then j
  else
    let src := d.srcBytes j.wb j.src.toNat j.srcLen
    let p := if j.op = 0 then compressPlan j.level j.dstCap src else decompressPlan j.dstCap src
    { j with plan := p.out, trace := p.pieces, outcome := p.status, planned := true }

/-- CXE_SEGMENT: an instance runs one segment of one job. -/
def execCxeSegment (inst : Nat) (s : State) : Host.Outcome State Fault Refusal :=
  act s fun d =>
    let work (c : Nat) : Bool :=
      let j := d.cjob (16 * inst + c)
      decide (j.state = 1 ∨ (j.state = 2 ∧ j.trace ≠ []))
    if 8 ≤ inst ∨ (d.eng 0 inst).retired then d
    else match d.nextCtx 0 inst 16 work with
      | none => d
      | some c =>
        let k := 16 * inst + c
        let j := d.planJob (d.cjob k)
        let r := segmentWork j.trace 65536 (if j.op = 0 then none else some 65536)
        let d := d.putInst j.wb (j.dst + BitVec.ofNat 64 j.produced) ((j.plan.drop j.produced).take r.2.1)
        let d := d.setCjob k { j with
          state := 2, trace := r.2.2, consumed := j.consumed + r.1, produced := j.produced + r.2.1
          segments := satAdd 32 j.segments 1 }
        d.modEng 0 inst (fun e => { e with turn := (c + 1) % 16, inBytes := e.inBytes + r.1, outBytes := e.outBytes + r.2.1 })

/-- CXE_JOB_END: a job whose work is done ends with its outcome; the context is zeroised and its unit returned. -/
def execCxeJobEnd (job : Nat) (s : State) : Host.Outcome State Fault Refusal :=
  act s fun d =>
    let j := d.cjob job
    if j.state ≠ 2 ∨ j.trace ≠ [] then d
    else
      let d := d.modEng 0 (job / 16) (fun e => { e with
        jobs := e.jobs + 1
        corrupt := if j.outcome = 6 then satAdd 32 e.corrupt 1 else e.corrupt
        lenMismatch := if j.outcome = 7 then satAdd 32 e.lenMismatch 1 else e.lenMismatch
        dstFull := if j.outcome = 8 then satAdd 32 e.dstFull 1 else e.dstFull })
      let d := ((d.freeCjob job).giveBack 25 j.fix 1).engEvent 0 (job / 16)
      let d := d.opOver j.wb j.ticket j.outcome j.produced
      if j.outcome = 7 then
        d.taint j.wb 3 (match d.wb j.wb with
          | some w => w.bytesOut
          | none => 0)
      else d

/-! ## DGE -/

def Dev.dctx (d : Dev) (k : Nat) : DCtx := fget d.dge.ctxs {} k
def Dev.setDctx (d : Dev) (k : Nat) (c : DCtx) : Dev := { d with dge := { d.dge with ctxs := fset d.dge.ctxs k c } }
def Dev.freeDctx (d : Dev) (k : Nat) : Dev := { d with dge := { d.dge with ctxs := d.dge.ctxs.filter (fun p => p.1 ≠ k) } }

/-- The oldest waiting call whose unit has been issued. -/
def Dev.takeDctx (d : Dev) (l : List DCtx) : Option (Dev × DCtx × List DCtx) :=
  match l with
  | [] => none
  | j :: t =>
    if j.state = 1 then some (d, j, t)
    else match d.takeGrant 26 (.waybill j.wb) with
      | some d => some (d, { j with state := 1 }, t)
      | none => (d.takeDctx t).map (fun r => (r.1, r.2.1, j :: r.2.2))

/-- Places a waiting digest call whose unit has been issued. -/
def Dev.placeDge (d : Dev) : Dev :=
  match d.placeAt 1, d.takeDctx d.dge.waiting with
  | some k, some (d, j, t) =>
    (({ d with dge := { d.dge with waiting := t } }).setDctx k j).modEng 1 (k / 16) (fun e =>
      { e with keyed := if j.keyed && j.opened then e.keyed + 1 else e.keyed })
  | _, _ => d

/-- A digest call leaves its context, and the next waiting call takes it. -/
def Dev.endDge (d : Dev) (k : Nat) : Dev :=
  let j := d.dctx k
  ((((d.freeDctx k).giveBack 26 j.fix 1).modEng 1 (k / 16) (fun e => { e with jobs := e.jobs + 1 })).engEvent 1 (k / 16)).placeDge

/-- Changes the open digest of an instance. -/
def Dev.modDigest (d : Dev) (wb : Nat) (f : Option Digest → Option Digest) : Dev :=
  d.modInst wb (fun c => { c with digest := f c.digest })

/-- DGE_SEGMENT: an instance hashes one segment of one call. The last one of a call with FINAL writes the digest and ends
it. -/
def execDgeSegment (inst : Nat) (s : State) : Host.Outcome State Fault Refusal :=
  act s fun d =>
    let d := d.placeDge
    let work (c : Nat) : Bool :=
      let j := d.dctx (16 * inst + c)
      decide (j.state = 1 ∨ (j.state = 2 ∧ j.done < j.len))
    if 8 ≤ inst ∨ (d.eng 1 inst).retired then d
    else match d.nextCtx 1 inst 16 work with
      | none => d
      | some c =>
        let k := 16 * inst + c
        let j := d.dctx k
        let n := min 65536 (j.len - j.done)
        let b := d.srcBytes j.wb (j.src.toNat + j.done) n
        let d := d.modDigest j.wb (fun g => g.map (fun g => { g with msg := g.msg ++ b }))
        let d := d.setDctx k { j with state := 2, done := j.done + n, segments := min (j.segments + 1) (2 ^ 22 - 1) }
        let d := d.modEng 1 inst (fun e => { e with turn := (c + 1) % 16, inBytes := e.inBytes + n })
        if j.final && decide (j.done + n = j.len) then
          match (d.inst j.wb).bind (fun c => c.digest) with
          | some g =>
            let out := service4Digest g.alg g.key g.msg
            (((d.putInst j.wb j.dst out).modDigest j.wb (fun _ => none)).opOver j.wb j.ticket 0 out.length).endDge k
          | none => d.endDge k
        else d

/-- Internal keys: 0 map key, 1 state-wrap key. -/
def Dev.ikey (d : Dev) (n : Nat) : IKey := fget d.key.internal {} n

/-- Bytes of the DRBG (R327): a draw counts as one request. -/
def Dev.draw (d : Dev) (n : Nat) : Bytes × Dev :=
  ((List.range n).map (Config.drbg d.key.drbgDraws), { d with key := { d.key with
    drbgDraws := d.key.drbgDraws + 1, drbg := d.key.drbg + 1 } })

/-- Whether the halves of an XTS key differ (R327). -/
def halvesDiffer (b : Bytes) : Bool := decide (slice b 0 32 ≠ slice b 32 32)

/-- A key generated by the DRBG; an XTS key whose halves are equal is drawn again. -/
def Dev.genKey (d : Dev) (ktype len fuel : Nat) : Bytes × Dev :=
  match fuel with
  | 0 => d.draw len
  | k + 1 =>
    let (b, e) := d.draw len
    if ktype = 1 ∧ halvesDiffer b = false then e.genKey ktype len k else (b, e)

/-- Makes an internal key anew: its bytes, 64 for the map key (R171) and 32 otherwise, a new serial, a salt drawn, the counter 0 (R338). -/
def Dev.newIkey (d : Dev) (n : Nat) : Dev :=
  let (key, d) := if n = 0 then d.genKey 1 64 64 else d.draw 32
  let (salt, d) := d.draw 4
  { d with key := { d.key with
    serials := d.key.serials + 1, vaultWrites := d.key.vaultWrites + 1
    internal := fset d.key.internal n { serial := d.key.serials + 1, key := key, salt := ofBe salt, counter := 0 } } }

/-- Serials of state-wrap keys that parked records use. -/
def Dev.wrapsInUse (d : Dev) : List Nat :=
  d.drv.ctxs.filterMap (fun p => p.2.bind (fun c => c.digest.map (fun g => g.wrapSerial)))

/-- One encryption under the state-wrap key; at its limit it is replaced, and kept while a record uses it:
STATE_WRAP_KEY_REPLACE (R321, R338). -/
def Dev.wrapOnce (d : Dev) : Dev :=
  let k := d.ikey 1
  let d := { d with key := { d.key with internal := fset d.key.internal 1 { k with counter := k.counter + 1 } } }
  let used := d.wrapsInUse
  let d := { d with key := { d.key with stateWrapOld := d.key.stateWrapOld.filter (fun s => decide (s ∈ used)) } }
  if 2 ^ 48 ≤ k.counter + 1 then
    ({ d with key := { d.key with stateWrapOld := setIns d.key.stateWrapOld k.serial } }).newIkey 1
  else d

/-- DGE_STATE_PARK: a call without FINAL ends; its state is wrapped under the state-wrap key and parked. -/
def execDgeStatePark (ctx : Nat) (s : State) : Host.Outcome State Fault Refusal :=
  act s fun d =>
    let j := d.dctx ctx
    if j.state = 2 ∧ j.final = false ∧ j.done = j.len then
      let serial := (d.ikey 1).serial
      let d := d.modDigest j.wb (fun g => g.map (fun g => { g with wrapSerial := serial }))
      (d.wrapOnce.opOver j.wb j.ticket 0 0).endDge ctx
    else d

/-! ## AEE -/

def Dev.ajob (d : Dev) (k : Nat) : AJob := fget d.aee.jobs {} k
def Dev.setAjob (d : Dev) (k : Nat) (j : AJob) : Dev := { d with aee := { d.aee with jobs := fset d.aee.jobs k j } }
def Dev.freeAjob (d : Dev) (k : Nat) : Dev := { d with aee := { d.aee with jobs := d.aee.jobs.filter (fun p => p.1 ≠ k) } }
def Dev.fjob (d : Dev) (i : Nat) : AJob := fget d.aee.fwJobs {} i
def Dev.setFjob (d : Dev) (i : Nat) (j : AJob) : Dev := { d with aee := { d.aee with fwJobs := fset d.aee.fwJobs i j } }
def Dev.freeFjob (d : Dev) (i : Nat) : Dev := { d with aee := { d.aee with fwJobs := d.aee.fwJobs.filter (fun p => p.1 ≠ i) } }

/-- The oldest waiting job whose unit has been issued. -/
def Dev.takeAjob (d : Dev) (l : List AJob) : Option (Dev × AJob × List AJob) :=
  match l with
  | [] => none
  | j :: t =>
    if j.state = 1 then some (d, j, t)
    else match j.ref.bind (fun r => d.takeGrant 27 (.cmd r)) with
      | some d => some (d, { j with state := 1 }, t)
      | none => (d.takeAjob t).map (fun r => (r.1, r.2.1, j :: r.2.2))

/-- Places a waiting AEE job whose unit has been issued. -/
def Dev.placeAee (d : Dev) : Dev :=
  match d.placeAt 2, d.takeAjob d.aee.waiting with
  | some k, some (d, j, t) => ({ d with aee := { d.aee with waiting := t } }).setAjob k j
  | _, _ => d

/-- Starts firmware work on the AEE: the response that a secured message carries; without an alive instance it is
answered with an SPDM ERROR (R313). A job that finds every firmware context busy is answered the same way. -/
def Dev.secured (d : Dev) (kind : SpdmKind) (b : Bytes) : Dev :=
  match (d.aliveEngs 2).find? (fun i => decide ((d.fjob i).state = 0)) with
  | some i => d.setFjob i { state := 1, fix := 0xFFFF, text := b, reply := some (kind, b), keyRef := 0x8000 }
  | none => d.emit (.spdm .error [])

/-- The text of a job at its end: status, and the plaintext released (R340). -/
def AJob.finish (j : AJob) : Nat × Bytes :=
  if j.op = 0 then (0, gcmText j.key j.iv j.text)
  else match gcmOpen j.key j.iv j.aad j.text j.tag with
    | some t => (0, t)
    | none => (1, if j.mode = 0 then [] else gcmText j.key j.iv j.text)

/-- Whether a job's text is not all processed. -/
def AJob.hasWork (j : AJob) : Bool := decide (j.state = 1 ∨ (j.state = 2 ∧ j.done < j.text.length))

/-- One segment of a job. -/
def AJob.segment (j : AJob) : AJob :=
  let n := min 65536 (j.text.length - j.done)
  { j with state := 2, done := j.done + n, segments := satAdd 32 j.segments 1, attempt := false
           released := if j.mode = 1 then j.done + n else j.released }

/-- A job that restarts elsewhere. -/
def AJob.restart (j : AJob) : AJob := { j with state := 1, done := 0, released := 0, attempt := false }

/-- A Key Slot Manage whose unwrap cannot be done completes with Internal Error (R313). -/
def Dev.failUnwraps (d : Dev) (l : List AJob) : Dev :=
  d.forEach l (fun d j => match j.ref with
    | some r => (if j.state = 0 then d.withdraw 27 (.cmd r) else d.giveBack 27 r.fix 1).complete r .internalError
    | none => d)

/-- ENGINE_EXHAUSTED for the AEE (R313). -/
def Dev.aeeExhausted (d : Dev) : Dev :=
  if (d.aliveEngs 2).isEmpty then
    let l := (d.aee.jobs.map (·.2)).filter (fun j => j.state ≠ 0) ++ d.aee.waiting
    let f := (d.aee.fwJobs.filter (fun p => p.2.state ≠ 0)).length
    let d := { d with aee := { d.aee with jobs := [], fwJobs := [], waiting := [] } }
    (d.failUnwraps l).forEach (List.range f) (fun d _ => d.emit (.spdm .error []))
  else d

/-- Retires an AEE instance: its owner jobs wait for another context with the unit they hold; firmware jobs move to a
free firmware context. -/
def Dev.retireAee (d : Dev) (i : Nat) (why : Reason) : Dev :=
  let d := ((d.modEng 2 i (fun e => { e with retired := true })).transition (uid 9 i) .retired why).engEvent 2 i
  let mine := (d.aee.jobs.filter (fun p => decide (p.1 / 16 = i ∧ p.2.state ≠ 0)))
  let d : Dev := { d with aee := { d.aee with
    jobs := d.aee.jobs.filter (fun p => p.1 / 16 ≠ i), waiting := mine.map (fun p => p.2.restart) ++ d.aee.waiting } }
  let f := d.fjob i
  let d := if f.state ≠ 0 then
      let d := d.freeFjob i
      match (d.aliveEngs 2).find? (fun k => decide ((d.fjob k).state = 0)) with
      | some k => d.setFjob k f.restart
      | none => d.emit (.spdm .error [])
    else d
  (iter mine.length Dev.placeAee d).aeeExhausted

/-- AEE_SEGMENT: an instance runs one segment of one of its 17 contexts on two rails. `first` and `second` say whether
the rails match at each attempt; a second mismatch retires the instance: AEE_RAIL_MISMATCH (R339). -/
def execAeeSegment (inst : Nat) (first second : Bool) (s : State) : Host.Outcome State Fault Refusal :=
  act s fun d =>
    let d := d.placeAee
    let job (c : Nat) : AJob := if c = 16 then d.fjob inst else d.ajob (16 * inst + c)
    if 8 ≤ inst ∨ (d.eng 2 inst).retired then d
    else match d.nextCtx 2 inst 17 (fun c => (job c).hasWork) with
      | none => d
      | some c =>
        let j := job c
        let d := if first then d else { d with aee := { d.aee with railMismatch := satAdd 32 d.aee.railMismatch 1 } }
        if !first && !second then
          ({ d with aee := { d.aee with railMismatch := satAdd 32 d.aee.railMismatch 1 } }).retireAee inst .railMismatch
        else
          let x := j.segment
          let d := if c = 16 then d.setFjob inst x else d.setAjob (16 * inst + c) x
          d.modEng 2 inst (fun e => { e with
            turn := (c + 1) % 17, inBytes := e.inBytes + (x.done - j.done)
            mismatch := if first then e.mismatch else satAdd 8 e.mismatch 1 })

/-! ## Retirement of CXE and DGE instances, bus errors (R312, R313, R317) -/

/-- The jobs of a retired CXE instance wait for a context of another with the unit they hold. -/
def Dev.retireCxe (d : Dev) (i : Nat) : Dev :=
  let d := ((d.modEng 0 i (fun e => { e with retired := true })).transition (uid 7 i) .retired .engineEcc).engEvent 0 i
  let mine := (d.cxe.jobs.filter (fun p => decide (p.1 / 16 = i ∧ p.2.state ≠ 0))).map (·.2)
  let d := { d with cxe := { d.cxe with jobs := d.cxe.jobs.filter (fun p => p.1 / 16 ≠ i) } }
  if (d.aliveEngs 0).isEmpty then
    let d := d.forEach mine (fun d j => (d.giveBack 25 j.fix 1).opOver j.wb j.ticket 11 j.produced)
    let d := d.forEach d.cxe.waiting (fun d j =>
      (if j.state = 1 then d.giveBack 25 j.fix 1 else d.withdraw 25 (.waybill j.wb)).opOver j.wb j.ticket 11 0)
    { d with cxe := { d.cxe with waiting := [] } }
  else
    let again (j : CJob) : CJob := { j with state := 1, consumed := 0, produced := 0, planned := false, trace := [], plan := [] }
    ({ d with cxe := { d.cxe with waiting := mine.map again ++ d.cxe.waiting } }).modEng 0 i (fun e => { e with
      restarts := satAdd 32 e.restarts mine.length })

/-- The open digest operation of a call that ends with NO_ENGINE is discarded. -/
def Dev.noDge (d : Dev) (j : DCtx) : Dev := (d.modDigest j.wb (fun _ => none)).opOver j.wb j.ticket 11 0

/-- The calls of a retired DGE instance restart elsewhere: the bytes they had added to the state are taken off again. -/
def Dev.retireDge (d : Dev) (i : Nat) : Dev :=
  let d := ((d.modEng 1 i (fun e => { e with retired := true })).transition (uid 8 i) .retired .engineEcc).engEvent 1 i
  let mine := (d.dge.ctxs.filter (fun p => decide (p.1 / 16 = i ∧ p.2.state ≠ 0))).map (·.2)
  let d := { d with dge := { d.dge with ctxs := d.dge.ctxs.filter (fun p => p.1 / 16 ≠ i) } }
  if (d.aliveEngs 1).isEmpty then
    let d := d.forEach mine (fun d j => (d.giveBack 26 j.fix 1).noDge j)
    let d := d.forEach d.dge.waiting (fun d j =>
      (if j.state = 1 then d.giveBack 26 j.fix 1 else d.withdraw 26 (.waybill j.wb)).noDge j)
    { d with dge := { d.dge with waiting := [] } }
  else
    let d := d.forEach mine (fun d j => d.modDigest j.wb (fun g => g.map (fun g => { g with
      msg := g.msg.take (g.msg.length - j.done) })))
    let again := mine.map (fun j => { j with state := 1, done := 0 })
    iter mine.length Dev.placeDge { d with dge := { d.dge with waiting := again ++ d.dge.waiting } }

/-- ENGINE_ECC_RETIRE: engine 0 CXE, 1 DGE, 2 AEE, and the instance. -/
def execEngineEccRetire (engine inst : Nat) (s : State) : Host.Outcome State Fault Refusal :=
  act s fun d =>
    if 8 ≤ inst ∨ (d.eng engine inst).retired then d
    else match engine with
      | 0 => d.retireCxe inst
      | 1 => d.retireDge inst
      | 2 => d.retireAee inst .engineEcc
      | _ => d

end Sys2Proof.Machine
end

