-- ==== Sys2Proof/Machine/KeyStore.lean ====
section
/-! DEFINITION. The key store (R100, R324 to R336) and the ends of AEE jobs (R317, R340). -/

namespace Sys2Proof.Machine

def Dev.kslot (d : Dev) (n : Nat) : Slot := fget d.key.slots {} n
def Dev.setKslot (d : Dev) (n : Nat) (k : Slot) : Dev := { d with key := { d.key with slots := fset d.key.slots n k } }

/-- One vault record is written. -/
def Dev.vaultWrite (d : Dev) : Dev := { d with key := { d.key with vaultWrites := d.key.vaultWrites + 1 } }

/-- Whether a function created a slot. -/
def Slot.ownedBy (k : Slot) (fix : Nat) : Bool := decide (k.state ≠ 0 ∧ k.fix = fix)

/-- LIMIT of a slot. -/
def Slot.limit (k : Slot) : Nat := if k.ktype = 4 then 0 else 2 ^ k.limitLog

/-- Counts `n` uses: the high-water mark in the vault goes ahead of USES (USES_HIGH_WATER_ADVANCE), and the last use makes
the slot EXHAUSTED (KEY_EXHAUSTION). -/
def Dev.useSlot (d : Dev) (slot n : Nat) : Dev :=
  let k := d.kslot slot
  let u := k.uses + n
  let d := d.setKslot slot { k with
    uses := u, usesHw := if k.usesHw ≤ u then (u / 65536 + 1) * 65536 else k.usesHw
    state := if k.limit ≤ u then 2 else k.state }
  if k.usesHw ≤ u then d.vaultWrite else d

/-- Pairs bound to a slot. -/
def Dev.bindingsOf (d : Dev) (slot : Nat) : List (Nat × Nat × Nat) := d.key.bindings.filter (fun b => b.2.2 = slot)

/-- The slot bound to a pair. -/
def Dev.boundTo (d : Dev) (nsid tag : Nat) : Option Nat :=
  (d.key.bindings.find? (fun b => decide (b.1 = nsid ∧ b.2.1 = tag))).map (fun b => b.2.2)

/-- The limit exponent that CDW15 selects (R326). -/
def limitOf (cdw15 : Nat) : Option Nat :=
  let n := bitsOf cdw15 8 8
  if n = 0 then some 32 else if 32 ≤ n ∧ n ≤ 48 then some n else none

/-- Whether a key length fits its type (R325). -/
def keyLenOk (ktype len : Nat) : Bool :=
  match ktype with
  | 1 => decide (len = 64)
  | 2 => decide (16 ≤ len ∧ len ≤ 128)
  | 3 => decide (len = 32)
  | 4 => decide (len = 96)
  | _ => false

/-! ## Records (R325) -/

/-- The device import key pair: private scalar and public key. -/
def importPriv : Nat := ofBe ((List.range 48).map (Config.secret 1)) % p384N
def importPub : Bytes := match p384Mul 384 importPriv (some p384G) with
  | some (x, y) => beBytes 48 x ++ beBytes 48 y
  | none => zeroBytes 96

/-- First 8 bytes of SHA-256 over a key. -/
def fingerprint (b : Bytes) : Bytes := (sha256 b).take 8

/-- The record of a slot. -/
def Dev.slotRecord (d : Dev) (n : Nat) (k : Slot) : Bytes :=
  fields [(2, n), (1, k.state), (1, k.ktype), (2, k.fix), (2, k.key.length), (8, k.uses), (8, k.limit), (8, k.serial),
    (2, (d.bindingsOf n).length), (1, k.origin), (5, 0)] ++
    (if k.ktype = 4 then fingerprint k.key else zeroBytes 8) ++ zeroBytes 16 ++ (if k.ktype = 4 then k.key else [])

/-- The record of the device import key. -/
def importRecord : Bytes :=
  fields [(2, 0xFFFF), (1, 1), (1, 5), (2, 0), (2, 96), (8, 0), (8, 0), (8, 0), (2, 0), (1, 0), (5, 0)] ++
    fingerprint importPub ++ zeroBytes 16 ++ importPub

/-- KEY_SLOT_QUERY: action 3. -/
def execKeySlotQuery (ref : CmdRef) (slot len : Nat) (s : State) : Host.Outcome State Fault Refusal :=
  act s fun d => d.admin ref (fun d =>
    if slot = 0xFFFFFFFF then
      if len = 160 then (d.emit (.toHost ref 0 importRecord)).complete ref .success else d.complete ref .invalidField
    else if 4096 ≤ slot then d.complete ref .invalidField
    else
      let k := d.kslot slot
      let b := if k.ownedBy ref.fix then d.slotRecord slot k else leBytes 2 slot ++ zeroBytes 62
      if len = b.length then (d.emit (.toHost ref 0 b)).complete ref .success else d.complete ref .invalidField)

/-! ## Storing keys -/

/-- The lowest FREE slot. -/
def Dev.freeSlot (d : Dev) : Option Nat := (List.range 4096).find? (fun n => decide ((d.kslot n).state = 0))

/-- Writes a key with a new serial: into slot `n`, ACTIVE, its uses at 0. -/
def Dev.putKey (d : Dev) (n fix ktype limit origin : Nat) (key : Bytes) : Dev :=
  let serial := d.key.serials + 1
  let d := d.setKslot n { state := 1, ktype := ktype, fix := fix, key := key, limitLog := limit, origin := origin
                          serial := serial }
  ({ d with key := { d.key with serials := serial } }).vaultWrite

/-- Copies of a key in the lanes are zeroised. -/
def Dev.flushLaneKeys (d : Dev) (serial : Nat) : Dev :=
  { d with mxt := { d.mxt with lanes := d.mxt.lanes.map (fun p => (p.1, { p.2 with
      keys := p.2.keys.filter (fun k => k.2 ≠ serial) })) } }

/-- An import or rekey that ends without a new key: a unit of pool 28 issued for it goes back. -/
def Dev.importEnds (d : Dev) (ref : CmdRef) (unit : Bool) (st : Status) (dw0 : Nat := 0) : Dev :=
  (d.doIf unit (fun d => d.giveBack 28 ref.fix 1)).complete ref st dw0

/-- An import or rekey refused under R331 is counted. -/
def Dev.importRefused (d : Dev) (ref : CmdRef) (unit : Bool) (st : Status) (dw0 : Nat := 0) : Dev :=
  ({ d with key := { d.key with importFail := satAdd 32 d.key.importFail 1 } }).importEnds ref unit st dw0

/-- Fields kept with a waiting import or rekey: target slot (4,096 for a new one) and limit exponent. -/
def Cmd.target (c : Cmd) : Nat := c.args.getD 0 4096
def Cmd.limitLog (c : Cmd) : Nat := c.args.getD 1 32

/-- Steps 7 and 8 of R331 on an unwrapped or clear key. -/
def Dev.storeBlobKey (d : Dev) (c : Cmd) (key : Bytes) : Dev :=
  let ktype := fieldAt c.data 5 1
  let new := decide (c.target = 4096)
  let origin := fieldAt c.data 4 1 + 1
  let bad := (decide (ktype = 1) && !halvesDiffer key) ||
    (decide (ktype = 4) && !onP384 (ofBe (slice key 0 48)) (ofBe (slice key 48 48)))
  if bad then d.importRefused c.ref new .invalidField
  else if new then
    match d.freeSlot with
    | some n => (d.putKey n c.ref.fix ktype c.limitLog origin key).complete c.ref .success n
    | none => d.importRefused c.ref true .internalError
  else
    let old := (d.kslot c.target).serial
    ((d.flushLaneKeys old).putKey c.target c.ref.fix ktype c.limitLog origin key).complete c.ref .success

/-- The key that unwraps a blob: the WRAP slot's, or the one derived by ECDH (R331). -/
def Dev.unwrapKey (d : Dev) (blob : Bytes) : Bytes :=
  if fieldAt blob 4 1 = 0 then (d.kslot (fieldAt blob 8 2)).key
  else
    let eph := (ofBe (slice blob 0x20 48), ofBe (slice blob 0x50 48))
    let z := match p384Mul 384 importPriv (some eph) with
      | some (x, _) => beBytes 48 x
      | none => zeroBytes 48
    (hmac 1 z (slice blob 0 0x80)).take 32

/-- Step 6 of R331: a clear key is taken as it is; any other is unwrapped on an AEE context of the function's share. -/
def Dev.startUnwrap (d : Dev) (ref : CmdRef) : Dev :=
  match d.cmd ref with
  | none => d
  | some c =>
    let len := fieldAt c.data 6 2
    if fieldAt c.data 4 1 = 2 then d.storeBlobKey c (slice c.data 0x80 len)
    else if (d.aliveEngs 2).isEmpty then
      d.importEnds ref (decide (c.target = 4096)) .internalError
    else
      let (d, ok) := d.request 27 ref.fix 1 (.cmd ref)
      let j : AJob := {
        op := 1, state := b2n ok, fix := ref.fix, epoch := c.epoch % 65536
        keyRef := if fieldAt c.data 4 1 = 0 then fieldAt c.data 8 2 else 0x8003
        iv := slice c.data 0x10 12, aad := slice c.data 0 0x80, text := slice c.data 0x80 len
        tag := slice c.data (0x80 + len) 16, key := d.unwrapKey c.data, ref := some ref }
      (({ d with aee := { d.aee with waiting := d.aee.waiting ++ [j] } }).modCmd ref (fun c => { c with
        job := .keyUnwrap c.target })).placeAee

/-- Steps 1 and 2 of R331; the length field is CDW14. -/
def blobBad (b : Bytes) (len : Nat) (target : Option Slot) : Bool :=
  let mode := fieldAt b 4 1
  let ktype := fieldAt b 5 1
  let kl := fieldAt b 6 2
  decide (len ≠ 0x80 + kl + (if mode = 2 then 0 else 16)) || decide (slice b 0 4 ≠ [0x4B#8, 0x42#8, 0x4C#8, 0x31#8]) ||
    decide (slice b 0x0A 6 ≠ zeroBytes 6) || decide (slice b 0x1C 4 ≠ zeroBytes 4) || decide (2 < mode) ||
    (decide (mode = 2) && decide (ktype ≠ 4)) || !keyLenOk ktype kl ||
    (match target with
      | some k => decide (k.ktype ≠ ktype)
      | none => false)

/-- Steps 1 to 4 of R331: the status of the first failing check; a WRAP slot's use is counted at step 3. -/
def Dev.blobChecks (d : Dev) (fix : Nat) (b : Bytes) (len : Nat) (target : Option Slot) : Except Status Dev :=
  let w := fieldAt b 8 2
  let k := d.kslot w
  if blobBad b len target then .error .invalidField
  else match fieldAt b 4 1 with
    | 0 =>
      if 4096 ≤ w ∨ k.ktype ≠ 3 ∨ k.ownedBy fix = false then .error .invalidField
      else if k.state = 2 then .error .keySlotExhausted
      else .ok (d.useSlot w 1)
    | 1 => if onP384 (ofBe (slice b 0x20 48)) (ofBe (slice b 0x50 48)) then .ok d else .error .invalidField
    | _ => .ok d

/-- While LOCKED a command that needs a key completes with Namespace Not Ready (R336). -/
def Dev.unlocked (d : Dev) (ref : CmdRef) (f : Dev → Dev) : Dev := if d.key.locked then d.complete ref .nsNotReady else f d

/-- KEY_SLOT_IMPORT: action 0, with CDW14, CDW15 and the blob. A command that waits for its share is run again once the
unit is issued. -/
def execKeySlotImport (ref : CmdRef) (len cdw15 : Nat) (data : Option Bytes) (s : State) : Host.Outcome State Fault Refusal :=
  act s fun d =>
    match d.live ref with
    | none => d
    | some c =>
      if c.job = .share 28 then
        match d.takeGrant 28 (.cmd ref) with
        | some d => d.startUnwrap ref
        | none => d
      else d.admin ref (fun d => d.unlocked ref (fun d =>
        match data, limitOf cdw15 with
        | none, _ => d.complete ref .dataTransferError
        | some _, none => d.complete ref .invalidField
        | some b, some lim =>
          match (d.hostRead ref.fix b.length).blobChecks ref.fix b len none with
          | .error st => d.importRefused ref false st
          | .ok d =>
            let d := d.modCmd ref (fun c => { c with data := b, args := [4096, lim] })
            let (d, ok) := d.request 28 ref.fix 1 (.cmd ref)
            if ok then d.startUnwrap ref else d.modCmd ref (fun c => { c with job := .share 28 })))

/-- A generated key goes into a new slot. -/
def Dev.storeGenerated (d : Dev) (ref : CmdRef) : Dev :=
  match d.cmd ref, d.freeSlot with
  | some c, some n =>
    let ktype := c.args.getD 2 0
    let (key, d) := d.genKey ktype (c.args.getD 3 0) 64
    (d.putKey n ref.fix ktype c.limitLog 0 key).complete ref .success n
  | _, _ => d

/-- KEY_SLOT_GENERATE: action 1. -/
def execKeySlotGenerate (ref : CmdRef) (len cdw15 : Nat) (s : State) : Host.Outcome State Fault Refusal :=
  act s fun d =>
    match d.live ref with
    | none => d
    | some c =>
      if c.job = .share 28 then
        match d.takeGrant 28 (.cmd ref) with
        | some d => d.storeGenerated ref
        | none => d
      else d.admin ref (fun d => d.unlocked ref (fun d =>
        let ktype := bitsOf cdw15 0 4
        let kl := if ktype = 1 then 64 else if ktype = 2 then bitsOf cdw15 16 16 else 32
        match limitOf cdw15 with
        | none => d.complete ref .invalidField
        | some lim =>
          if len ≠ 0 ∨ ktype = 0 ∨ 3 < ktype ∨ keyLenOk ktype kl = false then d.complete ref .invalidField
          else
            let d := d.modCmd ref (fun c => { c with args := [4096, lim, ktype, kl] })
            let (d, ok) := d.request 28 ref.fix 1 (.cmd ref)
            if ok then d.storeGenerated ref else d.modCmd ref (fun c => { c with job := .share 28 })))

/-- KEY_SLOT_REKEY: action 4, with a blob or, without data, by generating. -/
def execKeySlotRekey (ref : CmdRef) (slot len cdw15 : Nat) (data : Option Bytes) (s : State) :
    Host.Outcome State Fault Refusal :=
  act s fun d => d.admin ref (fun d => d.unlocked ref (fun d =>
    let k := d.kslot slot
    match limitOf cdw15 with
    | none => d.complete ref .invalidField
    | some lim =>
      if 4096 ≤ slot ∨ k.ownedBy ref.fix = false ∨ k.ktype = 4 ∨ (k.ktype = 1 ∧ (d.bindingsOf slot).isEmpty = false) then
        d.complete ref .invalidField
      else if len = 0 then
        if bitsOf cdw15 0 4 ≠ k.ktype then d.complete ref .invalidField
        else
          let (key, d) := d.genKey k.ktype k.key.length 64
          ((d.flushLaneKeys k.serial).putKey slot ref.fix k.ktype lim 0 key).complete ref .success
      else match data with
        | none => d.complete ref .dataTransferError
        | some b =>
          match (d.hostRead ref.fix b.length).blobChecks ref.fix b len (some k) with
          | .error st => d.importRefused ref false st
          | .ok d => (d.modCmd ref (fun c => { c with data := b, args := [slot, lim] })).startUnwrap ref))

/-! ## Destroy, bind, unbind (R332) -/

/-- Commands that have started with a key: of writes those whose granules carry its serial, of reads those under a pair. -/
def Dev.usersOf (d : Dev) (serial : Nat) (pairs : List (Nat × Nat × Nat)) : List CmdRef :=
  ((d.wrp.grans.filter (fun g => g.keySerial = serial)).map (·.ref) ++
    (d.rdp.grans.filter (fun g => decide (0x8000 ≤ g.keyRef) &&
      pairs.any (fun p => decide (p.1 = gtagNsid g.gtag ∧ p.2.1 = g.keyRef % 4096)))).map (·.ref)).eraseDups

/-- A destroy or unbind whose slot's users have ended completes: KEY_RELEASE_COMPLETE. `slot` is the slot destroyed, or
4,096 for an unbind. -/
def Dev.releaseDone (d : Dev) (c : Cmd) : Dev :=
  if c.after.any (fun r => (d.cmd r).isSome) then d
  else
    (d.doIf (decide (c.job ≠ .keyRelease 4096)) (fun d => (d.flushLaneKeys (c.args.getD 0 0)).giveBack 28 c.ref.fix 1)).complete
      c.ref .success

/-- KEY_SLOT_DESTROY: action 2. The pairs go, the slot is zeroised, and the command waits for those that started with
the key. -/
def execKeySlotDestroy (ref : CmdRef) (slot : Nat) (s : State) : Host.Outcome State Fault Refusal :=
  act s fun d => d.admin ref (fun d =>
    let k := d.kslot slot
    if 4096 ≤ slot ∨ k.ownedBy ref.fix = false then d.complete ref .invalidField
    else
      let users := d.usersOf k.serial (d.bindingsOf slot)
      let d := ({ d with key := { d.key with
        bindings := d.key.bindings.filter (fun b => b.2.2 ≠ slot)
        slots := d.key.slots.filter (fun p => p.1 ≠ slot) } }).vaultWrite
      let d := d.modCmd ref (fun c => { c with job := .keyRelease slot, after := users, args := [k.serial] })
      match d.cmd ref with
      | some c => d.releaseDone c
      | none => d)

/-- KEY_SLOT_BIND: action 5. -/
def execKeySlotBind (ref : CmdRef) (slot nsid tag : Nat) (s : State) : Host.Outcome State Fault Refusal :=
  act s fun d => d.admin ref (fun d =>
    let k := d.kslot slot
    let nsOk : Bool := match d.ns nsid with
      | some n => n.kpio && decide (ref.fix ∈ n.attached)
      | none => false
    if 4096 ≤ slot ∨ 4096 ≤ tag ∨ k.ownedBy ref.fix = false ∨ k.ktype ≠ 1 ∨ nsOk = false ∨ (d.boundTo nsid tag).isSome then
      d.complete ref .invalidField
    else if k.state = 2 then d.complete ref .keySlotExhausted
    else (({ d with key := { d.key with bindings := d.key.bindings ++ [(nsid, tag, slot)] } }).vaultWrite).complete ref
      .success)

/-- KEY_SLOT_UNBIND: action 6. -/
def execKeySlotUnbind (ref : CmdRef) (slot nsid tag : Nat) (s : State) : Host.Outcome State Fault Refusal :=
  act s fun d => d.admin ref (fun d =>
    let k := d.kslot slot
    if k.ownedBy ref.fix = false ∨ d.boundTo nsid tag ≠ some slot then d.complete ref .invalidField
    else
      let users := d.usersOf k.serial [(nsid, tag, slot)]
      let d := ({ d with key := { d.key with
        bindings := d.key.bindings.filter (fun b => decide (b ≠ (nsid, tag, slot))) } }).vaultWrite
      let d := d.modCmd ref (fun c => { c with job := .keyRelease 4096, after := users })
      match d.cmd ref with
      | some c => d.releaseDone c
      | none => d)

/-- KEY_RELEASE_COMPLETE: a waiting destroy or unbind whose last user has ended. -/
def execKeyReleaseComplete (ref : CmdRef) (s : State) : Host.Outcome State Fault Refusal :=
  act s fun d =>
    match d.cmd ref with
    | some c => match c.job with
      | .keyRelease _ => d.releaseDone c
      | _ => d
    | none => d

/-! ## Ends of AEE jobs (R317, R340) -/

/-- What follows the end of an owner's AEE job with a status of R341. -/
def Dev.aeeOutcome (d : Dev) (j : AJob) (status : Nat) (text : Bytes) : Dev :=
  match j.ref with
  | none => d
  | some r =>
    let d := d.giveBack 27 r.fix 1
    match d.cmd r with
    | none => d
    | some c =>
      let new := decide (c.target = 4096)
      match status with
      | 0 => d.storeBlobKey c text
      | 1 => d.importRefused r new .invalidField (0x80 + fieldAt c.data 6 2)
      | _ => d.importEnds r new .internalError

/-- AEE_JOB_END: a job whose text is processed ends, its tag checked; the context is zeroised. Owner contexts are 16 ×
instance + context, the firmware context of instance i is 1,000 + i. -/
def execAeeJobEnd (job : Nat) (s : State) : Host.Outcome State Fault Refusal :=
  act s fun d =>
    let fw := decide (1000 ≤ job)
    let j := if fw then d.fjob (job - 1000) else d.ajob job
    if j.state ≠ 2 ∨ j.done < j.text.length then d
    else
      let (st, text) := j.finish
      let inst := if fw then job - 1000 else job / 16
      let d := (d.modEng 2 inst (fun e => { e with jobs := e.jobs + 1 })).engEvent 2 inst
      let d := if st = 1 then { d with aee := { d.aee with authFail := satAdd 32 d.aee.authFail 1 } } else d
      if fw then
        match j.reply with
        | some (k, b) => (d.freeFjob (job - 1000)).emit (.spdm k b)
        | none => d.freeFjob (job - 1000)
      else ((d.freeAjob job).aeeOutcome j st text).placeAee

/-- CONTEXT_BUS_ERROR: engine 1 DGE, 2 AEE (2 with 1,000 + i for a firmware context). The context is zeroised and its job
ends: a service 4 call with SANDBOX_FAULT of code 4, which is reported against its core; an AEE job with BUS_ERROR. -/
def execContextBusError (engine ctx : Nat) (s : State) : Host.Outcome State Fault Refusal :=
  act s fun d =>
    let count (d : Dev) (i : Nat) : Dev := d.modEng engine i (fun e => { e with zeroised := satAdd 32 e.zeroised 1 })
    match engine with
    | 1 =>
      let j := d.dctx ctx
      if j.state = 0 then d
      else (((count d (ctx / 16)).endDge ctx).transition (uid 1 (j.caller / 4)) .degraded .hardware).faultInstance j.wb 4 0
    | 2 =>
      if 1000 ≤ ctx then
        if (d.fjob (ctx - 1000)).state = 0 then d
        else ((count d (ctx - 1000)).freeFjob (ctx - 1000)).emit (.spdm .error [])
      else
        let j := d.ajob ctx
        if j.state = 0 then d
        else ((((count d (ctx / 16)).modEng 2 (ctx / 16) (fun e => { e with jobs := e.jobs + 1 })).freeAjob ctx).aeeOutcome
          j 3 []).placeAee
    | _ => d

/-! ## Alarms and the DRBG (R327, R336) -/

/-- KEY_ALARM: sources 0 supply, 1 clock, 2 temperature, 3 JTAG. Every working key, context, park slot and lane cache is
zeroised, and KEY is LOCKED. Calls of service 4 end with KEY_REFUSED, unwraps with Namespace Not Ready. -/
def Dev.alarm (d : Dev) (source : Nat) : Dev :=
  if source ≠ 3 && !bit d.key.alarmEnA source then d
  else
    let calls := (d.dge.ctxs.map (·.2)).filter (fun j => j.state ≠ 0) ++ d.dge.waiting
    let unwraps := (d.aee.jobs.map (·.2)).filter (fun j => j.state ≠ 0) ++ d.aee.waiting
    let fw := (d.aee.fwJobs.filter (fun p => p.2.state ≠ 0)).length
    let parks : FMap (Option Ctx) := d.drv.ctxs.map (fun p => (p.1, p.2.map (fun c => { c with digest := none })))
    let lanes : FMap MxtLane := d.mxt.lanes.map (fun p => (p.1, { p.2 with keys := [] }))
    let d : Dev := { d with
      dge := { d.dge with ctxs := [], waiting := [] }
      aee := { d.aee with jobs := [], fwJobs := [], waiting := [] }
      drv := { d.drv with ctxs := parks }
      mxt := { d.mxt with lanes := lanes }
      key := { d.key with
        locked := true, cause := setIns d.key.cause source, jtag := d.key.jtag || decide (source = 3)
        alarms := satAdd 32 d.key.alarms 1, workLoaded := false } }
    let d := d.forEach calls (fun d j =>
      (if j.state = 0 then d.withdraw 26 (.waybill j.wb) else d.giveBack 26 j.fix 1).opOver j.wb j.ticket 9 0)
    let d := d.forEach unwraps (fun d j => match j.ref with
      | some r =>
        let d := if j.state = 0 then d.withdraw 27 (.cmd r) else d.giveBack 27 r.fix 1
        let new := match d.cmd r with
          | some c => decide (c.target = 4096)
          | none => false
        d.importEnds r new .nsNotReady
      | none => d)
    (d.forEach (List.range fw) (fun d _ => d.emit (.spdm .error []))).srcEvent 200

def execKeyAlarm (source : Nat) (s : State) : Host.Outcome State Fault Refusal :=
  act s fun d => if 4 ≤ source ∨ d.domOn .control = false then d else d.alarm source

/-- DRBG_RESEED: after 2^20 requests. -/
def execDrbgReseed (s : State) : Host.Outcome State Fault Refusal :=
  act s fun d =>
    if 2 ^ 20 ≤ d.key.drbg then { d with key := { d.key with drbg := 0, seeds := satAdd 32 d.key.seeds 1 } } else d

end Sys2Proof.Machine
end

