-- ==== Sys2Proof/Machine/Reservation.lean ====
section
/-! DEFINITION. Reservations (R74): the commands of NVMe 2.1 with all reservation types and Persist Through Power Loss. The
spec names them and leaves their rules to NVMe 2.1 (log 40). -/

namespace Sys2Proof.Machine


/-- The host behind a controller: its Host Identifier, or the controller itself while that is 0. -/
def Dev.hostOf (d : Dev) (fix : Nat) : Nat :=
  let h := (d.fn fix).feat.hostId
  if h = 0 then fix else 1024 + h

/-- Whether a host is a registrant, and whether it holds the reservation: with types 5 and 6 every registrant does. -/
def Resv.registered (r : Resv) (h : Nat) : Bool := r.keys.any (fun k => k.1 = h)
def Resv.holds (r : Resv) (h : Nat) : Bool :=
  decide (r.rtype ≠ 0) && (if 5 ≤ r.rtype then r.registered h else decide (r.holder = h))

/-- Whether a host may write under a reservation: 1 write exclusive, 2 exclusive access, 3 and 4 registrants only, 5 and 6
all registrants. -/
def Resv.mayWrite (r : Resv) (h : Nat) : Bool :=
  decide (r.rtype = 0) || r.holds h || (decide (3 ≤ r.rtype) && r.registered h)

/-- Whether a host may read. -/
def Resv.mayRead (r : Resv) (h : Nat) : Bool := decide (r.rtype ∈ [0, 1, 3, 5]) || r.mayWrite h

/-- A notification to the controllers of the hosts named, unless they mask it: 1 registration preempted, 2 reservation
released, 3 reservation preempted. -/
def Dev.notifyResv (d : Dev) (nsid ty : Nat) (fixes : List Nat) : Dev :=
  d.forEach fixes (fun d f =>
    if bit (fget (d.fn f).feat.resvMask 0 nsid) ty then d
    else (d.modFn f (fun x => { x with resvLog := x.resvLog ++ [(ty, nsid)], resvCount := x.resvCount + 1 })).postAen f 6 0 0x80)

/-- Controllers of registrants that meet a test. -/
def Resv.ctrls (r : Resv) (p : Nat × Nat × Nat → Bool) : List Nat := (r.keys.filter p).map (fun k => k.2.1)

/-- The reservation is gone; the registrants stay. -/
def Resv.released (r : Resv) : Resv := { r with rtype := 0, holder := 0 }

/-- The frame of the four commands: the namespace is attached. -/
def Dev.resvCmd (d : Dev) (ref : CmdRef) (nsid : Nat) (f : Dev → Resv → Nat → Dev) : Dev :=
  d.io ref (fun d => match d.ns nsid with
    | none => d.complete ref .invalidNsid
    | some n =>
      if !n.ready || decide (ref.fix ∉ n.attached) then d.complete ref .invalidNsid
      else f d n.resv (d.hostOf ref.fix))

/-- The keys that a command brings in `len` bytes: its SGL is walked and its length compared first (R84, R475). -/
def takeKeys (k : KeyData) (len : Nat) : Except Status (Nat × Nat) :=
  match sglCheck .toDevice k.ptr len none, k.keys with
  | some e, _ => .error e
  | none, none => .error .dataTransferError
  | none, some p => .ok p

/-- The frame of a command with keys. -/
def Dev.resvKeys (d : Dev) (ref : CmdRef) (nsid : Nat) (k : KeyData) (len : Nat) (f : Dev → Resv → Nat → Nat × Nat → Dev) :
    Dev :=
  d.resvCmd ref nsid fun d r h =>
    match takeKeys k len with
    | .error e => d.complete ref e
    | .ok p => f (d.hostRead ref.fix len) r h p

def Dev.setResv (d : Dev) (nsid : Nat) (r : Resv) : Dev := d.modNs nsid (fun n => { n with resv := r })

/-- Removes a host's registration; a reservation that it alone held is released. -/
def Resv.unregister (r : Resv) (h : Nat) : Resv :=
  let r1 := { r with keys := r.keys.filter (fun k => k.1 ≠ h) }
  if r.rtype ≠ 0 ∧ (if 5 ≤ r.rtype then r1.keys.isEmpty else decide (r.holder = h)) then r1.released else r1

/-- RESERVATION_REGISTER: RREGA 0 register, 1 unregister, 2 replace; IEKEY; CPTPL; the keys (none: the transfer failed). -/
def execReservationRegister (ref : CmdRef) (nsid action : Nat) (iekey : Bool) (cptpl : Nat) (keys : KeyData)
    (s : State) : Host.Outcome State Fault Refusal :=
  act s fun d => d.resvKeys ref nsid keys 16 fun d r h p =>
    let (cur, new) := p
    let mine := (r.keys.find? (fun k => k.1 = h)).map (fun k => k.2.2)
    let r := { r with ptpl := if cptpl = 2 then false else if cptpl = 3 then true else r.ptpl }
    let add (r : Resv) : Resv := { r with
      gen := (r.gen + 1) % 2 ^ 32, keys := r.keys.filter (fun k => k.1 ≠ h) ++ [(h, ref.fix, new)] }
    if 2 < action then d.complete ref .invalidField
    else if action = 0 then
      match mine with
      | none => (d.setResv nsid (add r)).complete ref .success
      | some k => if k = new then (d.setResv nsid r).complete ref .success else d.complete ref .reservationConflict
    else if action = 1 then
      match mine with
      | some k =>
        if iekey || decide (k = cur) then
          let r1 := { r.unregister h with gen := (r.gen + 1) % 2 ^ 32 }
          let d := d.setResv nsid r1
          let d := if r.rtype ≠ 0 ∧ r1.rtype = 0 ∧ 3 ≤ r.rtype then d.notifyResv nsid 2 (r1.ctrls (fun _ => true)) else d
          d.complete ref .success
        else d.complete ref .reservationConflict
      | none => d.complete ref .reservationConflict
    else
      match mine with
      | some k =>
        if iekey || decide (k = cur) then (d.setResv nsid (add r)).complete ref .success
        else d.complete ref .reservationConflict
      | none => if iekey then (d.setResv nsid (add r)).complete ref .success else d.complete ref .reservationConflict

/-- Whether a host has registered with a key. -/
def Resv.knows (r : Resv) (h key : Nat) : Bool := r.keys.any (fun k => decide (k.1 = h ∧ k.2.2 = key))

/-- The preemption of NVMe 2.1: the state after it, or none where it conflicts. -/
def Resv.preempt (r : Resv) (h prkey rtype : Nat) : Option Resv :=
  let others (key : Nat) : List (Nat × Nat × Nat) := r.keys.filter (fun k => decide (k.1 = h ∨ k.2.2 ≠ key))
  let hit := r.keys.any (fun k => decide (k.2.2 = prkey))
  let g := (r.gen + 1) % 2 ^ 32
  if 5 ≤ r.rtype ∧ prkey = 0 then
    some { r with gen := g, keys := r.keys.filter (fun k => k.1 = h), rtype := rtype, holder := h }
  else if !hit then none
  else
    let r1 := { r with gen := g, keys := others prkey }
    if r.rtype ≠ 0 ∧ r.rtype ≤ 4 ∧ r.knows r.holder prkey then some { r1 with rtype := rtype, holder := h } else some r1

/-- RESERVATION_ACQUIRE: RACQA 0 acquire, 1 preempt, 2 preempt and abort (Abort has no effect on started commands, R82;
log 40). -/
def execReservationAcquire (ref : CmdRef) (nsid action : Nat) (iekey : Bool) (rtype : Nat) (keys : KeyData)
    (s : State) : Host.Outcome State Fault Refusal :=
  act s fun d => d.resvKeys ref nsid keys 16 fun d r h p =>
    let (cur, pre) := p
    if 2 < action ∨ iekey ∨ rtype < 1 ∨ 6 < rtype then d.complete ref .invalidField
    else if !r.knows h cur then d.complete ref .reservationConflict
    else if action = 0 then
      if r.rtype = 0 then (d.setResv nsid { r with rtype := rtype, holder := h }).complete ref .success
      else if r.holds h ∧ r.rtype = rtype then d.complete ref .success
      else d.complete ref .reservationConflict
    else if pre = 0 ∧ r.rtype < 5 then d.complete ref .invalidField
    else match r.preempt h pre rtype with
      | none => d.complete ref .reservationConflict
      | some r1 =>
        let gone := r.ctrls (fun k => !r1.registered k.1)
        let d := (d.setResv nsid r1).notifyResv nsid 1 gone
        let changed := decide (r.rtype ≠ 0 ∧ (r.rtype ≠ r1.rtype ∨ r.holder ≠ r1.holder))
        let d := if changed then d.notifyResv nsid 2 (r1.ctrls (fun k => decide (k.1 ≠ h))) else d
        d.complete ref .success

/-- RESERVATION_RELEASE: RRELA 0 release, 1 clear. -/
def execReservationRelease (ref : CmdRef) (nsid action : Nat) (iekey : Bool) (rtype : Nat) (key : KeyData) (s : State) :
    Host.Outcome State Fault Refusal :=
  act s fun d => d.resvKeys ref nsid key 8 fun d r h p =>
    if 1 < action ∨ iekey then d.complete ref .invalidField
    else if !r.knows h p.1 then d.complete ref .reservationConflict
    else if action = 0 then
      if !r.holds h then d.complete ref .success
      else if r.rtype ≠ rtype then d.complete ref .invalidField
      else
        let d := d.setResv nsid r.released
        let d := if 3 ≤ r.rtype then d.notifyResv nsid 2 (r.ctrls (fun k => decide (k.1 ≠ h))) else d
        d.complete ref .success
    else
      let d := d.setResv nsid { r.released with keys := [], gen := (r.gen + 1) % 2 ^ 32 }
      (d.notifyResv nsid 3 (r.ctrls (fun k => decide (k.1 ≠ h)))).complete ref .success

/-- The Reservation Status data of NVMe 2.1, in its short or its extended form. -/
def Resv.report (r : Resv) (extended : Bool) : Bytes :=
  let head := leBytes 4 r.gen ++ leBytes 1 r.rtype ++ leBytes 2 r.keys.length ++ zeroBytes 2 ++ leBytes 1 (b2n r.ptpl)
  let hostId (h : Nat) : Nat := if h < 1024 then 0 else h - 1024
  let entry (k : Nat × Nat × Nat) : Bytes :=
    let st := leBytes 2 k.2.1 ++ leBytes 1 (b2n (r.holds k.1)) ++ zeroBytes 5
    if extended then st ++ leBytes 8 k.2.2 ++ leBytes 16 (hostId k.1) ++ zeroBytes 32
    else st ++ leBytes 8 (hostId k.1) ++ leBytes 8 k.2.2
  padTo (if extended then 64 else 24) head ++ (r.keys.map entry).flatten

/-- RESERVATION_REPORT: the first `len` bytes. -/
def execReservationReport (ref : CmdRef) (nsid len : Nat) (extended : Bool) (ptr : DataPtr) (s : State) :
    Host.Outcome State Fault Refusal :=
  act s fun d => d.resvCmd ref nsid fun d r _ =>
    match sglCheck .toHost ptr len none with
    | some e => d.complete ref e
    | none => (d.emit (.toHost ref 0 (slice (r.report extended) 0 len))).complete ref .success

/-- A loss of power: reservations without Persist Through Power Loss are gone with their registrants. -/
def Resv.afterPowerLoss (r : Resv) : Resv := if r.ptpl then r else { r.released with keys := [] }

end Sys2Proof.Machine
end

