-- ==== Sys2Proof/Machine/HostIo.lean ====
section
/-! DEFINITION. The host's I/O commands: Flush, Write, Read, Compare, Verify, Write Zeroes and Dataset Management (R74, R84,
R90, R115, R116, R125, R184, R187, R199, R200, R213, R328). -/

namespace Sys2Proof.Machine

/-! ## Ranges -/

/-- The parts of a range by granule: granule, first LBA in it, LBAs, and position in the range. -/
def parts (per slba nlb : Nat) : List (Nat × Nat × Nat × Nat) :=
  let g0 := slba / per
  (List.range ((slba + nlb - 1) / per + 1 - g0)).map (fun k =>
    let g := g0 + k
    let lo := max slba (g * per)
    (g, lo - g * per, min (slba + nlb) ((g + 1) * per) - lo, lo - slba))

/-- Bytes of an LBA as a command transfers it, and those of its metadata sent apart. -/
def Ns.unit (n : Ns) : Nat := lbaSize n.lbaf + (if n.extended then lbaMeta n.lbaf else 0)
def Ns.apart (n : Ns) : Nat := if n.extended then 0 else lbaMeta n.lbaf

/-- Whether a controller has a namespace attached and available, and why not. -/
def Dev.nsFor (d : Dev) (ref : CmdRef) (nsid : Nat) : Except Status Ns :=
  match d.ns nsid with
  | none => .error .invalidNsid
  | some n =>
    if !n.ready || decide (ref.fix ∉ n.attached) then .error .invalidNsid
    else if n.formatPending then .error .nsNotReady
    else .ok n

/-- The same for a command that reads: the LBAs of a namespace being formatted read as zeros once its clearing has begun (R188). -/
def Dev.nsForRead (d : Dev) (ref : CmdRef) (nsid : Nat) : Except Status Ns :=
  match d.nsFor ref nsid, d.ns nsid with
  | .error .nsNotReady, some n => if nsid ∈ d.map.clears then .ok n else .error .nsNotReady
  | r, _ => r

/-- The key reference that a key tag gives (R90, R117): 0 without one, else bit 15 and the tag. -/
def Dev.keyRefFor (d : Dev) (n : Ns) (nsid : Nat) (tag : Option Nat) : Except Status Nat :=
  match tag with
  | none => .ok 0
  | some t =>
    if !n.kpio then .error .invalidField
    else if (d.boundTo nsid t).isNone then .error .keyTagUnbound
    else .ok (0x8000 + t)

/-- The checks that every command on a range of LBAs passes first: the namespace, the range and the reservation. -/
def Dev.rangeFor (d : Dev) (ref : CmdRef) (nsid slba nlb : Nat) (writes : Bool) : Except Status Ns :=
  match (if writes then d.nsFor ref nsid else d.nsForRead ref nsid) with
  | .error e => .error e
  | .ok n =>
    let h := d.hostOf ref.fix
    if n.nsze < slba + nlb then .error .lbaOutOfRange
    else if (if writes then n.resv.mayWrite h else n.resv.mayRead h) then .ok n
    else .error .reservationConflict

/-- The checks of a command that transfers a range: those of every range, the MDTS of R72, the key, the read-only state
(R200) and the pointers (R475). -/
def Dev.transferFor (d : Dev) (ref : CmdRef) (nsid slba nlb : Nat) (tag : Option Nat) (writes : Bool) (u : PtrUse)
    (dp mp : DataPtr) : Except Status (Ns × Nat) :=
  match d.rangeFor ref nsid slba nlb writes with
  | .error e => .error e
  | .ok n =>
    if 2 ^ 21 < nlb * n.unit ∨ nlb = 0 then .error .invalidField
    else match d.keyRefFor n nsid tag with
      | .error e => .error e
      | .ok k =>
        if writes && n.readOnly then .error .writeProtected
        else if d.key.locked then .error .nsNotReady
        else match sglCheck u dp (nlb * n.unit) (if n.apart = 0 then none else some (mp, nlb * n.apart)) with
          | some e => .error e
          | none => .ok (n, k)

/-! ## Writing -/

/-- Data and metadata of LBAs of a transfer: `count` of them from position `pos`. -/
def Ns.dataOf (n : Ns) (data info : Bytes) (pos count : Nat) : Bytes × Bytes :=
  let s := lbaSize n.lbaf
  let m := lbaMeta n.lbaf
  if n.extended then
    let at' (i : Nat) : Nat := (pos + i) * (s + m)
    (((List.range count).map (fun i => slice data (at' i) s)).flatten,
     ((List.range count).map (fun i => slice data (at' i + s) m)).flatten)
  else (slice data (pos * s) (count * s), slice info (pos * m) (count * m))

/-- LBAs laid at their places in a granule, zeros elsewhere. -/
def layIn (per size first : Nat) (b : Bytes) : Bytes := padTo (per * size) (zeroBytes (first * size) ++ b)

/-- A granule part of a write enters the pipeline and waits for its lock (R112, R116); `zeroes` marks one of a clearing command,
which an UNMAPPED granule does not take (R187). -/
def Dev.addWrite (d : Dev) (ref : CmdRef) (n : Ns) (nsid keyRef : Nat) (p : Nat × Nat × Nat × Nat) (data info : Bytes)
    (zeroes : Bool := false) : Dev :=
  let (g, first, count, _) := p
  let per := lbasPer n.lbaf
  let k := (d.keyOf nsid keyRef).getD (n.mediaKey, n.key)
  let w : WGran := {
    id := d.wrp.next, ref := ref, epoch := d.epochOf ref, gtag := gtagOf nsid g, keyRef := keyRef
    keySerial := k.1, key := k.2, zeroes := zeroes, cover := (List.range count).map (· + first)
    data := layIn per (lbaSize n.lbaf) first data, info := layIn per (lbaMeta n.lbaf) first info
    stage := .locked, reserve := storedLen (metaLen n.lbaf) }
  { d with wrp := { d.wrp with next := d.wrp.next + 1, grans := d.wrp.grans ++ [w] } }

/-- READ_ONLY_ENTRY (R199): a write found no headroom. -/
def Dev.enterReadOnly (d : Dev) (nsid : Nat) (n : Ns) : Dev :=
  let d := (d.modNs nsid (fun n => { n with readOnly := true })).record 6 nsid 4 n.lbaf n.granules
  let d := (d.warn 3 true).nsChanged nsid
  { d with map := { d.map with capExceeded := satAdd 32 d.map.capExceeded 1 } }

/-- Whether `n` uses of a key reference's slot are left (R328); the media key has no limit. -/
def Dev.usesLeft (d : Dev) (nsid : Nat) (tag : Option Nat) (n : Nat) : Bool :=
  match tag.bind (d.boundTo nsid) with
  | some k => decide ((d.kslot k).uses + n ≤ (d.kslot k).limit) && decide ((d.kslot k).state = 1)
  | none => true

/-- What stage 2 refuses a command's granules for: no set that can open (R213), the key's uses (R328), headroom (R199). -/
def Dev.stageCheck (d : Dev) (n : Ns) (nsid : Nat) (tag : Option Nat) (count : Nat) : Option Status :=
  if !d.setsCanOpen then some .nsNotReady
  else if !d.usesLeft nsid tag count then some .keySlotExhausted
  else if d.headroom < (count * storedLen (metaLen n.lbaf) : Nat) then some .capacityExceeded
  else none

/-- A refused command, with the read-only entry of R199 where headroom was the cause. -/
def Dev.refuseWrite (d : Dev) (ref : CmdRef) (nsid : Nat) (n : Ns) (st : Status) : Dev :=
  (if st = .capacityExceeded then d.enterReadOnly nsid n else d).complete ref st

/-- A command's granules try stage 2, in order. -/
def Dev.stageAll (d : Dev) (ref : CmdRef) : Dev :=
  d.forEach ((d.wrp.grans.filter (fun g => decide (g.ref = ref ∧ g.stage = .locked))).map (·.id)) (fun d i => d.tryStage2 i)

/-- WRITE. `data` and `metadata` are what the transfers from the host bring; none: a transfer failed. -/
def execWrite (ref : CmdRef) (nsid slba nlb : Nat) (tag : Option Nat) (dp mp : DataPtr) (data metadata : Option Bytes)
    (s : State) : Host.Outcome State Fault Refusal :=
  act s fun d => d.io ref fun d =>
    match d.transferFor ref nsid slba nlb tag true .toDevice dp mp, data, metadata with
    | .error e, _, _ => d.complete ref e
    | .ok (n, k), some b, some m =>
      let ps := parts (lbasPer n.lbaf) slba nlb
      match d.stageCheck n nsid tag ps.length with
      | some e => d.refuseWrite ref nsid n e
      | none =>
        let d := match tag.bind (d.boundTo nsid) with
          | some slot => d.useSlot slot ps.length
          | none => d
        let d := (d.hostRead ref.fix (nlb * (n.unit + n.apart))).modCmd ref (fun c => { c with
          job := .write, waits := ps.length, started := true })
        let d : Dev := { d with
          wrp := { d.wrp with userBytes := d.wrp.userBytes + nlb * lbaSize n.lbaf }
          nvm := { d.nvm with
            writeCmds := d.nvm.writeCmds + 1, bytesWritten := d.nvm.bytesWritten + nlb * lbaSize n.lbaf } }
        (d.forEach ps (fun d p =>
          let (x, y) := n.dataOf b m p.2.2.2 p.2.2.1
          d.addWrite ref n nsid k p x y)).stageAll ref
    | .ok _, _, _ => d.complete ref .dataTransferError

/-! ## Reading -/

/-- The granule reads of a command: each part waits for its look-up, its credit and its media (R113). -/
def Dev.readParts (d : Dev) (ref : CmdRef) (n : Ns) (nsid keyRef slba nlb : Nat) (job : Job) (dest : RDest) : Dev :=
  let ps := parts (lbasPer n.lbaf) slba nlb
  let d := d.modCmd ref (fun c => { c with job := job, waits := ps.length, started := true })
  d.forEach ps (fun d p => d.startRead ref (gtagOf nsid p.1) keyRef dest p.2.1 p.2.2.1 p.2.2.2)

/-- One more host read command. -/
def Dev.countRead (d : Dev) : Dev := { d with nvm := { d.nvm with readCmds := d.nvm.readCmds + 1 } }

/-- READ. -/
def execRead (ref : CmdRef) (nsid slba nlb : Nat) (tag : Option Nat) (dp mp : DataPtr) (s : State) :
    Host.Outcome State Fault Refusal :=
  act s fun d => d.io ref fun d =>
    match d.transferFor ref nsid slba nlb tag false .toHost dp mp with
    | .error e => d.complete ref e
    | .ok (n, k) => d.countRead.readParts ref n nsid k slba nlb .read .host

/-- COMPARE. -/
def execCompare (ref : CmdRef) (nsid slba nlb : Nat) (tag : Option Nat) (dp mp : DataPtr) (data metadata : Option Bytes)
    (s : State) : Host.Outcome State Fault Refusal :=
  act s fun d => d.io ref fun d =>
    match d.transferFor ref nsid slba nlb tag false .toDevice dp mp, data, metadata with
    | .error e, _, _ => d.complete ref e
    | .ok (n, k), some b, some m =>
      ((d.hostRead ref.fix (nlb * (n.unit + n.apart))).modCmd ref (fun c =>
        { c with data := b, info := m })).countRead.readParts ref n nsid k slba nlb .compare .compare
    | .ok _, _, _ => d.complete ref .dataTransferError

/-- VERIFY: every granule is read and checked without a transfer. -/
def execVerify (ref : CmdRef) (nsid slba nlb : Nat) (tag : Option Nat) (s : State) : Host.Outcome State Fault Refusal :=
  act s fun d => d.io ref fun d =>
    match d.rangeFor ref nsid slba nlb false with
    | .error e => d.complete ref e
    | .ok n =>
      match d.keyRefFor n nsid tag with
      | .error e => d.complete ref e
      | .ok k =>
        if d.key.locked then d.complete ref .nsNotReady
        else if nlb = 0 then d.complete ref .invalidField
        else d.readParts ref n nsid k slba nlb .verify .verify

/-- FLUSH completes at once: every completed write is durable (R74). -/
def execFlush (ref : CmdRef) (nsid : Nat) (s : State) : Host.Outcome State Fault Refusal :=
  act s fun d => d.io ref fun d =>
    if nsid = 0xFFFFFFFF then d.complete ref .success
    else match d.nsFor ref nsid with
      | .ok _ => d.complete ref .success
      | .error e => d.complete ref e

/-! ## Clearing (R187) -/

/-- The part of a range that one leaf covers in whole granules: first granule and number, for each leaf of the range. -/
def leafRuns (g0 g1 : Nat) : List (Nat × Nat) :=
  if g1 ≤ g0 then []
  else (List.range ((g1 - 1) / 1024 + 1 - g0 / 1024)).map (fun k =>
    let lo := max g0 ((g0 / 1024 + k) * 1024)
    (lo, min g1 ((g0 / 1024 + k + 1) * 1024) - lo))

/-- Whole granules of a range, as a first granule and the one after the last. -/
def wholeOf (per slba nlb : Nat) : Nat × Nat := ((slba + per - 1) / per, (slba + nlb) / per)

/-- Whether an earlier write that is on its way covers a granule. -/
def Dev.writeAhead (d : Dev) (t n : Nat) : Bool :=
  d.wrp.grans.any (fun g => decide (g.cause = 0) && !g.mapped && g.meets { gtag := t, clearN := n })

/-- The runs of a range that may need a MAP_CLEAR: those whose leaf exists, in the map or in the cache, or may come to exist
by a write ahead of them. -/
def Dev.clearRuns (d : Dev) (nsid per slba nlb : Nat) : List (Nat × Nat) :=
  let (g0, g1) := wholeOf per slba nlb
  (leafRuns g0 g1).filter (fun r => d.leafExists (leafOf (gtagOf nsid r.1)) || d.writeAhead (gtagOf nsid r.1) r.2)

/-- Partly covered granules of a range that are MAPPED, or may come to be by a write ahead of them. -/
def Dev.partMapped (d : Dev) (nsid per slba nlb : Nat) : List (Nat × Nat × Nat × Nat) :=
  (parts per slba nlb).filter (fun p => decide (p.2.2.1 < per) &&
    ((d.entry (gtagOf nsid p.1)).isSome || d.writeAhead (gtagOf nsid p.1) 0))

/-- A run of whole granules waits for its locks as a write does; its MAP_CLEAR follows once its leaf is cached (R116, R187). -/
def Dev.addClear (d : Dev) (ref : CmdRef) (nsid : Nat) (r : Nat × Nat) : Dev :=
  let w : WGran := { id := d.wrp.next, ref := ref, epoch := d.epochOf ref, gtag := gtagOf nsid r.1, clearN := r.2 }
  { d with wrp := { d.wrp with next := d.wrp.next + 1, grans := d.wrp.grans ++ [w] } }

/-- Clears ranges of a namespace (R187): MAP_CLEAR for whole granules, a merge with zeros for partly covered MAPPED ones. The
command completes when its last record is durable. -/
def Dev.clearRanges (d : Dev) (ref : CmdRef) (nsid : Nat) (n : Ns) (ranges : List (Nat × Nat)) : Dev :=
  let per := lbasPer n.lbaf
  let runs := (ranges.map (fun r => d.clearRuns nsid per r.1 r.2)).flatten
  let ps := (ranges.map (fun r => d.partMapped nsid per r.1 r.2)).flatten
  if n.readOnly && !ps.isEmpty then d.complete ref .writeProtected
  else
    match (if ps.isEmpty then none else d.stageCheck n nsid none ps.length) with
    | some e => d.refuseWrite ref nsid n e
    | none =>
      if runs.isEmpty && ps.isEmpty then d.complete ref .success
      else
        let d := d.modCmd ref (fun c => { c with job := .clear, waits := runs.length + ps.length, started := true })
        let d := d.forEach runs (fun d r => d.addClear ref nsid r)
        (d.forEach ps (fun d p => d.addWrite ref n nsid 0 p (zeroBytes (p.2.2.1 * lbaSize n.lbaf))
          (zeroBytes (p.2.2.1 * lbaMeta n.lbaf)) true)).stageAll ref

/-- WRITE_ZEROES. Its Deallocate bit asks for what the command does in any case. -/
def execWriteZeroes (ref : CmdRef) (nsid slba nlb : Nat) (deallocate : Bool) (s : State) :
    Host.Outcome State Fault Refusal :=
  act s fun d => d.io ref fun d =>
    match d.rangeFor ref nsid slba nlb true with
    | .error e => d.complete ref e
    | .ok n =>
      if nlb = 0 then d.complete ref .invalidField
      else if deallocate then d.clearRanges ref nsid n [(slba, nlb)]
      else d.clearRanges ref nsid n [(slba, nlb)]

/-- DATASET_MANAGEMENT: without the Deallocate attribute nothing is done; ranges of length 0 are passed over. -/
def execDatasetManagement (ref : CmdRef) (nsid : Nat) (deallocate : Bool) (dp : DataPtr)
    (ranges : Option (List (Nat × Nat))) (s : State) : Host.Outcome State Fault Refusal :=
  act s fun d => d.io ref fun d =>
    match d.nsFor ref nsid, ranges with
    | .error e, _ => d.complete ref e
    | .ok n, some l =>
      match sglCheck .toDevice dp (16 * l.length) none with
      | some e => d.complete ref e
      | none =>
        if l.isEmpty ∨ 256 < l.length then d.complete ref .invalidField
        else if !n.resv.mayWrite (d.hostOf ref.fix) then d.complete ref .reservationConflict
        else if l.any (fun r => decide (n.nsze < r.1 + r.2)) then d.complete ref .lbaOutOfRange
        else if deallocate then (d.hostRead ref.fix (16 * l.length)).clearRanges ref nsid n (l.filter (fun r => decide (r.2 ≠ 0)))
        else d.complete ref .success
    | .ok _, none => d.complete ref .dataTransferError

end Sys2Proof.Machine
end

