-- ==== Sys2Proof/Machine/Tongs.lean ====
section
/-! DEFINITION. Tongs associative search (R109, R110, R282 to R297): tables, placement, searches, slots. -/

namespace Sys2Proof.Machine

def Dev.tu (d : Dev) (u : Nat) : TUnit := fget d.tng.units {} u
def Dev.modTu (d : Dev) (u : Nat) (f : TUnit → TUnit) : Dev := { d with tng := { d.tng with units := fmod d.tng.units {} u f } }

/-! ## Tables -/

abbrev TTable := FMap (Option TEntry)

/-- The entry at an index; a free one is none. -/
def tEntryAt (t : TTable) (i : Nat) : Option TEntry := fget t none i

/-- The valid entries in ascending index. -/
def tValid (t : TTable) : List (Nat × TEntry) := t.filterMap (fun p => p.2.map (fun e => (p.1, e)))

/-- Writes or frees an index. -/
def tPut (t : TTable) (i : Nat) (e : Option TEntry) : TTable :=
  match e with
  | some x => fset t i (some x)
  | none => t.filter (fun p => p.1 ≠ i)

/-- One slot's change (R293). -/
def tChange (t : TTable) (u : TUpdate) : TTable :=
  match u with
  | .write i e => tPut t i (some e)
  | .free i => tPut t i none
  | .move src dst => tPut (tPut t dst (tEntryAt t src)) src none

/-- Whether the priorities of a list never increase. -/
def descending (l : List Nat) : Bool :=
  match l with
  | a :: b :: t => decide (b ≤ a) && descending (b :: t)
  | _ => true

/-- SORTED (R288). -/
def tSorted (t : TTable) : Bool := descending ((tValid t).map (fun p => p.2.prio))

/-- An entry of the host interface (R283). -/
def tEntryOf (b : Bytes) : TEntry :=
  let m := BitVec.ofNat 160 (fieldAt b 0x14 20)
  { value := BitVec.ofNat 160 (fieldAt b 0 20) &&& m, mask := m, prio := fieldAt b 0x28 2, tag := fieldAt b 0x2C 4 }

/-- The 64 bytes of an entry; a free one is all zeros. -/
def tEntryBytes (e : Option TEntry) : Bytes :=
  match e with
  | some x => fields [(20, x.value.toNat), (20, x.mask.toNat), (2, x.prio), (2, 1), (4, x.tag), (16, 0)]
  | none => zeroBytes 64

/-- Entry `i` of a command's data. -/
def tData (b : Bytes) (i : Nat) : Bytes := slice b (64 * i) 64

/-- The first byte of an entry that holds a bit R283 does not have. -/
def tFaulty (b : Bytes) : Option Nat :=
  if 2 ≤ fieldAt b 0x2A 1 then some 0x2A
  else ([0x2B] ++ (List.range 16).map (· + 0x30)).find? (fun i => decide (fieldAt b i 1 ≠ 0))

/-- The offset of the first faulty byte of `n` entries. -/
def tFirstFaulty (b : Bytes) (n : Nat) : Option Nat :=
  (List.range n).findSome? (fun i => (tFaulty (tData b i)).map (· + 64 * i))

/-! ## Placement (R289) -/

/-- The target: the index after the last valid entry of at least this priority, with that entry's bucket. -/
def tTarget (t : TTable) (prio : Nat) : Nat × Nat :=
  match (((tValid t).filter (fun p => prio ≤ p.2.prio)).getLast?) with
  | some p => (p.1 + 1, p.1 / 256)
  | none => (0, 0)

/-- Lowest and highest free index of a span. -/
def tFreeUp (t : TTable) (lo hi : Nat) : Option Nat := ((List.range (hi - lo)).map (· + lo)).find? (fun i => (tEntryAt t i).isNone)
def tFreeDown (t : TTable) (lo hi : Nat) : Option Nat :=
  ((List.range (hi - lo)).map (fun k => hi - 1 - k)).find? (fun i => (tEntryAt t i).isNone)

/-- The free index that a spill out of a full bucket reaches: in the nearest bucket with one, the higher on a tie. -/
def tSpill (t : TTable) (b n : Nat) (up : Bool) : Option Nat :=
  match n with
  | 0 => none
  | k + 1 =>
    let dist := 256 - k
    let hi := if up && decide (b + dist < 256) then tFreeUp t (256 * (b + dist)) (256 * (b + dist) + 256) else none
    let lo := if dist ≤ b then tFreeDown t (256 * (b - dist)) (256 * (b - dist) + 256) else none
    match hi.or lo with
    | some i => some i
    | none => tSpill t b k up

/-- The free index that takes up an insertion at target `x`: at or above it within its bucket, then below it there, then
by spilling. Beyond the table only lower indices are looked at. -/
def tFreeFor (t : TTable) (x : Nat) : Option Nat :=
  let b := min (x / 256) 255
  let up := decide (x < 65536)
  let a := if up then tFreeUp t x (256 * b + 256) else none
  (a.or (tFreeDown t (256 * b) x)).or (tSpill t b 256 up)

/-- The changes that insert an entry: the moves from the free index towards the target, then the write (R293). -/
def tInsertion (t : TTable) (e : TEntry) : List TUpdate :=
  let (x, lastB) := tTarget t e.prio
  if x < 65536 ∧ tEntryAt t x = none ∧ x / 256 = lastB then [.write x e]
  else match tFreeFor t x with
    | none => []
    | some f =>
      if x ≤ f then (List.range (f - x)).map (fun k => TUpdate.move (f - 1 - k) (f - k)) ++ [.write x e]
      else (List.range (x - 1 - f)).map (fun k => TUpdate.move (f + 1 + k) (f + k)) ++ [.write (x - 1) e]

/-- Insertions one after another. -/
def tInsertions (t : TTable) (l : List TEntry) : List TUpdate :=
  match l with
  | [] => []
  | e :: r =>
    let u := tInsertion t e
    u ++ tInsertions (u.foldl tChange t) r

/-- Inserts into a list sorted by descending priority, after those of equal priority. -/
def insPrio (l : List TEntry) (e : TEntry) : List TEntry :=
  match l with
  | [] => [e]
  | x :: t => if x.prio < e.prio then e :: x :: t else x :: insPrio t e

/-- The spread placement of a batch in an empty unit. -/
def spread (l : List TEntry) : List TUpdate :=
  let n := l.length
  let bucket (j : Nat) : Nat := j * 256 / n
  ((l.foldl insPrio []).zipIdx).map (fun p =>
    .write (256 * bucket p.2 + ((List.range p.2).filter (fun i => bucket i = bucket p.2)).length) p.1)

/-! ## Table writes and reads (R109, R291, R292, R295) -/

/-- The first two checks of R292. -/
def tFieldsBad (unit first count mode : Nat) (bounded : Bool) : Bool :=
  decide (16 ≤ unit) || decide (4 ≤ mode) || (bounded && decide (65535 < first + count)) || decide (32768 < count + 1)

/-- Whether a unit is claimed by another function. -/
def TUnit.foreign (u : TUnit) (fix : Nat) : Bool := match u.fix with
  | some f => decide (f ≠ fix)
  | none => false

/-- Whether a unit is free for the next table write or read: they run one after another (R294). -/
def TUnit.idle (u : TUnit) : Bool := u.writer.isNone && !u.releasing

/-- TONGS_UNIT_CLAIM (R110). -/
def TUnit.claim (u : TUnit) (fix : Nat) : TUnit :=
  match u.fix with
  | some _ => u
  | none => { u with fix := some fix, sorted := true }

/-- Starts a table write whose checks have passed: its changes wait for their slots. -/
def Dev.startWrite (d : Dev) (ref : CmdRef) (unit : Nat) (l : List TUpdate) : Dev :=
  (d.modTu unit (fun u => { u.claim ref.fix with updates := l, writer := some ref, shift := 0, wrote := 0 })).modCmd ref
    (fun c => { c with started := true, job := .tongsWrite unit })

/-- The checks that MODE 0 and MODE 1 share, and what follows them; the command waits while the unit is busy. -/
def Dev.tongsWriteData (d : Dev) (ref : CmdRef) (unit first count mode len : Nat) (ptr : DataPtr) (data : Option Bytes)
    (k : Dev → TUnit → List Bytes → Dev) : Dev :=
  if tFieldsBad unit first count mode (decide (mode = 1)) then d.complete ref .invalidField
  else match ptrWalk ptr .toDevice, data with
    | some e, _ => d.complete ref e
    | none, none => d.complete ref .dataTransferError
    | none, some b =>
      match tFirstFaulty b (min (count + 1) (b.length / 64)) with
      | some o => d.complete ref .invalidField o
      | none =>
        if len ≠ 64 * (count + 1) || ptrLengthBad ptr len then d.complete ref .dataSglLength
        else if (d.tu unit).foreign ref.fix then d.complete ref .tongsUnitBusy
        else k d (d.tu unit) ((List.range (count + 1)).map (tData b))

/-- Whether a row on a unit has to wait for the write, read or release before it. -/
def Dev.tongsWaits (d : Dev) (ref : CmdRef) (unit : Nat) : Bool :=
  !(d.tu unit).idle && !(d.tu unit).foreign ref.fix && decide (unit < 16)

/-- TONGS_INSERT_BY_PRIORITY: MODE 0. DESIGN CHOICE (log 100): every entry sent is inserted as valid, whatever its FLAGS.VALID. -/
def execTongsInsertByPriority (ref : CmdRef) (unit count len : Nat) (ptr : DataPtr) (data : Option Bytes) (s : State) :
    Host.Outcome State Fault Refusal :=
  act s fun d =>
    if d.tongsWaits ref unit then d
    else d.io ref (fun d => d.tongsWriteData ref unit 0 count 0 len ptr data (fun d u l =>
      let used := (tValid u.table).length
      if 65536 < used + (count + 1) then d.complete ref .capacityExceeded
      else if u.sorted = false then d.complete ref .invalidField
      else
        let es := l.map tEntryOf
        d.startWrite ref unit (if used = 0 then spread es else tInsertions u.table es)))

/-- The change that MODE 1 makes at an index. -/
def writeAt (i : Nat) (b : Bytes) : TUpdate := if fieldAt b 0x2A 1 % 2 = 1 then .write i (tEntryOf b) else .free i

/-- TONGS_WRITE_AT: MODE 1. -/
def execTongsWriteAt (ref : CmdRef) (unit first count len : Nat) (ptr : DataPtr) (data : Option Bytes) (s : State) :
    Host.Outcome State Fault Refusal :=
  act s fun d =>
    if d.tongsWaits ref unit then d
    else d.io ref (fun d => d.tongsWriteData ref unit first count 1 len ptr data (fun d _ l =>
      d.startWrite ref unit (l.zipIdx.map (fun p => writeAt (first + p.2) p.1))))

/-- TONGS_DELETE: MODE 2. -/
def execTongsDelete (ref : CmdRef) (unit first count len : Nat) (s : State) : Host.Outcome State Fault Refusal :=
  act s fun d =>
    if d.tongsWaits ref unit then d
    else d.io ref (fun d =>
      if tFieldsBad unit first count 2 true then d.complete ref .invalidField
      else if len ≠ 0 then d.complete ref .dataSglLength
      else if (d.tu unit).foreign ref.fix then d.complete ref .tongsUnitBusy
      else d.startWrite ref unit ((List.range (count + 1)).map (fun i => .free (first + i))))

/-- TONGS_RELEASE_UNIT: MODE 3. From here on new searches find NO_UNIT; a free unit is claimed and released at once. -/
def execTongsReleaseUnit (ref : CmdRef) (unit count len : Nat) (s : State) : Host.Outcome State Fault Refusal :=
  act s fun d =>
    if d.tongsWaits ref unit then d
    else d.io ref (fun d =>
      if tFieldsBad unit 0 count 3 false then d.complete ref .invalidField
      else if len ≠ 0 then d.complete ref .dataSglLength
      else if (d.tu unit).foreign ref.fix then d.complete ref .tongsUnitBusy
      else if (d.tu unit).fix = none then d.complete ref .success
      else (d.modTu unit (fun u => { u with releasing := true })).modCmd ref (fun c => { c with
        started := true, job := .tongsRelease unit }))

/-- A unit as it is released or cleared: no entry, UPDATE_SEQ 0, no claim. Its counters stand. -/
def TUnit.cleared (u : TUnit) : TUnit :=
  { u with
    fix := none, sorted := true, releasing := false, table := [], updateSeq := 0, updates := [], writer := none
    shift := 0, wrote := 0 }

/-- TONGS_RELEASE_COMPLETE: no search of the unit is outstanding. -/
def execTongsReleaseComplete (unit : Nat) (s : State) : Host.Outcome State Fault Refusal :=
  act s fun d =>
    let u := d.tu unit
    if u.releasing ∧ u.searches = [] then
      let d := d.modTu unit TUnit.cleared
      match d.nvm.cmds.find? (fun c => c.job = .tongsRelease unit) with
      | some c => d.complete c.ref .success
      | none => d
    else d

/-- TONGS_TABLE_READ: no write of the unit runs beside it, so that the two values of UPDATE_SEQ agree. -/
def execTongsTableRead (ref : CmdRef) (unit first count len : Nat) (ptr : DataPtr) (s : State) :
    Host.Outcome State Fault Refusal :=
  act s fun d =>
    if d.tongsWaits ref unit then d
    else d.io ref (fun d =>
      let u := d.tu unit
      if tFieldsBad unit first count 0 true then d.complete ref .invalidField
      else match ptrWalk ptr .toHost with
        | some e => d.complete ref e
        | none =>
          if len ≠ 64 * (count + 1) || ptrLengthBad ptr len then d.complete ref .dataSglLength
          else if u.foreign ref.fix then d.complete ref .tongsUnitBusy
          else
            let b := ((List.range (count + 1)).map (fun i => tEntryBytes (tEntryAt u.table (first + i)))).flatten
            let seq := u.updateSeq % 2 ^ 32
            (d.emit (.toHost ref 0 b)).complete ref .success seq seq)

/-! ## Slots (R293, R294) -/

/-- Whether a mode-1 stepping holds the updates. -/
def TUnit.stepping (u : TUnit) : Bool := match u.searches with
  | s :: _ => s.stepping && s.begun
  | [] => false

/-- Whether a search may take the next slot: while updates wait too, slots alternate. -/
def TUnit.searchTurn (u : TUnit) : Bool := u.updates.isEmpty || !u.lastWasSearch || u.stepping

/-- Whether an update may take the next slot. -/
def TUnit.updateTurn (u : TUnit) : Bool := !u.stepping && (u.searches.isEmpty || u.lastWasSearch)

/-- TONGS_ENTRY_UPDATE: one change in one slot; the last one of a write completes it. -/
def execTongsEntryUpdate (unit : Nat) (s : State) : Host.Outcome State Fault Refusal :=
  act s fun d =>
    let u := d.tu unit
    match u.updates with
    | [] => d
    | x :: rest =>
      if u.updateTurn = false then d
      else
        let isMove : Bool := match x with
          | .move _ _ => true
          | _ => false
        let table := tChange u.table x
        let d := d.modTu unit (fun u => { u with
          table := table, updates := rest, updateSeq := u.updateSeq + 1, nUpdate := u.nUpdate + 1
          nMove := if isMove then u.nMove + 1 else u.nMove
          maxShift := if isMove then u.maxShift else max u.maxShift (min u.shift 65535)
          shift := if isMove then u.shift + 1 else 0
          wrote := if isMove then u.wrote else u.wrote + 1
          sorted := if rest.isEmpty then tSorted table else u.sorted
          lastWasSearch := false, writer := if rest.isEmpty then none else u.writer })
        match rest, u.writer with
        | [], some r => d.complete r .success
        | _, _ => d

/-! ## Searches (R284 to R287, R296) -/

/-- Whether an entry matches a key (R284). -/
def TEntry.hits (e : TEntry) (key : BitVec 160) : Bool := decide ((key ^^^ e.value) &&& e.mask = 0)

/-- The matches of a key in ascending index. -/
def tHits (t : TTable) (key : BitVec 160) : List (Nat × TEntry) := (tValid t).filter (fun p => p.2.hits key)

/-- Inserts a match by descending priority, then ascending index. -/
def insMatch (l : List (Nat × TEntry)) (e : Nat × TEntry) : List (Nat × TEntry) :=
  match l with
  | [] => [e]
  | x :: t =>
    if x.2.prio < e.2.prio ∨ (x.2.prio = e.2.prio ∧ e.1 < x.1) then e :: x :: t else x :: insMatch t e

/-- The matches in the order of R285 and R287: descending priority, ascending index. -/
def tRanked (t : TTable) (key : BitVec 160) : List (Nat × TEntry) := (tHits t key).foldl insMatch []

/-- The result record of R286. -/
def tRecord (m : Option (Nat × TEntry)) (total seq : Nat) (truncated : Bool) : Bytes :=
  match m with
  | some (i, e) => fields [(4, i), (2, e.prio), (2, 1 + 2 * b2n (decide (1 < total)) + 4 * b2n truncated), (4, e.tag),
      (2, min total 0xFFFF), (2, seq % 65536)]
  | none => fields [(4, 0), (2, 0), (2, 0), (4, 0), (2, 0), (2, seq % 65536)]

/-- An entry found with a parity error is rewritten from the shadow: TONGS_PARITY_REPAIR. -/
def Dev.tongsRepair (d : Dev) (unit entry : Nat) : Dev :=
  (d.modTu unit (fun u => { u with parity := satAdd 32 u.parity 1 })).log 0x010B (uid 10 unit)
    (fields [(1, unit), (2, entry)])

/-- The front search of a unit is finished: its unit of pool 24 goes back and its result stands. -/
def Dev.searchOver (d : Dev) (unit : Nat) : Dev :=
  match (d.tu unit).searches with
  | [] => d
  | s :: t => ((d.modTu unit (fun u => { u with searches := t })).giveBack 24 0 1).opOver s.wb s.ticket 0 s.matched

/-- Changes the front search. -/
def TUnit.modFront (u : TUnit) (f : TSearch → TSearch) : TUnit :=
  { u with searches := match u.searches with
      | s :: t => f s :: t
      | [] => [] }

/-- TONGS_SEARCH: one slot of a mode-0 search, and its record. `bad` says that the entry reported fails its parity check:
it is repaired, and the search runs again in the next slot. -/
def execTongsSearch (unit : Nat) (bad : Bool) (s : State) : Host.Outcome State Fault Refusal :=
  act s fun d =>
    let u := d.tu unit
    match u.searches with
    | [] => d
    | q :: _ =>
      match q.keys with
      | [] => d
      | key :: rest =>
        if q.stepping ∨ u.searchTurn = false then d
        else
          let ranked := tRanked u.table key
          let total := ranked.length
          let d := d.modTu unit (fun u => { u with nSearch := u.nSearch + 1, lastWasSearch := !u.updates.isEmpty })
          match bad, ranked with
          | true, (i, _) :: _ => d.tongsRepair unit i
          | _, _ =>
            let d := d.modTu unit (fun u => ({ u with
              multi := if 1 < total then satAdd 32 u.multi 1 else u.multi }).modFront (fun q => { q with
                keys := rest, dest := q.dest + 16, matched := q.matched + (if total = 0 then 0 else 1) }))
            let d := d.putInst q.wb q.dest (tRecord ranked.head? total u.updateSeq false)
            if rest.isEmpty then d.searchOver unit else d

/-- TONGS_STEP: one slot of a mode-1 stepping. The match set is taken at its first slot. -/
def execTongsStep (unit : Nat) (bad : Bool) (s : State) : Host.Outcome State Fault Refusal :=
  act s fun d =>
    let u := d.tu unit
    match u.searches with
    | [] => d
    | q :: _ =>
      if q.stepping = false ∨ u.searchTurn = false then d
      else
        let d := d.modTu unit (fun u => { u with nSearch := u.nSearch + 1, lastWasSearch := !u.updates.isEmpty })
        let set := if q.begun then q.set else match q.keys with
          | k :: _ => (tRanked u.table k).map (·.1)
          | [] => []
        let total := if q.begun then q.total else set.length
        let seq := if q.begun then q.seq0 else u.updateSeq
        let d := d.modTu unit (fun u => ({ u with
          multi := if !q.begun && decide (1 < total) then satAdd 32 u.multi 1 else u.multi }).modFront (fun q => { q with
            begun := true, set := set, total := total, seq0 := seq }))
        match set with
        | [] => d.searchOver unit
        | i :: rest =>
          if bad then d.tongsRepair unit i
          else
            let done := decide (q.matched + 1 = q.limit) || rest.isEmpty
            let cut := decide (q.matched + 1 = q.limit) && !rest.isEmpty
            let d := d.modTu unit (fun u => u.modFront (fun q => { q with
              set := rest, matched := q.matched + 1, dest := q.dest + 16 }))
            let d := d.putInst q.wb q.dest (tRecord ((tEntryAt u.table i).map (fun e => (i, e))) total seq cut)
            if done then d.searchOver unit else d

/-- TONGS_SCRUB: the next entry in index order; one with a parity error is repaired. -/
def execTongsScrub (unit : Nat) (bad : Bool) (s : State) : Host.Outcome State Fault Refusal :=
  act s fun d =>
    if 16 ≤ unit ∨ d.domOn .control = false then d
    else
      let i := (d.tu unit).scrub
      let d := d.modTu unit (fun u => { u with scrub := (i + 1) % 65536 })
      let d := if i + 1 = 65536 then { d with tng := { d.tng with scrubPasses := satAdd 32 d.tng.scrubPasses 1 } } else d
      if bad then d.tongsRepair unit i else d

end Sys2Proof.Machine
end

