-- ==== Sys2Proof/Machine/Namespaces.lean ====
section
/-! DEFINITION. Namespace Management and Attachment (R73, R476), Format NVM (R92, R188) and Sanitize (R91, R188, R334). -/

namespace Sys2Proof.Machine

/-- Runs a PF's admin command that changes namespaces: not before the device is NVMe ready, nor while a Sanitize runs. -/
def Dev.nsAdmin (d : Dev) (ref : CmdRef) (f : Dev → Dev) : Dev :=
  d.pfAdmin ref fun d =>
    if d.nvm.ready = false then d.complete ref .nsNotReady
    else if d.nvm.sanitize ≠ 0 then d.complete ref .sanitizeInProgress
    else f d

/-! ## Create and delete -/

/-- Whether a run of root entries is free. -/
def runFree (used : List (Nat × Nat)) (first count : Nat) : Bool :=
  decide (first + count ≤ 65536) && used.all (fun u => decide (first + count ≤ u.1 ∨ u.1 + u.2 ≤ first))

/-- The lowest free run of `count` root entries. -/
def lowestRun (used : List (Nat × Nat)) (count : Nat) : Option Nat :=
  let starts := (0 :: used.map (fun u => u.1 + u.2)).filter (fun x => runFree used x count)
  match starts with
  | [] => none
  | x :: t => some (t.foldl min x)

/-- The lowest free NSID. -/
def Dev.freeNsid (d : Dev) : Option Nat := ((List.range 1024).map (· + 1)).find? (fun n => (d.ns n).isNone)

/-- A new media key of a namespace: drawn, given a serial, kept in the vault; copies of the old one go (R334). -/
def Dev.newMediaKey (d : Dev) (nsid : Nat) : Dev :=
  let old := match d.ns nsid with
    | some n => n.mediaKey
    | none => 0
  let (key, d) := d.genKey 1 64 64
  let serial := d.key.serials + 1
  let d : Dev := { d with key := { d.key with serials := serial } }
  ((d.vaultWrite.flushLaneKeys old).modNs nsid (fun n => { n with mediaKey := serial, key := key }))

/-- NAMESPACE_CREATE: the fields of the create data; `sent` says whether their transfer succeeded. -/
def execNamespaceCreate (ref : CmdRef) (nsze ncap lbaf : Nat) (extended kpio shared sent : Bool) (s : State) :
    Host.Outcome State Fault Refusal :=
  act s fun d => d.nsAdmin ref fun d =>
    let granules := ceilDiv nsze (lbasPer lbaf)
    let count := ceilDiv granules (2 ^ 20)
    if !sent then d.complete ref .dataTransferError
    else if 5 < lbaf then d.complete ref .invalidFormat
    else if nsze = 0 ∨ nsze < ncap then d.complete ref .invalidField
    else if d.nvm.noSuperblock then d.complete ref .nsNotReady
    else match d.canIssue 29 0 1, d.freeNsid, lowestRun d.map.rootUsed count with
      | true, some nsid, some first =>
        if d.key.locked then d.complete ref .nsNotReady
        else
          let n : Ns := { lbaf := lbaf, extended := extended, kpio := kpio, granules := granules, rootFirst := first,
                          rootCount := count, nsze := nsze, shared := shared }
          let d := (d.issue 29 0 1).modPool 30 (fun q => { q with capacity := q.capacity + granules })
          let d : Dev := { d with map := { d.map with rootUsed := d.map.rootUsed ++ [(first, count)] } }
          let d := (d.setNs nsid (some n)).newMediaKey nsid
          ((d.hostRead ref.fix 4096).modCmd ref (fun c => { c with job := .nsCreate nsid, waits := 1, dw0 := nsid })).record 6 nsid 0 lbaf granules
            (some ref)
      | true, some _, none => d.complete ref .nsInsufficientCapacity
      | _, _, _ => d.complete ref .nsIdUnavailable

/-- A namespace's deletion begins: it is no longer available, and action 2 is issued (R476, R188). -/
def Dev.beginDelete (d : Dev) (nsid : Nat) : Dev :=
  match d.ns nsid with
  | none => d
  | some n =>
    (((d.nsChanged nsid).modNs nsid (fun n => { n with ready := false, deleting := true, attached := [] }))).record 6 nsid 2
      n.lbaf n.granules

/-- Namespaces available. -/
def Dev.nsReady (d : Dev) : List Nat := (d.nvm.nss.filter (fun p => match p.2 with
  | some n => n.ready
  | none => false)).map (·.1)

/-- The namespaces that an NSID names: all with 0xFFFFFFFF. -/
def Dev.nsNamed (d : Dev) (nsid : Nat) : List Nat := if nsid = 0xFFFFFFFF then d.nsReady else d.nsReady.filter (· = nsid)

/-- Whether a format of one of some namespaces runs. -/
def Dev.formatting (d : Dev) (l : List Nat) : Bool := l.any (fun i => match d.ns i with
  | some n => n.formatPending
  | none => false)

/-- NAMESPACE_DELETE. -/
def execNamespaceDelete (ref : CmdRef) (nsid : Nat) (s : State) : Host.Outcome State Fault Refusal :=
  act s fun d => d.nsAdmin ref fun d =>
    let l := d.nsNamed nsid
    if l.isEmpty then d.complete ref (if nsid = 0xFFFFFFFF then .success else .invalidNsid)
    else if d.formatting l then d.complete ref .nsNotReady
    else
      let d := d.modCmd ref (fun c => { c with job := .nsDelete nsid, waits := l.length, started := true })
      d.forEach l (fun d i => d.beginDelete i)

/-! ## Attachment -/

/-- A controller list that the command cannot use: empty, or with a controller that does not exist. -/
def Dev.ctrlListBad (d : Dev) (l : List Nat) : Bool := l.isEmpty || l.any (fun f => !d.fnExists f)

/-- NAMESPACE_ATTACH: the controller list; none: its transfer failed. -/
def execNamespaceAttach (ref : CmdRef) (nsid : Nat) (ctrls : Option (List Nat)) (s : State) :
    Host.Outcome State Fault Refusal :=
  act s fun d => d.nsAdmin ref fun d =>
    match ctrls, (d.ns nsid).filter (·.ready) with
    | none, _ => d.complete ref .dataTransferError
    | some _, none => d.complete ref .invalidNsid
    | some l, some n =>
      if d.ctrlListBad l then d.complete ref .ctrlListInvalid
      else if l.any (fun f => decide (f ∈ n.attached)) then d.complete ref .nsAlreadyAttached
      else if !n.shared && (!n.attached.isEmpty || decide (1 < l.length)) then d.complete ref .nsIsPrivate
      else if d.nvm.noSuperblock then d.complete ref .nsNotReady
      else (((d.hostRead ref.fix 4096).modNs nsid (fun n => { n with attached := l.foldl setIns n.attached })).noticeTo nsid
        l).complete ref .success

/-- NAMESPACE_DETACH. -/
def execNamespaceDetach (ref : CmdRef) (nsid : Nat) (ctrls : Option (List Nat)) (s : State) :
    Host.Outcome State Fault Refusal :=
  act s fun d => d.nsAdmin ref fun d =>
    match ctrls, (d.ns nsid).filter (·.ready) with
    | none, _ => d.complete ref .dataTransferError
    | some _, none => d.complete ref .invalidNsid
    | some l, some n =>
      if d.ctrlListBad l then d.complete ref .ctrlListInvalid
      else if l.any (fun f => decide (f ∉ n.attached)) then d.complete ref .nsNotAttached
      else (((d.hostRead ref.fix 4096).modNs nsid (fun n =>
        { n with attached := n.attached.filter (fun f => decide (f ∉ l)) })).noticeTo nsid l).complete ref .success

/-! ## Format NVM -/

/-- A namespace in its new format: FORMAT_PENDING, and NSZE by its size in bytes (R476). -/
def Ns.formatted (n : Ns) (lbaf : Nat) (extended : Bool) : Ns :=
  { n with
    lbaf := lbaf, extended := extended, formatPending := true
    nsze := ceilDiv (n.nsze * lbaSize n.lbaf) (lbaSize lbaf) }

/-- What Secure Erase Setting 2 adds: a new media key, and no key tag bound any more. -/
def Dev.eraseKeys (d : Dev) (nsid : Nat) : Dev :=
  let bound := d.key.bindings.any (fun b => b.1 = nsid)
  let d := d.newMediaKey nsid
  let d : Dev := { d with key := { d.key with bindings := d.key.bindings.filter (fun b => b.1 ≠ nsid) } }
  if bound then d.vaultWrite else d

/-- A running Device Self-test ends at a command that does not let it go on (log 38). -/
def Dev.abortSelfTest (d : Dev) (result : Nat) : Dev := if d.nvm.selfTest.running = 0 then d else d.endSelfTest result

/-- FORMAT_NVM: one namespace, or all with 0xFFFFFFFF. -/
def execFormatNvm (ref : CmdRef) (nsid lbaf ses : Nat) (extended : Bool) (pi : Nat) (s : State) :
    Host.Outcome State Fault Refusal :=
  act s fun d => d.nsAdmin ref fun d =>
    let l := d.nsNamed nsid
    let h := d.hostOf ref.fix
    if nsid ≠ 0xFFFFFFFF ∧ l.isEmpty then d.complete ref .invalidNsid
    else if 5 < lbaf then d.complete ref .invalidFormat
    else if 2 < ses ∨ pi ≠ 0 then d.complete ref .invalidField
    else if d.formatting l then d.complete ref .nsNotReady
    else if l.any (fun i => match d.ns i with
        | some n => !n.resv.mayWrite h
        | none => false) then d.complete ref .reservationConflict
    else if ses = 2 && d.key.locked then d.complete ref .nsNotReady
    else
      let d := d.abortSelfTest 4
      let d := d.forEach l (fun d i =>
        let d := (d.modNs i (fun n => n.formatted lbaf extended)).nsChanged i
        if ses = 2 then d.eraseKeys i else d)
      let job : Job := if nsid = 0xFFFFFFFF then .formatAll else .format nsid
      let d := d.modCmd ref (fun c => { c with job := job, waits := 1, started := true })
      if nsid = 0xFFFFFFFF then d.record 9 0 0 0 0 (some ref)
      else match d.ns nsid with
        | some n => d.record 6 nsid 2 n.lbaf n.granules
        | none => d

/-- FORMAT_CLEAR_COMPLETE: action 3 of a namespace, being the oldest record in flight, becomes durable; the command
completes. -/
def execFormatClearComplete (nsid : Nat) (s : State) : Host.Outcome State Fault Refusal :=
  act s fun d =>
    match d.jrn.ring.find? (fun r => !r.durable) with
    | some r => if r.ty = 6 ∧ r.b = 3 ∧ r.a = nsid then d.recordDurable else d
    | none => d

/-! ## Sanitize -/

/-- Whether a command runs a Waybill. -/
def Cmd.computes (c : Cmd) : Bool :=
  match c.job with
  | .compute _ => true
  | _ => false

/-- Step 1 of R91: commands started before the Sanitize that are still to end, Waybills apart. -/
def Dev.startedLeft (d : Dev) : Bool := d.nvm.cmds.any (fun c => decide (c.ref.qid ≠ 0) && c.begun && !c.computes)

/-- The slots bound to a key tag are zeroised, their units of pool 28 returned, and every binding goes (R91, R333). -/
def Dev.zeroiseBound (d : Dev) : Dev :=
  let l := (d.key.bindings.map (fun b => b.2.2)).eraseDups
  let d := d.forEach l (fun d n =>
    let k := d.kslot n
    let d := d.flushLaneKeys k.serial
    let d : Dev := { d with key := { d.key with slots := d.key.slots.filter (fun p => p.1 ≠ n) } }
    (d.giveBack 28 k.fix 1).vaultWrite)
  { d with key := { d.key with bindings := [] } }

/-- Blocks that a Block Erase erases beside those that hold data: FREE and spare ones of the dies in service. -/
def Dev.eraseIdle (d : Dev) : Dev :=
  d.forEach d.aliveDies (fun d n => d.forEach (List.range (d.die n).geo.blocks) (fun d b =>
    if (d.blk n b).state = 0 then d.modBlk n b (fun k => { k with pe := min 262143 (k.pe + 1) }) else d))

/-- Step 3 of R91: the erase begins; media keys are replaced, bound slots zeroised, Tongs units and scratch cleared, and
the global clear recorded between the SANITIZE records of actions 0 and 1 (R188). -/
def Dev.beginErase (d : Dev) : Dev :=
  let nss := (d.nvm.nss.filter (fun p => p.2.isSome)).map (·.1)
  let d := (d.forEach nss (fun d i => d.newMediaKey i)).zeroiseBound
  let units : FMap TUnit := d.tng.units.map (fun p => (p.1, p.2.cleared))
  let d : Dev := { d with tng := { d.tng with units := units }, nvm := { d.nvm with sanPhase := 2 } }
  let d := if d.nvm.sanitize = 2 then d.eraseIdle else d
  (d.record 9 1 0 0 0).record 8 1 0 0 0

/-- The order of R91: with the started commands complete, instances are terminated; with those gone, the erase begins, and the
command completes. -/
def Dev.trySanitize (d : Dev) (ref : CmdRef) : Dev :=
  if d.startedLeft then d
  else
    let d := d.forEach d.hrt.wbs (fun d w => d.sanitizeWaybill w)
    if d.hrt.wbs.isEmpty then d.beginErase.complete ref .success else d

/-- A Sanitize that has started and whose command a function reset has removed: it goes on without a completion (R66). -/
def Dev.sanitizeOrphan (d : Dev) (kind : Nat) : Bool :=
  decide (d.nvm.sanitize = kind ∧ d.nvm.sanPhase = 1) && !d.nvm.cmds.any (fun c => c.job = .sanitize)

/-- A Sanitize (R91): `kind` 1 Crypto Erase, 2 Block Erase. A command that waits for started ones is run again. -/
def Dev.sanitizeCmd (d : Dev) (ref : CmdRef) (kind : Nat) : Dev :=
  match d.cmd ref with
  | none => if d.sanitizeOrphan kind then d.trySanitize ref else d
  | some c =>
    if c.job = .sanitize then (if d.nvm.sanitize = kind then d.trySanitize ref else d)
    else d.nsAdmin ref fun d =>
      if d.key.locked then d.complete ref .nsNotReady
      else
        let d := d.abortSelfTest 4
        let d : Dev := { d with nvm := { d.nvm with
          sanitize := kind, sanStatus := 2, sanPhase := 1, sanAction := if kind = 1 then 4 else 2 } }
        let d := (d.record 8 0 0 0 0).modCmd ref (fun c => { c with job := .sanitize, started := true })
        d.trySanitize ref

/-- SANITIZE_CRYPTO_ERASE. -/
def execSanitizeCryptoErase (ref : CmdRef) (s : State) : Host.Outcome State Fault Refusal :=
  act s fun d => d.sanitizeCmd ref 1

/-- SANITIZE_BLOCK_ERASE. -/
def execSanitizeBlockErase (ref : CmdRef) (s : State) : Host.Outcome State Fault Refusal :=
  act s fun d => d.sanitizeCmd ref 2

/-- SANITIZE_OVERWRITE. -/
def execSanitizeOverwrite (ref : CmdRef) (s : State) : Host.Outcome State Fault Refusal :=
  act s fun d => d.pfAdmin ref (fun d => d.complete ref .invalidField)

/-- Whether the erase is done: its records are durable, and a Block Erase has no block left to erase on dies in service. -/
def Dev.sanitizeDone (d : Dev) : Bool :=
  !d.jrn.pends (fun r => decide (r.ty = 8 ∨ r.ty = 9)) && (decide (d.nvm.sanitize ≠ 2) ||
    !d.map.blocks.any (fun p => decide (p.2.state = 3 ∧ p.1 / 8160 ∈ d.aliveDies)))

/-- SANITIZE_COMPLETE: the map key is replaced (R334), action 2 recorded, and the event of NVMe 2.1 posted (log 38). -/
def execSanitizeComplete (s : State) : Host.Outcome State Fault Refusal :=
  act s fun d =>
    if d.nvm.sanitize ≠ 0 ∧ d.nvm.sanPhase = 2 ∧ d.sanitizeDone then
      let d := (d.newIkey 0).record 8 2 0 0 0
      let d : Dev := { d with nvm := { d.nvm with sanitize := 0, sanPhase := 0, sanStatus := 1 } }
      d.forEach d.pfs (fun d f => d.postAen f 6 1 0x81)
    else d

end Sys2Proof.Machine
end

