-- ==== Sys2Proof/Machine/Nolob.lean ====
section
/-! DEFINITION. Nolob images: header, signature, load-time verification and operator graphs (R233 to R237, R264, R280,
R281, R359, R360), load and unload (R98, R99). -/

namespace Sys2Proof.Machine

/-! ## Encodings (R264) -/

/-- What an opcode uses. Kinds of register fields: 0 none, 1 x, 2 v, 3 p, 4 x unless IMM, 5 v unless IMM, 6 x where IDX,
7 x unless FIXED. Immediates: 0 zero, 1 any, 2 where IMM, 3 EXT, 4 a lane, 5 VALIGN, 6 a service. -/
structure EncRow where
  /-- kind of dst -/
  dst : Nat
  /-- kind of srcA -/
  a : Nat
  /-- kind of srcB -/
  b : Nat
  /-- rule of the immediate -/
  imm : Nat
  /-- modifier bits used -/
  mods : Nat
  /-- ESZ must be 2 or 3 -/
  wide : Bool := false

/-- The class tables of the instruction set, by opcode. -/
def encRow (op : Nat) : Option EncRow :=
  if op = 0x00 then some ⟨0, 0, 0, 0, 0, false⟩
  else if op ≤ 0x18 then some ⟨1, 1, 4, 2, 0x004, false⟩
  else if op ≤ 0x1C then some ⟨1, 1, 0, 0, 0, false⟩
  else if op = 0x1D then some ⟨1, 1, 0, 3, 0x001, false⟩
  else if op ≤ 0x1F then some ⟨1, 0, 0, 1, 0, false⟩
  else if op = 0x20 then some ⟨0, 0, 0, 1, 0, false⟩
  else if op ≤ 0x26 then some ⟨0, 1, 1, 1, 0, false⟩
  else if op ≤ 0x28 then some ⟨0, 3, 0, 1, 0, false⟩
  else if op = 0x30 then some ⟨1, 1, 6, 1, 0x01D, false⟩
  else if op = 0x31 then some ⟨1, 1, 6, 1, 0x01C, false⟩
  else if op = 0x40 ∨ op = 0x44 then some ⟨2, 1, 6, 1, 0x1FE, false⟩
  else if op = 0x41 then some ⟨2, 1, 6, 1, 0x1FC, false⟩
  else if op = 0x42 then some ⟨2, 1, 2, 1, 0x1FA, true⟩
  else if op = 0x43 then some ⟨2, 1, 2, 1, 0x1F8, true⟩
  else if 0x50 ≤ op ∧ op ≤ 0x5D then some ⟨2, 2, 5, 2, 0x1FE, false⟩
  else if op = 0x60 then some ⟨2, 1, 0, 0, 0x1FA, false⟩
  else if op = 0x61 then some ⟨1, 2, 0, 4, 0x019, false⟩
  else if op = 0x62 then some ⟨2, 1, 0, 4, 0x018, false⟩
  else if op = 0x63 then some ⟨2, 2, 2, 0, 0, false⟩
  else if op = 0x64 then some ⟨2, 2, 2, 5, 0, false⟩
  else if 0x65 ≤ op ∧ op ≤ 0x67 then some ⟨1, 2, 0, 0, 0x1F9, false⟩
  else if op = 0x68 then some ⟨2, 2, 0, 0, 0x1F8, false⟩
  else if 0x69 ≤ op ∧ op ≤ 0x6E then some ⟨3, 2, 5, 2, 0x1FC, false⟩
  else if op = 0x6F then some ⟨2, 5, 0, 2, 0x1FE, false⟩
  else if 0x70 ≤ op ∧ op ≤ 0x73 then some ⟨3, 3, 3, 0, 0, false⟩
  else if op = 0x74 ∨ op = 0x78 then some ⟨3, 1, 0, 0, 0x018, false⟩
  else if 0x75 ≤ op ∧ op ≤ 0x77 then some ⟨1, 3, 0, 0, 0x018, false⟩
  else if op = 0x80 then some ⟨1, 7, 0, 1, 0x001, false⟩
  else if op = 0x81 ∨ op = 0x82 ∨ op = 0x85 then some ⟨0, 0, 0, 0, 0, false⟩
  else if op = 0x83 then some ⟨0, 1, 0, 0, 0, false⟩
  else if op = 0x84 then some ⟨0, 0, 0, 1, 0, false⟩
  else if op = 0x86 then some ⟨0, 0, 0, 6, 0, false⟩
  else if 0x90 ≤ op ∧ op ≤ 0x97 then some ⟨1, 1, 1, 1, 0x018, true⟩
  else if op = 0x98 then some ⟨2, 1, 2, 1, 0x1F8, true⟩
  else none

/-- Whether a register field conforms to its kind. -/
def regOk (f : Fw) (kind n : Nat) : Bool :=
  match kind with
  | 0 => decide (n = 0)
  | 1 => decide (n < 32)
  | 2 => decide (n < 16)
  | 3 => decide (n < 8)
  | 4 => decide (n < 32) && (!f.idx || decide (n = 0))
  | 5 => decide (n < 16) && (!f.idx || decide (n = 0))
  | 6 => f.idx || decide (n = 0)
  | _ => !f.sg || decide (n = 0)

/-- Whether the immediate conforms to its rule. -/
def immOk (f : Fw) (rule : Nat) : Bool :=
  match rule with
  | 0 => decide (f.imm = 0)
  | 1 => true
  | 2 => f.idx || decide (f.imm = 0)
  | 3 => decide (bitsOf f.imm 6 2 = 0 ∧ f.imm < 2 ^ 15 ∧ 1 ≤ bitsOf f.imm 8 7 ∧ bitsOf f.imm 8 7 ≤ 64)
  | 4 => decide (f.imm < laneCount f.esz)
  | 5 => decide (f.imm ≤ 64)
  | _ => decide (f.imm ≤ 9)

/-- The nine modifier bits. -/
def Fw.modifier (f : Fw) : Nat :=
  b2n f.sg + 2 * b2n f.zero + 4 * b2n f.idx + 8 * f.esz + 32 * f.pn + 256 * b2n f.pg

/-- The constraint "Encoding" of R281, with R264. -/
def Fw.encodingOk (f : Fw) : Bool :=
  match encRow f.op with
  | none => false
  | some r =>
    decide (f.modifier &&& (511 - r.mods) = 0) && (f.pg || decide (f.pn = 0)) && (!r.wide || decide (2 ≤ f.esz)) &&
      regOk f r.dst f.dst && regOk f r.a f.a && regOk f r.b f.b && immOk f r.imm

/-! ## Structure of the code (R280, R281) -/

/-- An instruction with its number, the start of its function and the loops open around it, innermost first. -/
structure CodeAt where
  /-- instruction number -/
  i : Nat
  /-- fields -/
  f : Fw
  /-- number of the function's first instruction -/
  fn : Nat
  /-- LOOPs open at it -/
  loops : List Nat

/-- Walks the code once. -/
def walkCode (starts : List Nat) (l : List Fw) (i fn : Nat) (loops : List Nat) : List CodeAt :=
  match l with
  | [] => []
  | f :: t =>
    let fn := if i ∈ starts then i else fn
    let loops := if i ∈ starts then [] else loops
    let after := if f.op = 0x80 then i :: loops else if f.op = 0x81 then loops.drop 1 else loops
    ⟨i, f, fn, loops⟩ :: walkCode starts t (i + 1) fn after

/-- Words of a code section. -/
def codeWords (code : Bytes) : List Fw := (List.range (code.length / 8)).map (fun i => Fw.decode (fieldAt code (8 * i) 8))

/-- A valid CALL target: instruction number. -/
def callTarget (n : Nat) (f : Fw) : Option Nat :=
  if f.op = 0x84 ∧ f.imm % 8 = 0 ∧ f.imm / 8 < n ∧ f.imm ≠ 0 then some (f.imm / 8) else none

/-- Functions that `f` reaches by calls, within `fuel` rounds. -/
def callReach (calls : List (Nat × Nat)) (fuel : Nat) (l : List Nat) : List Nat :=
  match fuel with
  | 0 => l
  | k + 1 => callReach calls k ((calls.filter (fun c => decide (c.1 ∈ l))).foldl (fun l c => setIns l c.2) l)

/-- Depth of the longest chain of calls from the roots to a function, counted up to `fuel`. -/
def callDepth (calls : List (Nat × Nat)) (roots : List Nat) (fuel fn : Nat) : Nat :=
  match fuel with
  | 0 => 0
  | k + 1 => (calls.filter (fun c => c.2 = fn)).foldl (fun m c => max m (callDepth calls roots k c.1 + 1)) 0

/-- Loops needed from a function on: its deepest nesting, or those open at a CALL and what the callee needs. -/
def loopNeed (w : List CodeAt) (n fuel fn : Nat) : Nat :=
  match fuel with
  | 0 => 0
  | k + 1 => (w.filter (fun c => c.fn = fn)).foldl (fun m c =>
      max m (if c.f.op = 0x80 then c.loops.length + 1
        else match callTarget n c.f with
          | some g => c.loops.length + loopNeed w n k g
          | none => 0)) 0

/-- Whether an instruction meets every constraint of R281. ENTRY is 0: the lowest function start, with every instruction
in a function. -/
def codeOk (w : List CodeAt) (nodes : List Nat) (c : CodeAt) : Bool :=
  let n := w.length
  let at' (i : Nat) : Option CodeAt := w[i]?
  let calls := w.filterMap (fun c => (callTarget n c.f).map (fun g => (c.fn, g)))
  let roots := 0 :: nodes
  let op := c.f.op
  let last := match at' (c.i + 1) with
    | some x => decide (x.fn ≠ c.fn)
    | none => true
  let branchOk := !decide (0x20 ≤ op ∧ op ≤ 0x28) || match at' (c.i + c.f.imm) with
    | some x => decide (1 ≤ c.f.imm ∧ x.fn = c.fn ∧ x.loops.head? = c.loops.head?)
    | none => false
  let closed := w.any (fun x => decide (x.fn = c.fn ∧ x.f.op = 0x81 ∧ x.loops.head? = some c.i))
  let loopOk :=
    (!decide (op = 0x80) || closed && decide (c.loops.length < 16)) &&
    (!decide (op = 0x81 ∨ op = 0x82 ∨ op = 0x83) || !c.loops.isEmpty) &&
    (!decide (op = 0x85) || c.loops.isEmpty && decide (c.fn ≠ 0))
  let callOk := !decide (op = 0x84) || match callTarget n c.f with
    | none => false
    | some g =>
      decide (c.fn ∉ callReach calls w.length [g]) &&
        (!decide (c.fn ∈ callReach calls w.length roots) || decide (callDepth calls roots 18 c.fn < 16)) &&
        decide (c.loops.length + loopNeed w n 18 g ≤ 16)
  let isExit := decide (op = 0x86 ∧ c.f.imm = 9)
  let endOk := !last || isExit || decide (op = 0x85 ∧ c.fn ≠ 0)
  c.f.encodingOk && branchOk && loopOk && callOk && endOk

/-- Step 5 of R235: the code offset of the first instruction that breaks a constraint. `nodes` are the CODE_OFF values of
an operator graph. -/
def verifyCode (code : Bytes) (entry : Nat) (nodes : List Nat) : Option Nat :=
  if entry ≠ 0 then some 0
  else
    let l := codeWords code
    let heads := (nodes.filter (fun o => decide (o % 8 = 0 ∧ o < code.length))).map (· / 8)
    let starts := 0 :: heads ++ l.filterMap (callTarget l.length)
    let w := walkCode starts l 0 0 []
    (w.find? (fun c => !codeOk w heads c)).map (fun c => 8 * c.i)

/-! ## Operator graphs (R359, R360) -/

/-- The node and edge records of a graph. -/
def graphNodes (g : Bytes) : List Node :=
  (List.range (fieldAt g 4 2)).map (fun k =>
    { code := fieldAt g (0x10 + 8 * k) 4, inputs := fieldAt g (0x14 + 8 * k) 1, outputs := fieldAt g (0x15 + 8 * k) 1 })

def graphEdges (g : Bytes) : List Edge :=
  (List.range (fieldAt g 6 2)).map (fun e =>
    let o := 0x10 + 8 * fieldAt g 4 2 + 16 * e
    { fromNode := fieldAt g o 1, fromPort := fieldAt g (o + 1) 1, toNode := fieldAt g (o + 2) 1
      toPort := fieldAt g (o + 3) 1, capacity := fieldAt g (o + 4) 1, init := fieldAt g (o + 5) 1
      value := fieldAt g (o + 8) 8 })

/-- The checks of R360, in ascending offset within the graph. -/
def graphChecks (g code : Bytes) : List (Nat × Bool) :=
  let nodes := graphNodes g
  let edges := graphEdges g
  let called := (codeWords code).filterMap (callTarget (code.length / 8))
  let inOk (n p : Nat) : Bool := decide ((edges.filter (fun e => decide (e.toNode = n ∧ e.toPort = p))).length = 1)
  let outOk (n p : Nat) : Bool := decide ((edges.filter (fun e => decide (e.fromNode = n ∧ e.fromPort = p))).length = 1)
  [(0, decide (slice g 0 4 = [0x4F#8, 0x50#8, 0x47#8, 0x31#8])),
   (4, decide (1 ≤ nodes.length ∧ nodes.length ≤ 64)),
   (6, decide (1 ≤ edges.length ∧ edges.length ≤ 256 ∧ g.length = 0x10 + 8 * nodes.length + 16 * edges.length) &&
     edges.any (fun e => decide (1 ≤ e.init))),
   (8, decide (fieldAt g 8 8 = 0))] ++
  (nodes.zipIdx.map (fun p =>
    let o := 0x10 + 8 * p.2
    let x := p.1
    [(o, decide (x.code % 8 = 0 ∧ x.code < code.length ∧ x.code ≠ 0 ∧ x.code / 8 ∉ called)),
     (o + 4, decide (1 ≤ x.inputs ∧ x.inputs ≤ 6) && (List.range x.inputs).all (inOk p.2)),
     (o + 5, decide (x.outputs ≤ 6) && (List.range x.outputs).all (outOk p.2)),
     (o + 6, decide (fieldAt g (o + 6) 2 = 0))])).flatten ++
  (edges.zipIdx.map (fun p =>
    let o := 0x10 + 8 * nodes.length + 16 * p.2
    let x := p.1
    let src := (nodes[x.fromNode]?).getD {}
    let dst := (nodes[x.toNode]?).getD {}
    [(o, decide (x.fromNode < nodes.length)), (o + 1, decide (x.fromPort < src.outputs)),
     (o + 2, decide (x.toNode < nodes.length)), (o + 3, decide (x.toPort < dst.inputs)),
     (o + 4, decide (1 ≤ x.capacity ∧ x.capacity ≤ 16)), (o + 5, decide (x.init ≤ x.capacity)),
     (o + 6, decide (fieldAt g (o + 6) 2 = 0))])).flatten

/-! ## The header (R233) -/

/-- Fields of a header. -/
def nlbField (t : Bytes) (off len : Nat) : Nat := fieldAt t off len

/-- Sections of an image as (offset field, start, length): code, tables, graph, signature. -/
def nlbSections (t : Bytes) : List (Nat × Nat × Nat) :=
  let f := nlbField t
  [(0x10, f 0x10 4, f 0x14 4)] ++ (if f 0x24 4 = 0 then [] else [(0x20, f 0x20 4, f 0x24 4)]) ++
    (if bit (f 6 2) 0 then [(0x28, f 0x28 4, f 0x2C 4)] else []) ++ (if f 0x30 4 = 0 then [] else [(0x30, f 0x30 4, 0x70)])

/-- Whether a section meets an earlier one of the list. -/
def sectionsApart (l : List (Nat × Nat × Nat)) (s : Nat × Nat × Nat) : Bool :=
  (l.filter (fun x => x.1 < s.1)).all (fun x => !spansApart x s)
where
  /-- whether two sections share a byte -/
  spansApart (x s : Nat × Nat × Nat) : Bool := decide (x.2.1 < s.2.1 + s.2.2 ∧ s.2.1 < x.2.1 + x.2.2)

/-- A name: ASCII, then zero bytes. -/
def nameOk (b : Bytes) : Bool :=
  b.all (fun x => decide (x.toNat < 128)) && (b.dropWhile (fun x => decide (x ≠ 0))).all (fun x => decide (x = 0))

/-- The checks on a header in ascending offset, then the bytes outside every section. -/
def headerOk (t : Bytes) (len : Nat) : List (Nat × Bool) :=
  let f := nlbField t
  let sec := nlbSections t
  let fits (off : Nat) : Bool := (sec.filter (fun s => s.1 = off)).all (fun s =>
    decide (0x80 ≤ s.2.1 ∧ s.2.1 + s.2.2 ≤ len) && sectionsApart sec s)
  let graph := bit (f 6 2) 0
  [(0x00, decide (slice t 0 4 = [0x4E#8, 0x4C#8, 0x42#8, 0x01#8])), (0x04, decide (f 4 2 = 0x80)),
   (0x06, decide (f 6 2 ≤ 1)), (0x08, decide (f 8 4 = len)), (0x0C, decide (f 0x0C 2 = 1)), (0x0E, decide (f 0x0E 2 = 0)),
   (0x10, decide (f 0x10 4 % 8 = 0) && fits 0x10),
   (0x14, decide (8 ≤ f 0x14 4 ∧ f 0x14 4 ≤ 1048576 ∧ f 0x14 4 % 8 = 0)),
   (0x18, decide (f 0x18 4 % 8 = 0 ∧ f 0x18 4 < f 0x14 4)), (0x1C, decide (f 0x1C 4 ≤ 64)),
   (0x20, decide (f 0x20 4 % 64 = 0) && (decide (f 0x24 4 ≠ 0) || decide (f 0x20 4 = 0)) && fits 0x20),
   (0x28, (graph || decide (f 0x28 4 = 0)) && fits 0x28), (0x2C, graph || decide (f 0x2C 4 = 0)),
   (0x30, decide (f 0x30 4 = 0 ∨ f 0x30 4 + 0x70 = len) && fits 0x30), (0x34, decide (f 0x34 4 = 0)),
   (0x40, nameOk (slice t 0x40 32)), (0x60, decide (fieldAt t 0x60 28 = 0)),
   (0x7C, decide (f 0x7C 4 = crc32c (slice t 0 0x7C)))] ++
  (t.zipIdx.filter (fun p => decide (0x80 ≤ p.2) && sec.all (fun s => decide (p.2 < s.2.1 ∨ s.2.1 + s.2.2 ≤ p.2)))).map
    (fun p => (p.2, decide (p.1 = 0)))

/-! ## The signature (R234) -/

/-- Whether the signature of an image verifies for a loading function. -/
def Dev.nolobSigned (d : Dev) (fix : Nat) (t : Bytes) : Bool :=
  let off := nlbField t 0x30 4
  let k := fget d.key.slots {} (fieldAt t off 2)
  decide (fieldAt t (off + 2) 14 = 0 ∧ fieldAt t off 2 < 4096 ∧ k.state ≠ 0 ∧ k.ktype = 4 ∧
    (k.fix = fix ∨ k.fix = pfOf (d.portOf fix))) &&
    ecdsaVerify k.key (sha384 (t.take off)) (slice t (off + 0x10) 48) (slice t (off + 0x40) 48)

/-! ## Load and unload -/

/-- Steps 1 to 6 of R235: the failure and Dword 0. -/
def Dev.nolobCheck (d : Dev) (fix len : Nat) (mustSign : Bool) (t : Bytes) : Option (Status × Nat) :=
  if len < 128 ∨ 16777216 < len then some (.invalidField, 0)
  else match firstBad (headerOk t len) with
    | some off => some (.imageInvalid, off)
    | none =>
      let f := nlbField t
      let hasSig := decide (f 0x30 4 ≠ 0)
      if (mustSign || bit (d.tf 8 0x21 1) 0) && !hasSig then some (.signatureFail, 0)
      else if hasSig && d.key.locked then some (.nsNotReady, 0)
      else if hasSig && !d.nolobSigned fix t then some (.signatureFail, 0)
      else
        let code := slice t (f 0x10 4) (f 0x14 4)
        let g := if bit (f 6 2) 0 then slice t (f 0x28 4) (f 0x2C 4) else []
        match verifyCode code (f 0x18 4) ((graphNodes g).map (·.code)) with
        | some off => some (.imageInvalid, f 0x10 4 + off)
        | none =>
          if bit (f 6 2) 0 then match firstBad (graphChecks g code) with
            | some off => some (.imageInvalid, f 0x28 4 + off)
            | none => none
          else none

/-- The image of a file that has passed. -/
def nolobImage (fix handle pga pages : Nat) (t : Bytes) : Image :=
  let f := nlbField t
  let g := if bit (f 6 2) 0 then slice t (f 0x28 4) (f 0x2C 4) else []
  { fix := fix, handle := handle, entry := f 0x18 4, scratch := f 0x1C 4, code := slice t (f 0x10 4) (f 0x14 4)
    tables := slice t (f 0x20 4) (f 0x24 4), graph := bit (f 6 2) 0, nodes := graphNodes g, edges := graphEdges g
    buildId := f 0x38 8, name := slice t 0x40 32, pga := pga, pages := pages }

/-- The free slot with the lowest load count; the lowest on a tie (R98). -/
def Dev.loadSlot (d : Dev) : Option Nat :=
  ((List.range 4096).filter (fun s => (d.image s).isNone && decide (s ∉ d.hrt.withdrawn))).foldl (fun a s => match a with
    | none => some s
    | some t => if fget d.hrt.loads 0 s < fget d.hrt.loads 0 t then some s else some t) none

/-- The load itself, once the unit of pool 23 is issued: it takes a slot and pages in the set named. -/
def Dev.nolobStore (d : Dev) (ref : CmdRef) (t : Bytes) (col b grp : Nat) : Dev :=
  let pages := ceilDiv t.length 16384
  match d.loadSlot, d.placePages col b grp 3 pages with
  | some s, some (d, pga) =>
    let n := fget d.hrt.loads 0 s + 1
    let im := nolobImage ref.fix (s + 4096 * n) pga pages t
    let d := { d with hrt := { d.hrt with images := fset d.hrt.images s (some im), loads := fset d.hrt.loads s n } }
    let d := d.modBlk (pgaDie pga) (pgaBlock pga) (fun k => { k with valid := k.valid + 256 * pages })
    let d := d.layPages { kind := 3, index := s, pga := pga, pages := pages } t
    d.complete ref .success im.handle
  | _, _ => d

/-- NOLOB_IMAGE_LOAD: CDW10, REQUIRE_SIGNATURE and the bytes (none: the transfer fails on the link); the set and group
that the image is laid in. A load that waits for its share is run again once the unit is issued. -/
def execNolobImageLoad (ref : CmdRef) (len : Nat) (mustSign : Bool) (data : Option Bytes) (col set grp : Nat) (s : State) :
    Host.Outcome State Fault Refusal :=
  act s fun d =>
    match d.live ref with
    | none => d
    | some c =>
      if c.job = .share 23 then
        match d.takeGrant 23 (.cmd ref) with
        | some e =>
          if (e.placePages col set grp 3 (ceilDiv c.data.length 16384)).isSome then e.nolobStore ref c.data col set grp else d
        | none => d
      else if c.ran then d
      else match data with
        | none => d.complete ref .dataTransferError
        | some t =>
          match d.nolobCheck ref.fix len mustSign t with
          | some (st, dw0) => d.complete ref st dw0
          | none =>
            if (d.placePages col set grp 3 (ceilDiv t.length 16384)).isNone then d
            else
              let (d, ok) := (d.hostRead ref.fix t.length).request 23 ref.fix 1 (.cmd ref)
              if ok then d.nolobStore ref t col set grp
              else d.modCmd ref (fun c => { c with ran := true, job := .share 23, data := t })

/-- The image of a handle that a function owns and that is not being unloaded. -/
def Dev.ownImage (d : Dev) (fix handle : Nat) : Option Image :=
  match d.image (handle % 4096) with
  | some im => if im.handle = handle ∧ im.fix = fix ∧ im.unloading = none then some im else none
  | none => none

/-- NOLOB_IMAGE_UNLOAD: the image stops accepting Compute Submit at once. -/
def execNolobImageUnload (ref : CmdRef) (handle : Nat) (s : State) : Host.Outcome State Fault Refusal :=
  act s fun d =>
    match d.fresh ref with
    | none => d
    | some _ =>
      match d.ownImage ref.fix handle with
      | none => d.complete ref .imageHandleInvalid
      | some _ =>
        (d.modImage (handle % 4096) (fun im => { im with unloading := some ref })).modCmd ref
          (fun c => { c with ran := true, job := .imageUnload (handle % 4096) })

/-- Removes an image: its pages are no longer valid, its unit of pool 23 goes back, and a slot at its last load count is
withdrawn (R98, R99). -/
def Dev.removeImage (d : Dev) (slot : Nat) (im : Image) : Dev :=
  let d := (d.loseUnits (pgaKey im.pga) (256 * im.pages)).giveBack 23 im.fix 1
  let d := { d with hrt := { d.hrt with images := fset d.hrt.images slot none } }
  if 0xFFFFF ≤ fget d.hrt.loads 0 slot then
    ({ d with hrt := { d.hrt with withdrawn := setIns d.hrt.withdrawn slot } }).modPool 23 (fun q => { q with
      capacity := q.capacity - 1 })
  else d

/-- IMAGE_UNLOAD_COMPLETE: no Waybill of the image is left. -/
def execImageUnloadComplete (slot : Nat) (s : State) : Host.Outcome State Fault Refusal :=
  act s fun d =>
    match d.image slot with
    | none => d
    | some im =>
      match im.unloading with
      | none => d
      | some r => if d.hrt.wbs.any (fun w => w.slot = slot) then d else (d.removeImage slot im).complete r .success

end Sys2Proof.Machine
end

