-- ==== Sys2Proof/Machine/Vendor.lean ====
section
/-! DEFINITION. Vendor commands: policy tables (R95 to R97), Cartridge Service (R101, R217 to R219), Manifest Query (R102),
Tollgate Report (R103) and Compute Submit (R104, R105, R243). -/

namespace Sys2Proof.Machine

/-! ## Policy tables -/

/-- POLICY_TABLE_LOAD: CDW10's TABLE_ID and ACTION (0, or a value that check 1 of R97 refuses), CDW11 and the data. A
table that passes is stored and becomes active at the next epoch boundary. -/
def execPolicyTableLoad (ref : CmdRef) (table action len : Nat) (data : Option Bytes) (s : State) :
    Host.Outcome State Fault Refusal :=
  act s fun d => d.pfAdmin ref fun d =>
    if table ∉ policyIds ∨ action ≠ 0 ∨ len < 32 ∨ 65536 < len ∨ len % 8 ≠ 0 then d.complete ref .invalidField
    else match data with
      | none => d.complete ref .dataTransferError
      | some b =>
        let t := padTo len b
        let d := d.hostRead ref.fix len
        match policyCheck d table len t with
        | (.success, _) =>
          ({ d with nvm := { d.nvm with stored := fset d.nvm.stored table (some t) } }).complete ref .success
        | (st, off) => d.complete ref st off

/-- A read-back of a table (R96): the first bytes, zeros beyond LENGTH, and LENGTH in Dword 0. -/
def Dev.readTable (d : Dev) (ref : CmdRef) (table len : Nat) (t : Bytes) : Dev :=
  if table ∉ policyIds ∨ len < 4 ∨ 65536 < len ∨ len % 4 ≠ 0 then d.complete ref .invalidField
  else (d.emit (.toHost ref 0 (padTo len t))).complete ref .success t.length

/-- POLICY_TABLE_READ_ACTIVE. -/
def execPolicyTableReadActive (ref : CmdRef) (table len : Nat) (s : State) : Host.Outcome State Fault Refusal :=
  act s fun d => d.pfAdmin ref (fun d => d.readTable ref table len (d.tbl table))

/-- POLICY_TABLE_READ_FACTORY. -/
def execPolicyTableReadFactory (ref : CmdRef) (table len : Nat) (s : State) : Host.Outcome State Fault Refusal :=
  act s fun d => d.pfAdmin ref (fun d => d.readTable ref table len (factoryTable d.emb.extended table))

/-! ## Cartridge Service -/

/-- A service command completes with the group's generation in Dwords 0 and 1. -/
def Dev.serviceDone (d : Dev) (ref : CmdRef) (g : Nat) : Dev :=
  let gen := (d.unit (uid 5 g)).generation
  d.complete ref .success (gen % 2 ^ 32) (gen / 2 ^ 32 % 2 ^ 32)

/-- CARTRIDGE_QUERY: action 0. -/
def execCartridgeQuery (ref : CmdRef) (group : Nat) (s : State) : Host.Outcome State Fault Refusal :=
  act s fun d => d.pfAdmin ref fun d =>
    if 8 ≤ group then d.complete ref .invalidField
    else (d.emit (.toHost ref 0 (d.record436 (uid 5 group)))).serviceDone ref group

/-- The frame of actions 1 to 3: the generation quoted is the current one (R439), and no action of another function, nor
one on the group itself, is running (R218). -/
def Dev.service (d : Dev) (ref : CmdRef) (group gen : Nat) (f : Dev → Dev) : Dev :=
  d.pfAdmin ref fun d =>
    let other := (List.range 8).any (fun g => match (d.grp g).owner with
      | some r => decide (r.fix ≠ ref.fix ∨ g = group)
      | none => false)
    if 8 ≤ group then d.complete ref .invalidField
    else if gen ≠ (d.unit (uid 5 group)).generation then
      ({ d with mnf := { d.mnf with stale := satAdd 32 d.mnf.stale 1 } }).complete ref .staleGeneration
    else if other then d.complete ref .cartridgeState
    else f d

/-- Groups that count as missing for a preparation: those out of service and those being rebuilt. -/
def Dev.missingFor (d : Dev) (group : Nat) : Nat :=
  ((List.range 8).filter (fun g => decide (g = group) || d.groupMissing g || d.rebuilding g)).length

/-- Whether a 7+1 set is in use. -/
def Dev.sevenInUse (d : Dev) : Bool :=
  d.map.blocks.any (fun p => decide ((p.2.state = 1 ∨ p.2.state = 2) ∧ p.2.geom = 0))

/-- CARTRIDGE_PREPARE_REMOVAL: action 1. It completes at CARTRIDGE_ATTN_ASSERT. -/
def execCartridgePrepareRemoval (ref : CmdRef) (group gen : Nat) (s : State) : Host.Outcome State Fault Refusal :=
  act s fun d => d.service ref group gen fun d =>
    let st := (d.unit (uid 5 group)).state
    let most := if d.sevenInUse then 1 else 2
    if (st ≠ .alive ∧ st ≠ .degraded) ∨ most < d.missingFor group then d.complete ref .cartridgeState
    else (d.modCmd ref (fun c => { c with job := .prepare group, started := true })).prepare group ref

/-- CARTRIDGE_ADMIT: action 2. The power-up of R163 follows. -/
def execCartridgeAdmit (ref : CmdRef) (group gen : Nat) (s : State) : Host.Outcome State Fault Refusal :=
  act s fun d => d.service ref group gen fun d =>
    let c := d.grp group
    if (d.unit (uid 5 group)).state ≠ .absent ∨ c.present = false ∨ c.admitted ∨ c.step ≠ 0 then d.complete ref .cartridgeState
    else (d.modGrp group (fun c => { c with admitted := true })).serviceDone ref group

/-- CARTRIDGE_CANCEL_REMOVAL: action 3. The group is in service again, its rebuild resuming at its pointer. -/
def execCartridgeCancelRemoval (ref : CmdRef) (group gen : Nat) (s : State) : Host.Outcome State Fault Refusal :=
  act s fun d => d.service ref group gen fun d =>
    if d.prepared group then
      let d := if d.toRebuild group then d.transition (uid 5 group) .degraded .rebuild
        else d.transition (uid 5 group) .alive .none
      ((d.keepPointer group).modGrp group (fun c => { c with admitted := true })).serviceDone ref group
    else d.complete ref .cartridgeState

/-! ## Manifest Query and Tollgate Report -/

/-- MANIFEST_QUERY: records from a first unit ID on, as many as are wanted and fit the data length. -/
def execManifestQuery (ref : CmdRef) (first count len : Nat) (s : State) : Host.Outcome State Fault Refusal :=
  act s fun d => d.admin ref fun d =>
    let l := (unitIds.filter (fun u => decide (first ≤ u))).take (min count (len / 64))
    (d.emit (.toHost ref 0 ((l.map d.record436).flatten))).complete ref .success l.length

/-- Clears TOL_VIOLATED of a pool, with VIOLATED and FIRST_VIOLATION (R42). With the last bit the request of shared ID 78 is
withdrawn (R367, R374). -/
def Dev.clearViolated (d : Dev) (p : Nat) : Dev :=
  let d := d.modPool p (fun q => { q with violated := false, firstViolation := 0 })
  if (List.range 32).any (fun p => (d.pool p).violated) then d
  else
    let srcs : FMap Src := d.icu.srcs.map (fun q => (q.1, if q.1 = 78 then { q.2 with level := false } else q.2))
    { d with icu := { d.icu with srcs := srcs } }

/-- TOLLGATE_REPORT: the pools of a mask; CLEAR counts from a PF only. -/
def execTollgateReport (ref : CmdRef) (mask : Nat) (clear : Bool) (len : Nat) (s : State) :
    Host.Outcome State Fault Refusal :=
  act s fun d => d.admin ref fun d =>
    let l := bitsSet mask 32
    if l.isEmpty ∨ len ≠ 64 * l.length then d.complete ref .invalidField
    else
      let d := d.emit (.toHost ref 0 ((l.map d.poolRecord).flatten))
      let d := if clear && d.isPf ref.fix then d.forEach l Dev.clearViolated else d
      d.complete ref .success

/-! ## Compute Submit -/

/-- EXTENT_e of a Waybill: NSID, SLBA, LBAs. -/
def extentAt (b : Bytes) (e : Nat) : Nat × Nat × Nat :=
  let w := fieldAt b (0x80 + 8 * e) 8
  (bitsOf w 40 10 + 1, bitsOf w 0 40, bitsOf w 50 14 + 1)

/-- Whether an extent lies in a namespace that is attached to the controller. -/
def Dev.extentOk (d : Dev) (fix : Nat) (e : Nat × Nat × Nat) : Bool :=
  match d.ns e.1 with
  | some n => n.ready && decide (fix ∈ n.attached ∧ e.2.1 + e.2.2 ≤ n.nsze)
  | none => false

/-- An SGL descriptor of 16 bytes, of which the identifier is the last (NVMe 2.1; R83). -/
def sglDescOf (b : Bytes) : SglDesc :=
  let id := fieldAt b 15 1
  { len := fieldAt b 8 4
    kind := if id % 16 ≠ 0 then .reserved else match id / 16 with
      | 0 => .data | 1 => .bitBucket | 2 => .segment | 3 => .lastSegment | 4 => .keyed | _ => .reserved }

/-- The output of a Waybill: PRPs, or the SGL that begins with the descriptor in OUTPUT and goes on where `out` leads. -/
def outputOf (b : Bytes) (out : DataPtr) : DataPtr :=
  if fieldAt b 9 1 = 0 then .prp
  else .sgl ({ fetched := true, descs := [sglDescOf (slice b 0x10 16)] } :: (match out with
    | .sgl segs => segs.drop 1
    | .prp => []))

/-- Whether PRP1 and PRP2 of an output of `n` bytes break NVMe 2.1 for a page size (log 101): PRP1 aligned to 4 bytes; PRP2, where
the bytes pass the first page, a page, or for more than one page beyond it a list aligned to 8 bytes. -/
def prpBad (page prp1 prp2 n : Nat) : Bool :=
  let first := page - prp1 % page
  decide (prp1 % 4 ≠ 0) || (decide (first < n ∧ n ≤ first + page ∧ prp2 % page ≠ 0)) || decide (first + page < n ∧ prp2 % 8 ≠ 0)

/-- Whether the output descriptor of a Waybill is malformed. -/
def Dev.outputBad (d : Dev) (fix : Nat) (b : Bytes) (p : DataPtr) : Bool :=
  match p with
  | .prp => prpBad (2 ^ (12 + (d.fn fix).mps)) (fieldAt b 0x10 8) (fieldAt b 0x18 8) (fieldAt b 0x20 8)
  | .sgl _ => match ptrWalk p .toHost with
    | none => false
    | some e => decide (e ≠ .dataTransferError)

/-- The fields of a Waybill that R105 rejects, by their offsets in ascending order (R94, R104): a value outside its range, a
handle of another function, a malformed output, an extent outside an attached namespace. DESIGN CHOICE (log 97): a handle that
another function owns is rejected by R105's status, not by the one that R94 lists for it. -/
def Dev.waybillBad (d : Dev) (fix : Nat) (b : Bytes) (p : DataPtr) : List Nat :=
  let handle := fieldAt b 4 4
  let foreign : Bool := match d.image (handle % 4096) with
    | some im => decide (im.handle = handle ∧ im.fix ≠ fix)
    | none => false
  let tests : List (Nat × Bool) := [
    (0x00, decide (fieldAt b 0 2 ≠ 1)), (0x02, decide (2 ≤ fieldAt b 2 2)), (0x04, foreign),
    (0x08, decide (fieldAt b 8 1 < 1 ∨ 16 < fieldAt b 8 1)), (0x09, decide (1 < fieldAt b 9 1)),
    (0x0A, decide (fieldAt b 0x0A 2 ≠ 0)), (0x0C, decide (3600000 < fieldAt b 0x0C 4)), (0x10, d.outputBad fix b p),
    (0x20, decide (2 ^ 40 < fieldAt b 0x20 8)), (0x28, decide (fieldAt b 0x28 8 % 64 ≠ 0)), (0x38, decide (fieldAt b 0x38 8 ≠ 0))] ++
    (List.range (min 16 (fieldAt b 8 1))).map (fun e => (0x80 + 8 * e, !d.extentOk fix (extentAt b e)))
  (tests.filter (·.2)).map (·.1)

/-- The checks of R105 on a Waybill at a host address with the output that its descriptor leads to: the status of a refusal,
and Dword 0, the offset of the first offending field for WAYBILL_INVALID. A misaligned address, which is no field of the
Waybill, gives offset 0 (log 97). -/
def Dev.waybillCheck (d : Dev) (fix addr : Nat) (b : Bytes) (out : DataPtr) : Option (Status × Nat) :=
  let handle := fieldAt b 4 4
  let p := outputOf b out
  if addr % 64 ≠ 0 then some (.waybillInvalid, 0)
  else match d.waybillBad fix b p with
    | off :: _ => some (.waybillInvalid, off)
    | [] =>
      if ptrWalk p .toHost = some .dataTransferError then some (.dataTransferError, 0)
      else match d.image (handle % 4096) with
        | none => some (.imageHandleInvalid, 0)
        | some im =>
          if im.handle ≠ handle ∨ im.unloading.isSome then some (.imageHandleInvalid, 0)
          else if ptrLengthBad p (fieldAt b 0x20 8) then some (.dataSglLength, 0)
          else none

/-- The Waybill as accepted; a limit of 0 takes the default of table 0x08. -/
def Dev.accepted (d : Dev) (ref : CmdRef) (b : Bytes) : Waybill :=
  let limit := fieldAt b 0x0C 4
  { id := d.hrt.nextWb, ref := ref, epoch := d.epochOf ref, state := .admitting, ordered := bit (fieldAt b 2 2) 0
    slot := fieldAt b 4 4 % 4096, handle := fieldAt b 4 4, extents := (List.range (fieldAt b 8 1)).map (extentAt b)
    limitMs := if limit = 0 then d.tf 8 0x24 4 else limit, outLen := fieldAt b 0x20 8, resultAddr := fieldAt b 0x28 8
    userTag := fieldAt b 0x30 8, params := slice b 0x40 64, output := slice b 0x10 16 }

/-- COMPUTE_SUBMIT: the Waybill's host address, its 256 bytes (none: the read fails on the link), and where its output
descriptor leads. An accepted Waybill is ADMITTING and requests its unit of pool 20. -/
def execComputeSubmit (ref : CmdRef) (addr : Nat) (waybill : Option Bytes) (out : DataPtr) (s : State) :
    Host.Outcome State Fault Refusal :=
  act s fun d => d.io ref fun d =>
    match waybill with
    | none => d.complete ref .dataTransferError
    | some b =>
      let d := d.hostRead ref.fix 256
      match d.waybillCheck ref.fix addr b out with
      | some (e, off) => d.complete ref e off
      | none =>
        let w := d.accepted ref b
        let (d, ok) := d.request 20 ref.fix 1 (.waybill w.id)
        let d : Dev := { d with hrt := { d.hrt with
          nextWb := d.hrt.nextWb + 1, wbs := d.hrt.wbs ++ [{ w with got := if ok then [20] else [] }] } }
        d.modCmd ref (fun c => { c with job := .compute w.id })

end Sys2Proof.Machine
end

