-- ==== Sys2Proof/Machine/Flash.lean ====
section
/-! DEFINITION. The code flash and the ROM flash service (R383 to R394), and faults of the read view (R386). Sectors are
numbered as SECTOR of R389: 0 to 254 for M0 to M254, 0x100 to 0x107 for P0 to P7. -/

namespace Sys2Proof.Machine

/-! ## Geometry (R383 to R385) -/

def isParam (n : Nat) : Bool := decide (0x100 ≤ n ∧ n < 0x108)
def isSector (n : Nat) : Bool := decide (n < 255) || isParam n

/-- Bytes of a sector, of its programming unit, and its endurance in erases. -/
def sectorLen (n : Nat) : Nat := if isParam n then 8192 else 65536
def flashUnit (n : Nat) : Nat := if isParam n then 8 else 32
def endurance (n : Nat) : Nat := if isParam n then 100000 else 10000

/-- The bank of a sector, as CFL_STATUS numbers it. -/
def bankOf (n : Nat) : Nat := if isParam n then 2 else if n < 127 then 0 else 1

/-- The sector of an offset in the read view. -/
def sectorAt (off : Nat) : Nat := if off < 0x10000 then 0x100 + off / 8192 else (off - 0x10000) / 65536

/-- A word of an erased sector. -/
def allOnes : Nat := 2 ^ 64 - 1

def Dev.sector (d : Dev) (n : Nat) : Sector := fget d.cfl.sectors {} n
def Dev.modSector (d : Dev) (n : Nat) (f : Sector → Sector) : Dev :=
  { d with cfl := { d.cfl with sectors := fmod d.cfl.sectors {} n f } }

/-- The firmware slot that a main sector belongs to (R384). -/
def slotOf (n : Nat) : Option Nat :=
  if 3 ≤ n ∧ n ≤ 125 then some 0 else if 130 ≤ n ∧ n ≤ 252 then some 1 else none

/-- A 64-bit word of a sector. The content of a sector whose erase did not pass is open (log 3). -/
def Dev.flashWord (d : Dev) (n i : Nat) : Nat :=
  let s := d.sector n
  if s.incomplete then (Config.flashCell n s.erases i).toNat else fget s.cells allOnes i

/-- First main sector of a slot. -/
def slotFirst (slot : Nat) : Nat := if slot = 0 then 3 else 130

/-- Sectors of the running slot and of its certificate copy (R390, PROTECTED). -/
def Dev.isProtected (d : Dev) (n : Nat) : Bool :=
  decide (d.bot.stage = 1 ∨ d.bot.stage = 2) &&
    (if d.bot.slot = 0 then decide (n ≤ 125) else decide (127 ≤ n ∧ n ≤ 252))

/-- A change to a sector of a slot spoils the image that stands there. -/
def Dev.spoilSlot (d : Dev) (n : Nat) : Dev :=
  match slotOf n with
  | some k => { d with bot := { d.bot with slots := fset d.bot.slots k none } }
  | none => d

/-! ## Words -/

/-- The 64-bit words of a byte string. -/
def wordsOf (b : Bytes) : List Nat := (List.range (b.length / 8)).map (fun i => fieldAt b (8 * i) 8)

/-- Programs one word: bits go from 1 to 0 only, and a parameter word counts its programs (R385). -/
def Sector.putWord (s : Sector) (param : Bool) (i w : Nat) : Sector :=
  { s with
    cells := fset s.cells i (fget s.cells allOnes i &&& w), programmed := true
    writes := if param then fset s.writes i (fget s.writes 0 i + 1) else s.writes }

/-- Programs a run of words from word `i` on. -/
def Dev.putWords (d : Dev) (n i : Nat) (l : List Nat) : Dev :=
  d.modSector n (fun s => (l.zipIdx).foldl (fun s p => s.putWord (isParam n) (i + p.2) p.1) s)

/-- A sector as an erase that passes leaves it. -/
def Sector.erased (s : Sector) : Sector :=
  { s with incomplete := false, programmed := false, corrected := 0, cells := [], writes := [] }

/-- An erase begins: it is counted, the sector is marked ERASE_INCOMPLETE, and beyond its endurance it is WORN, with its
event (R388, R391). -/
def Dev.beginSectorErase (d : Dev) (n : Nat) : Dev :=
  let d := d.modSector n (fun s => { s with erases := satAdd 32 s.erases 1, incomplete := true })
  let d := d.spoilSlot n
  let s := d.sector n
  if endurance n < s.erases then
    (d.modSector n (fun s => { s with worn := true })).logSev 0x0109 1 noUnit (fields [(1, 0), (2, n), (4, s.erases)])
  else d

/-! ## The service (R389, R390) -/

/-- Returns a status in x1. -/
def Dev.flashAns (d : Dev) (st : Nat) : Dev := d.emit (.flashStatus st)

/-- The first refusal of R390 that a PROGRAM or ERASE meets before its data is looked at: BAD_ARG, WDT_PENDING, BUSY,
PROTECTED (log 41). -/
def Dev.flashRefusal (d : Dev) (badArg : Bool) (n : Nat) : Option Nat :=
  if badArg then some 2 else if d.wdt.state ≠ 0 then some 9 else if d.cfl.op.isSome then some 1
  else if d.isProtected n then some 3 else none

/-- Whether the fields of a PROGRAM are out of range. -/
def programBad (n off len : Nat) : Bool :=
  !isSector n || decide (off % flashUnit n ≠ 0) || decide (len % flashUnit n ≠ 0) || decide (len < 8) ||
    decide (4096 < len) || decide (sectorLen n < off + len)

/-- The refusals of R390 that the data meets: BITS_UP, WORD_LIMIT, NOT_ERASED. -/
def Dev.wordRefusal (d : Dev) (n i : Nat) (l : List Nat) : Option Nat :=
  if isParam n then
    if l.zipIdx.any (fun p => decide (d.flashWord n (i + p.2) &&& p.1 ≠ p.1)) then some 5
    else if l.zipIdx.any (fun p => decide (2 ≤ fget (d.sector n).writes 0 (i + p.2))) then some 6
    else none
  else if l.zipIdx.any (fun p => decide (d.flashWord n (i + p.2) ≠ allOnes)) then some 7
  else none

/-- Starts an operation, or answers the refusal. -/
def Dev.startFlash (d : Dev) (refusal : Option Nat) (o : FlashOp) : Dev :=
  match refusal with
  | some st => d.flashAns st
  | none =>
    let d : Dev := { d with cfl := { d.cfl with op := some o } }
    let d := if o.isErase then d.beginSectorErase o.sector else d.spoilSlot o.sector
    d.flashAns 0

/-- FLASH_PROGRAM: PROGRAM of R389. -/
def execFlashProgram (sector offset : Nat) (data : Bytes) (s : State) : Host.Outcome State Fault Refusal :=
  act s fun d =>
    if !d.domOn .control then d
    else
      let words := wordsOf data
      let refusal := (d.flashRefusal (programBad sector offset data.length) sector).or (d.wordRefusal sector (offset / 8) words)
      d.startFlash refusal { isErase := false, sector := sector, offset := offset, words := words }

/-- FLASH_ERASE: ERASE of R389. -/
def execFlashErase (sector : Nat) (s : State) : Host.Outcome State Fault Refusal :=
  act s fun d =>
    if !d.domOn .control then d
    else d.startFlash (d.flashRefusal (!isSector sector) sector) { isErase := true, sector := sector }

/-- The 16 bytes of READ_INFO. -/
def Sector.info (s : Sector) : Bytes :=
  leBytes 8 s.erases ++ leBytes 1 (if s.incomplete then 2 else if s.programmed then 1 else 0) ++ leBytes 1 (b2n s.worn) ++
    leBytes 4 s.corrected ++ zeroBytes 2

/-- FLASH_READ_INFO. -/
def execFlashReadInfo (sector : Nat) (s : State) : Host.Outcome State Fault Refusal :=
  act s fun d =>
    if !d.domOn .control then d
    else if !isSector sector then d.flashAns 2
    else (d.emit (.flashData (d.sector sector).info)).flashAns 0

/-- The 16 bytes of STATUS: the result of the last operation, or BUSY while one runs or is suspended. -/
def Cfl.statusBytes (c : Cfl) : Bytes :=
  let r : Nat × Nat × Nat × Nat × Nat := match c.op with
    | some o => (1, if o.isErase then 2 else 1, o.pulses, o.sector, o.timeUs)
    | none => (c.lastStatus, c.lastOp, c.lastPulses, c.lastSector, c.lastTime)
  leBytes 1 r.1 ++ leBytes 1 r.2.1 ++ leBytes 1 r.2.2.1 ++ zeroBytes 1 ++ leBytes 2 r.2.2.2.1 ++ zeroBytes 2 ++
    leBytes 8 r.2.2.2.2

/-- FLASH_STATUS. -/
def execFlashStatus (s : State) : Host.Outcome State Fault Refusal :=
  act s fun d => if !d.domOn .control then d else (d.emit (.flashData d.cfl.statusBytes)).flashAns 0

/-- A byte of the calibration row. -/
def Dev.calAt (d : Dev) (i : Nat) : Byte := match ffind d.cfl.cal i with
  | some v => BitVec.ofNat 8 v
  | none => Config.calByte i

/-- FLASH_READ_CAL: bytes of the calibration row, which holds 4 KiB (R394). -/
def execFlashReadCal (offset len : Nat) (s : State) : Host.Outcome State Fault Refusal :=
  act s fun d =>
    if !d.domOn .control then d
    else if len < 1 ∨ 4096 < len ∨ 4096 < offset + len then d.flashAns 2
    else (d.emit (.flashData ((List.range len).map (fun i => d.calAt (offset + i))))).flashAns 0

/-! ## Running, suspending, ending (R391 to R393) -/

def Dev.modFlashOp (d : Dev) (f : FlashOp → FlashOp) : Dev := { d with cfl := { d.cfl with op := d.cfl.op.map f } }

/-- Microseconds of an erase pulse of 2.0 ms with its verify of 0.2 ms (R391). -/
def erasePulseUs : Nat := 2200

/-- FLASH_SUSPEND: a pulse that is cut off is not counted, and runs again from its start (R392); `ran` is
the erase time in microseconds since the erase began or last resumed. -/
def execFlashSuspend (ran : Nat) (s : State) : Host.Outcome State Fault Refusal :=
  act s fun d =>
    if !d.domOn .control then d
    else match d.cfl.op with
      | some o =>
        if o.isErase ∧ o.suspended = false ∧ o.suspends < 8 ∧ 1000 ≤ ran then
          (d.modFlashOp (fun o => { o with
            suspended := true, suspends := o.suspends + 1, pulses := o.pulses + ran / erasePulseUs
            ranUs := ran, timeUs := o.timeUs + ran })).flashAns 0
        else d.flashAns 2
      | none => d.flashAns 2

/-- A suspended erase runs on after `us` more microseconds of suspension. -/
def Dev.resumeErase (d : Dev) (us : Nat) : Dev :=
  d.modFlashOp (fun o => { o with suspended := false, suspUs := o.suspUs + us, ranUs := 0, timeUs := o.timeUs + us })

/-- Whether an erase stands suspended. -/
def Cfl.suspended (c : Cfl) : Bool := match c.op with
  | some o => o.isErase && o.suspended
  | none => false

/-- FLASH_RESUME: `us` is how long this suspension has lasted. -/
def execFlashResume (us : Nat) (s : State) : Host.Outcome State Fault Refusal :=
  act s fun d =>
    if !d.domOn .control then d
    else if d.cfl.suspended then (d.resumeErase us).flashAns 0 else d.flashAns 2

/-- FLASH_AUTO_RESUME: the suspensions have lasted 100 ms in total. -/
def execFlashAutoResume (us : Nat) (s : State) : Host.Outcome State Fault Refusal :=
  act s fun d =>
    match d.cfl.op with
    | some o => if o.isErase ∧ o.suspended ∧ 100000 ≤ o.suspUs + us then d.resumeErase us else d
    | none => d

/-- A program or erase ends with a status; its completion raises shared ID 201. -/
def Dev.endFlash (d : Dev) (o : FlashOp) (status pulses us : Nat) : Dev :=
  ({ d with cfl := { d.cfl with
    op := none, lastStatus := status, lastOp := if o.isErase then 2 else 1, lastSector := o.sector
    lastPulses := pulses, lastTime := us } }).srcEvent 201

/-- The words of a program up to unit `k`, with that unit left in an open state (log 3). -/
def Dev.putPartly (d : Dev) (o : FlashOp) (k : Nat) : Dev :=
  let n := o.sector
  let per := flashUnit n / 8
  let i := o.offset / 8
  let e := (d.sector n).erases
  let open' := (List.range per).map (fun j => (Config.flashCell n e (i + k * per + j)).toNat)
  d.putWords n i (o.words.take (k * per) ++ open')

/-- FLASH_OPERATION_DONE: the operation passes, or unit `failed` of a program, or the erase, fails its last verify;
`pulses` are those of the last unit, `us` the wall time from the start. -/
def execFlashOperationDone (failed : Option Nat) (pulses us : Nat) (s : State) : Host.Outcome State Fault Refusal :=
  act s fun d =>
    match d.cfl.op with
    | none => d
    | some o =>
      if o.suspended then d
      else match failed with
        | none =>
          let d := if o.isErase then d.modSector o.sector Sector.erased else d.putWords o.sector (o.offset / 8) o.words
          d.endFlash o 0 pulses us
        | some k =>
          let last := o.words.length * 8 / flashUnit o.sector - 1
          let d := if o.isErase then d else d.putPartly o (min k last)
          d.endFlash o 4 pulses us

/-- FLASH_OPERATION_ABANDONED: the operation has reached 260 ms of wall time; `unit` is the unit a program had reached. -/
def execFlashOperationAbandoned (unit : Nat) (s : State) : Host.Outcome State Fault Refusal :=
  act s fun d =>
    match d.cfl.op with
    | none => d
    | some o =>
      let last := o.words.length * 8 / flashUnit o.sector - 1
      let d := if o.isErase then d else d.putPartly o (min unit last)
      d.endFlash o 8 o.pulses 260000

/-! ## The read view (R386, R387) -/

/-- Whether a main sector lies in an execute-only region in force. -/
def Dev.inXo (d : Dev) (n : Nat) : Bool :=
  !isParam n && (List.range 8).any (fun r =>
    let x := fget d.cfl.xo {} r
    x.valid && decide (x.first ≤ n ∧ n ≤ x.last))

/-- The status with which a read or fetch of a sector faults, in the order of R386 (log 41): 0 ERASE_SUSPENDED, 1 BANK_BUSY,
2 XO_READ, 3 ERASE_INCOMPLETE, 4 ECC. -/
def Dev.readFault (d : Dev) (n : Nat) (fetch uncorrectable : Bool) : Option Nat :=
  let busy : Option Nat := match d.cfl.op with
    | some o =>
      if o.isErase ∧ o.suspended ∧ o.sector = n then some 0
      else if o.suspended = false ∧ bankOf o.sector = bankOf n then some 1 else none
    | none => none
  match busy with
  | some st => some st
  | none =>
    if !fetch && d.inXo n then some 2
    else if (d.sector n).incomplete then some 3
    else if uncorrectable && !isParam n then some 4
    else none

/-- CODE_FLASH_READ_FAULT: a read or fetch at an offset of the read view; `ecc` is 0 clean, 1 corrected, 2 uncorrectable.
A fault returns a bus error, is logged and counted; a corrected read is counted (R385); a read without a fault answers the
64-bit word that holds the offset. -/
def execCodeFlashReadFault (offset : Nat) (fetch : Bool) (ecc : Nat) (s : State) : Host.Outcome State Fault Refusal :=
  act s fun d =>
    if !d.domOn .control || decide (0x1000000 ≤ offset) then d
    else
      let n := sectorAt offset
      match d.readFault n fetch (decide (ecc = 2)) with
      | some st =>
        let d : Dev := { d with cfl := { d.cfl with faults := satAdd 32 d.cfl.faults 1 } }
        let d := d.logSev 0x0109 2 noUnit (fields [(1, st), (2, n), (4, d.cfl.faults)])
        let d := if st = 2 then d.emit (.readData 0) else d
        d.emit (.busError (0x1000000 + offset))
      | none =>
        let d := d.doIf (decide (ecc = 1) && !isParam n) fun d =>
          ({ d with cfl := { d.cfl with eccCorr := satAdd 32 d.cfl.eccCorr 1 } }).modSector n (fun s =>
            { s with corrected := satAdd 32 s.corrected 1 })
        d.doIf (!fetch) fun d => d.emit (.readData (d.flashWord n (offset % sectorLen n / 8)))

/-- XO_UNLOCK: honoured only for a write by an instruction fetched from the ROM while BOT_STATE.STAGE is 2 (R387). -/
def execXoUnlock (fromRom : Bool) (s : State) : Host.Outcome State Fault Refusal :=
  act s fun d =>
    if fromRom && decide (d.bot.stage = 2) then { d with cfl := { d.cfl with xoLock := false } }
    else { d with cfl := { d.cfl with faults := satAdd 32 d.cfl.faults 1 } }

end Sys2Proof.Machine
end

