-- ==== Sys2Proof/Machine/Reset.lean ====
section
/-! DEFINITION. What the resets of the recovery ladder do to the parts of the device (R426, R427, R411, R379, R399): the fast
domains, Ember, and the start of the fast domains. -/

namespace Sys2Proof.Machine

/-! ## Journal records that never became durable (R180, R193) -/

/-- What a record that did not become durable leaves: a block as it was before (R193), no namespace after a create, a
namespace in service after a delete whose action 2 was not durable, a clearing or a Sanitize that goes on (R188, R91,
R476), and READ_ONLY as it was (R200). -/
def Dev.revertRecord (d : Dev) (r : JRec) : Dev :=
  match r.ty, r.b with
  | 3, _ => d.modBlk (pgaDie r.a) (pgaBlock r.a) (fun k => { k with state := r.prev })
  | 6, 0 => match d.ns r.a with
    | some n => d.freeNamespace r.a n
    | none => d
  | 6, 1 => { d with map := { d.map with clears := setIns d.map.clears r.a } }
  | 6, 2 => d.modNs r.a (fun n => if n.deleting then { n with ready := true, deleting := false } else n)
  | 6, 4 => (d.modNs r.a (fun n => { n with readOnly := false })).clearReadOnly
  | 6, 5 => d.modNs r.a (fun n => { n with readOnly := true })
  | 8, _ =>
    if r.a = 2 then { d with nvm := { d.nvm with sanitize := if d.nvm.sanAction = 4 then 1 else 2, sanStatus := 2 } } else d
  | _, _ => d

/-- Records given up, in the order issued: the newest is undone first. -/
def Dev.dropRecords (d : Dev) (l : List JRec) : Dev := d.forEach l.reverse Dev.revertRecord

/-- Power is lost: only durable records are left. -/
def Dev.losePending (d : Dev) : Dev :=
  let gone := d.jrn.ring.filter (fun r => !r.durable) ++ d.jrn.waiting
  let kept := d.jrn.ring.filter (·.durable)
  ({ d with jrn := { d.jrn with ring := kept, waiting := [] } }).dropRecords gone

/-- MRAM writes already issued complete (R427, step 2); what they bring about issues no record that stays. -/
def Dev.completeMram (d : Dev) : Dev :=
  let n := d.jrn.inFlight
  let wait := d.jrn.waiting
  let d : Dev := { d with jrn := { d.jrn with waiting := [] } }
  let d := iter n Dev.recordDurable d
  let gone := wait ++ d.jrn.ring.filter (fun r => !r.durable) ++ d.jrn.waiting
  let kept := d.jrn.ring.filter (·.durable)
  ({ d with jrn := { d.jrn with ring := kept, waiting := [] } }).dropRecords gone

/-! ## Functions (R63 to R65) -/

/-- Functions that exist on the ports of the mode in use. -/
def Dev.allFns (d : Dev) : List Nat := (d.portsUsed.map d.existing).flatten

/-- Step 1 of R65 applies to every function: none of them has work left, and no command gets a completion (R66). -/
def Dev.fenceAll (d : Dev) : Dev :=
  let d := d.forEach d.allFns (fun d f => d.transition (uid 12 f) .quiesced .resetting)
  let d := if d.nvm.selfTest.running ≠ 0 then d.endSelfTest 2 else d
  { d with
    nvm := { d.nvm with cmds := [], fwBuf := {}, fwBusy := none, fwAction := 0, fwSlot := 0, fwImage := none }
    mgt := { d.mgt with busySlots := d.mgt.busySlots.filter (fun k => d.mgt.tunnel.any (fun t => decide (t.1 = k))) }
    wrp := { d.wrp with grans := [] }, rdp := { d.rdp with grans := [] } }

/-- Manifest units of the ports and functions as the host domain starts (R438, R442): functions that exist are alive,
others absent; a port in use waits for its link (log 42). -/
def Dev.startHost (d : Dev) : Dev :=
  let d := d.forEach ((List.range nFn).filter (fun f => d.fnExists f || decide ((d.unit (uid 12 f)).state ≠ .absent))) (fun d f =>
    if d.fnExists f then d.transition (uid 12 f) .alive .none else d.transition (uid 12 f) .absent .notEnabled)
  d.forEach [0, 1] (fun d p =>
    if d.portInUse p then d.transition (uid 11 p) .quiesced .linkDown else d.transition (uid 11 p) .absent .notEnabled)

/-! ## Tollgate pools (R41) -/

/-- Contexts in owner and draining Hearths: the capacity of pool 21 (R258). -/
def Dev.ownerContexts (d : Dev) : Nat := 32 * ((List.range 6).filter (fun h => decide (d.hearthRole h ≠ 0))).length

/-- The capacity of a pool that other state decides, beside pools 5, 6 and 30. -/
def Dev.poolCapNow (d : Dev) (p : Nat) : Nat :=
  match p with
  | 21 => d.ownerContexts
  | 25 => 16 * (d.aliveEngs 0).length
  | 26 => 16 * (d.aliveEngs 1).length
  | 27 => 16 * (d.aliveEngs 2).length
  | _ => poolCap d.blw.dramGiB p

/-- Capacities of pools 21 and 25 to 27 follow the Hearth split and the instances in service. -/
def Dev.recapEngines (d : Dev) : Dev :=
  d.forEach [21, 25, 26, 27] (fun d p => let n := d.poolCapNow p; d.modPool p (fun q => { q with capacity := n }))

/-- A pool as its domain starts: a transient pool at zero; the record of the last check stays. VIOLATIONS and
LOST count anew, as they count since the domain reset (R36). A device reset also clears the VIOLATED flag and
FIRST_VIOLATION (R41); a wake keeps them, since no one has cleared them (log 56). -/
def Pool.restart (q : Pool) (p : Nat) (wake : Bool) : Pool :=
  let keep := wake && q.violated
  let a : Pool := if isPPool p then
    { q with state := .frozen, waiting := [], granted := [], rot := 0, extra := 0, lastServed := 1023 }
  else
    { capacity := q.capacity, checkEpoch := q.checkEpoch, recIssued := q.recIssued, recReturned := q.recReturned
      recLost := q.recLost, recHeld := q.recHeld, recCapacity := q.recCapacity }
  { a with
    violated := keep, firstViolation := if wake then q.firstViolation else 0, violations := 0 }

/-- Pools restart, and allocators that a violation degraded are alive again (R428). -/
def Dev.restartPools (d : Dev) (wake : Bool) : Dev :=
  let pools : FMap Pool := d.tol.pools.map (fun p => (p.1, p.2.restart p.1 wake))
  let d : Dev := { d with tol := { d.tol with pools := pools } }
  if wake then d else
  let d := d.warn 2 false
  d.forEach (List.range 32) (fun d p =>
    if (d.unit (uid 13 p)).state = .degraded then d.transition (uid 13 p) .alive .none else d)

/-! ## The fast domains -/

/-- A map item whose DRAM copy is gone. -/
def Item.cold (i : Item) : Item := { i with cached := false, dirty := false, chunks := 0, oldest := 0 }

/-- A die after a reset of the data domain: what ran on it is cut off, and its tracked sets are those last saved (R157). Its
register is read anew, but through Dormant, where its group stays powered (R166, R418). -/
def Die.restart (x : Die) (dormant : Bool) : Die :=
  { present := dormant && x.present, cell := if dormant then x.cell else 0, profile := if dormant then x.profile else 0
    known := x.known, geo := x.geo, spares := x.spares, fresh := x.fresh, saved := x.saved, offsets := x.saved }

/-- A group as the CRT window starts: its pins stay as Ember drives them, its
channel drivers are at high impedance (R411, R414), and every present group is to be admitted (R163,
R421); a group that stays powered through Dormant is in service as it was. -/
def Cart.restart (c : Cart) (dormant : Bool) : Cart :=
  { presRaw := c.presRaw, present := c.present, pwren := c.pwren, pgood := c.pgood, safe := c.safe, profile := c.profile
    found := c.found, admitted := !dormant && c.present, step := if dormant then c.step else 0 }

/-- A channel through Dormant: its training stands, its counters restart (R418, R166). -/
def Chan.restart (c : Chan) : Chan :=
  { rate := c.rate, trained := c.trained, dies := c.dies, ce := c.ce, trainTj := c.trainTj, zq := c.zq
    nvLpddr4 := c.nvLpddr4, vols := c.vols }

/-- A cut-off program leaves its words open (R391, R393, log 3). -/
def Dev.cutFlash (d : Dev) : Dev :=
  match d.cfl.op with
  | none => d
  | some o =>
    let n := o.sector
    let e := (d.sector n).erases
    let i := o.offset / 8
    let open' := (List.range o.words.length).map (fun j => (Config.flashCell n e (i + j)).toNat)
    if o.isErase then d else d.putWords n i open'

/-- Mailbox rings at a domain reset: empty, and SEQ starts at 1 (R16). Claims of the management plane go on waiting: it stays
on, and no message is dropped (R17). -/
def keptClaims (m : FMap MRing) : FMap MRing :=
  (m.filter (fun p => decide (4 ≤ p.1) && !p.2.stalled.isEmpty)).map (fun p => (p.1, { stalled := p.2.stalled }))

/-- The data, host and memory domains at their reset values. What stays is in MRAM or on the media; with `keepDram` also
the map cache (R416). -/
def Dev.clearData (d : Dev) (keepDram : Bool) : Dev :=
  let cold (m : FMap Item) : FMap Item := if keepDram then m else m.map (fun p => (p.1, p.2.cold))
  let ports : FMap Port := [0, 1].map (fun p => (p, { perst := (d.port p).perst }))
  let fns : FMap Fn := if keepDram then d.fnm.fns.map (fun p => (p.1, { epoch := p.2.epoch })) else []
  let dies : FMap Die := d.mch.dies.map (fun p => (p.1, p.2.restart keepDram))
  let groups : FMap Cart := d.crt.groups.map (fun p => (p.1, p.2.restart keepDram))
  let chans : FMap Chan := if keepDram then d.mch.chans.map (fun p => (p.1, p.2.restart)) else []
  let blocks : FMap Block :=
    if keepDram then d.map.blocks else d.map.blocks.map (fun p => (p.1, { p.2 with reads := 0 }))
  let stripes := d.par.stripes.map (fun s => { s with closed := true })
  { d with
    fab := { mram := d.fab.mram, dram := if keepDram then d.fab.dram else [], rings := keptClaims d.fab.rings }
    hlk := { mode := d.hlk.stored, modeA := d.hlk.modeA, stored := d.hlk.stored, ports := ports }
    fnm := { fns := fns }
    qen := {}
    nvm := { d.nvm with ready := false, noSuperblock := keepDram && d.nvm.noSuperblock }
    wrp := {}, rdp := {}, icm := {}, mxt := {}, ldc := {}
    mch := { chans := chans, dies := dies, stored := d.mch.stored, fill := d.mch.fill, pages := d.mch.pages, given := d.mch.given
             parity := d.mch.parity }
    crt := { groups := groups }
    jrn := { slot := d.jrn.slot, next := d.jrn.next, head := d.jrn.head, supers := d.jrn.supers, ring := d.jrn.ring }
    map := { entries := d.map.entries, leaves := cold d.map.leaves, chunkItems := cold d.map.chunkItems
             dirs := cold d.map.dirs, blocks := blocks, tick := d.map.tick, rootUsed := d.map.rootUsed
             clears := d.map.clears }
    par := { stripes := stripes, strandedSets := d.par.strandedSets, strandedCols := d.par.strandedCols
             released := d.par.released, pointers := d.par.pointers
             poweredMs := d.par.availSaved.1, unavailMs := d.par.availSaved.2, availSaved := d.par.availSaved }
    outr := { stamps := d.outr.saved, saved := d.outr.saved } }

/-- A device reset or a power-on takes up the stored port mode (R44). -/
def Dev.takeMode (d : Dev) : Dev := { d with hlk := { d.hlk with modeA := d.hlk.stored } }

/-- The control domain at its reset values: the vault, code flash, images and the active tables stay. At a Dormant entry
the park area and Tongs shadow copies go too, since no instance or unit is left. A Hearth starts in owner use unless an active
target names its cores (R378). -/
def Dev.clearControl (d : Dev) : Dev :=
  let d := d.cutFlash
  let images : FMap (Option Image) := d.hrt.images.map (fun p => (p.1, p.2.map (fun i =>
    { i with fetched := false, unloading := none, moving := false })))
  let slots : FMap Slot := d.key.slots
  let hearths : FMap Hearth := (List.range 6).map (fun h =>
    (h, { role := if bit d.ownerHearths h && d.icu.srcs.all (fun p => decide (p.2.targetA / 8 ≠ h)) then 1 else 0 }))
  let d : Dev := { d with
    hrt := { images := images, loads := d.hrt.loads, withdrawn := d.hrt.withdrawn, nextWb := d.hrt.nextWb, hearths := hearths }
    tng := {}, cxe := {}, dge := {}, aee := {}
    key := { locked := d.key.locked, cause := d.key.cause, jtag := d.key.jtag, slots := slots, bindings := d.key.bindings
             serials := d.key.serials, internal := d.key.internal, drbg := d.key.drbg, drbgDraws := d.key.drbgDraws
             seeds := d.key.seeds }
    drv := {}
    cfl := { sectors := d.cfl.sectors, cal := d.cfl.cal }
    bot := { activations := d.bot.activations, record := d.bot.record, slots := d.bot.slots, resume := d.bot.resume
             jtagAtEntry := d.bot.jtagAtEntry }
    spdm := { draws := d.spdm.draws } }
  d.forEach (List.range 6) (fun d h =>
    if (d.unit (uid 2 h)).state = .quiesced then d.transition (uid 2 h) .alive .none else d)

/-- The interrupt controller at a device reset: every bank and the source table (R375, R379). -/
def Dev.clearIcu (d : Dev) : Dev := { d with icu := { d.icu with banks := [], srcs := [] } }

/-- The banks of the cores as the control domain stops; service by them ends, and only Ember requests still stand (R379,
R380). -/
def Dev.clearCoreBanks (d : Dev) : Dev :=
  let srcs : FMap Src := d.icu.srcs.map (fun p => (p.1, { p.2 with
    claimedBy := match p.2.claimedBy with
      | some 48 => some 48
      | _ => none
    level := p.2.level && isEmber p.1 }))
  { d with icu := { d.icu with banks := d.icu.banks.filter (fun p => decide (p.1 = 48)), srcs := srcs } }

/-- Units tested again at a device reset or wake: those in `failed` fail, the others are alive again (R426, R418). -/
def Dev.retest (d : Dev) (failed : List Nat) : Dev :=
  let d := d.forEach (List.range 32) (fun d n =>
    if (d.unit (uid 6 n)).state = .retired then
      if uid 6 n ∈ failed then d.modLane n (fun l => { l with retired := true }) else d.transition (uid 6 n) .alive .none
    else d)
  let d := d.forEach [0, 1, 2] (fun d e => d.forEach (List.range 8) (fun d i =>
    if (d.unit (uid (7 + e) i)).state = .retired then
      if uid (7 + e) i ∈ failed then d.modEng e i (fun x => { x with retired := true })
      else d.transition (uid (7 + e) i) .alive .none
    else d))
  d.recapEngines

/-- Bellows switches the fast domains: on in the order memory, control, data, host, off in the reverse order (R413). -/
def Dev.switchFast (d : Dev) (on : Bool) : Dev :=
  let order : List (PinName) := if on then [.memory, .control, .data, .host] else [.host, .data, .control, .memory]
  let d : Dev := { d with blw := { d.blw with
    on := if on then [.host, .data, .control, .memory] else []
    inReset := if on then [] else [.host, .data, .control, .memory]
    osc25 := on, pll := if on then [0, 1, 2, 3] else [] } }
  d.forEach order (fun d p => d.emit (.pin p 0 on))

/-- The watchdog restarts in RUN as the control domain starts (R403). -/
def Dev.startWdt (d : Dev) : Dev := { d with wdt := { d.wdt with state := 0, count := d.wdt.t1A } }

/-- Transitions made while the data domain was off reach MRAM (R442). -/
def Dev.syncManifest (d : Dev) : Dev := { d with mnf := { d.mnf with copy := d.mnf.units } }

/-- Step 4 of R421: the fast domains come on, the watchdog and the banks start, and retired units are tested again. The boot
ROM, cartridge admission and recovery follow as steps of their own. -/
def Dev.startFast (d : Dev) (sequence : Nat) (failed : List Nat) : Dev :=
  let d := (d.switchFast true).syncManifest.startWdt
  let d : Dev := { d with
    blw := { d.blw with seq := sequence, step := 4, wakeReq := none }
    emb := { d.emb with idleMs := 0, tripped := false, orderly := false } }
  ((d.restartPools (decide (sequence = 4 ∨ sequence = 5))).retest failed).startHost

/-! ## Device reset, loss of the fast domains, power-on -/

/-- The part of a device reset before the restart: every function fenced, issued MRAM writes complete, the fast domains
reset (R427). KEY leaves LOCKED unless JTAG was unlocked (R336), and the state-wrap key is created anew (R321). -/
def Dev.resetFast (d : Dev) : Dev :=
  let d := (((d.fenceAll.completeMram).clearData false).clearControl).clearIcu
  let d : Dev := { d with
    key := { d.key with locked := d.key.jtag, cause := if d.key.jtag then d.key.cause else [] }
    bot := { d.bot with resume := none } }
  (d.newIkey 1).takeMode

/-- An abrupt device reset with its causes (R427). -/
def Dev.abruptReset (d : Dev) (causes failed : List Nat) : Dev :=
  let d := d.resetFast
  let d : Dev := { d with emb := { d.emb with cause := causes, mode := .idleReady, selfRefresh := false } }
  d.startFast 2 failed

/-- A slot after power-up: USES restarts at USES_HW, and a slot whose limit the skipped uses have reached admits no further use
(R328). -/
def Slot.afterPower (k : Slot) : Slot :=
  { k with uses := k.usesHw, state := if k.state = 1 ∧ k.ktype ≠ 4 ∧ 2 ^ k.limitLog ≤ k.usesHw then 2 else k.state }

/-- KEY loses power. -/
def Dev.keyOff (d : Dev) : Dev :=
  let slots : FMap Slot := d.key.slots.map (fun p => (p.1, p.2.afterPower))
  { d with key := { d.key with slots := slots } }

/-- The fast domains lose power: a power loss to the data plane (R411, R424). Records whose MRAM write has not completed
are lost; USES restart at USES_HW when power returns (R328), and reservations without Persist Through Power Loss go. -/
def Dev.fastLost (d : Dev) : Dev :=
  let d := ((((d.fenceAll.losePending).clearData false).clearControl).clearCoreBanks).keyOff
  let nss : FMap (Option Ns) := d.nvm.nss.map (fun p => (p.1, p.2.map (fun n => { n with resv := n.resv.afterPowerLoss })))
  let d : Dev := { d with
    nvm := { d.nvm with nss := nss }
    bot := { d.bot with resume := none } }
  d.switchFast false

/-- A Manifest record at a power-on reset: GENERATION, TRANSITIONS and the rest of the copy stand; STATE, REASON and DETAIL
persist for groups and RETIRED for dies, the others are as at manufacture (R442). -/
def MUnit.powerOn (u : MUnit) (id : Nat) : MUnit :=
  let ty := id / 2 ^ 24
  let i := unitInit id
  let u := { u with quiescing := false, pending := none }
  if ty = 5 ∨ (ty = 4 ∧ u.state = .retired) then u
  else { u with state := i.state, reason := i.reason, detail := 0 }

/-- A power-on reset of the whole device: Ember at its reset values, MRAM, code flash and the key vault with their contents
(R426). The event log is read from its mirror (R445); the JTAG lock ends (R336). -/
def Dev.powerOn (d : Dev) : Dev :=
  let d := d.fastLost.takeMode
  let units : FMap MUnit := d.mnf.copy.map (fun p => (p.1, p.2.powerOn p.1))
  let groups : FMap Cart := d.crt.groups.map (fun p => (p.1, { p.2 with
    present := false, pwren := false, pgood := false, safe := false, admitted := false }))
  let pools : FMap Pool := d.tol.pools.map (fun p => (p.1,
    { poolInit d.blw.dramGiB p.1 with
      capacity := p.2.capacity, recCapacity := p.2.capacity, held := if isPPool p.1 then p.2.held else 0
      issued := if isPPool p.1 then p.2.issued else 0, returned := if isPPool p.1 then p.2.returned else 0
      shares := if isPPool p.1 then p.2.shares else [] }))
  { d with
    clk := { timeLast := d.clk.timeLast, timeBase := d.clk.timeLast }
    tol := { pools := pools }
    key := { d.key with locked := false, cause := [], jtag := false }
    icu := {}
    wdt := {}
    bot := { d.bot with activations := 0 }
    mnf := { units := units, copy := d.mnf.copy }
    evl := { d.evl with lost := 0 }
    mgt := { vpd := d.mgt.vpd }
    crt := { d.crt with groups := groups }
    emb := { extended := d.emb.extended }
    nvm := { d.nvm with critical := d.nvm.critical.filter (fun b => decide (b = 3)) }
    blw := { dramGiB := d.blw.dramGiB, railsBad := d.blw.railsBad } }

end Sys2Proof.Machine
end

