-- ==== Sys2Proof/Machine/Boot.lean ====
section
/-! DEFINITION. Boot records (R396, R397), the boot ROM (R398 to R401), the confirmation of a trial, and the watchdog (R403). -/

namespace Sys2Proof.Machine

/-! ## Boot records in P0 and P1 (R396) -/

/-- Sector and first word of record slot `i`, 0 to 255. -/
def recSector (i : Nat) : Nat := 0x100 + i / 128
def recWord (i : Nat) : Nat := 8 * (i % 128)

/-- The bytes of a record slot. -/
def Dev.recBytes (d : Dev) (i : Nat) : Bytes :=
  ((List.range 8).map (fun j => leBytes 8 (d.flashWord (recSector i) (recWord i + j)))).flatten

/-- The bytes that the CRC32C of a record covers: 0x00 to 0x0F and 0x20 to 0x3B. -/
def crcPart (b : Bytes) : Bytes := b.take 16 ++ (b.drop 32).take 28

/-- MAGIC of a record, as its first word's low half. -/
def recMagic : Nat := 0x43455242

/-- The record in a slot, if one stands there with a correct CRC32C. -/
def Dev.recAt (d : Dev) (i : Nat) : Option BootRec :=
  if d.flashWord (recSector i) (recWord i) % 2 ^ 32 ≠ recMagic then none
  else
    let b := d.recBytes i
    if fieldAt b 0x3C 4 ≠ crc32c (crcPart b) then none
    else
      let t := fieldAt b 0x10 8
      some { slot := fieldAt b 4 1 % 2, trial := bit (fieldAt b 5 1) 0, minSvn := fieldAt b 6 2, seq := fieldAt b 8 8
             tries := if bit t 1 then (if bit t 0 then 0 else 1) else 2, confirmed := decide (fieldAt b 0x18 8 = 0) }

/-- The current record with its slot: the highest SEQ among those with a correct CRC32C. -/
def Dev.currentRec (d : Dev) : Option (Nat × BootRec) :=
  (List.range 256).foldl (fun a i => match d.recAt i, a with
    | some r, some (j, q) => if q.seq < r.seq then some (i, r) else some (j, q)
    | some r, none => some (i, r)
    | none, _ => a) none

/-- The current record; a device that has never written one has that of log 20. -/
def Dev.bootRec (d : Dev) : BootRec := match d.currentRec with
  | some (_, r) => r
  | none => d.bot.record

/-- The 64 bytes of a new record. -/
def BootRec.bytes (r : BootRec) : Bytes :=
  let b := leBytes 4 recMagic ++ leBytes 1 r.slot ++ leBytes 1 (b2n r.trial) ++ leBytes 2 r.minSvn ++ leBytes 8 r.seq ++
    List.replicate 16 0xFF#8 ++ zeroBytes 28
  b ++ leBytes 4 (crc32c (crcPart b))

/-- Writes a new record into the first erased slot of the current sector, or at the start of the other sector, erased first
(R396). -/
def Dev.writeRec (d : Dev) (slot : Nat) (trial : Bool) (minSvn : Nat) : Dev :=
  let r : BootRec := { slot := slot, trial := trial, minSvn := minSvn, seq := d.bootRec.seq + 1 }
  let cur := match d.currentRec with
    | some (i, _) => i / 128
    | none => 0
  let free (i : Nat) : Bool := (List.range 8).all (fun j => decide (d.flashWord (recSector i) (recWord i + j) = allOnes))
  let d : Dev := { d with bot := { d.bot with record := r } }
  match ((List.range 128).map (· + 128 * cur)).find? free with
  | some i => d.putWords (recSector i) (recWord i) (wordsOf r.bytes)
  | none =>
    let n := 0x101 - cur
    ((d.beginSectorErase n).modSector n Sector.erased).putWords n 0 (wordsOf r.bytes)

/-- Programs one word of the current record. -/
def Dev.putRecWord (d : Dev) (j w : Nat) : Dev := match d.currentRec with
  | some (i, _) => d.putWords (recSector i) (recWord i + j) [w]
  | none => d

/-! ## Images (R395, R398 step 3) -/

/-- The greatest length of an image: 123 sectors (R384). -/
def slotBytes : Nat := 8060928

/-- The fields of an image, with the ranges of R395; `cert` is the public key of its signing certificate where that chains to
the root key, and `profiles` are the die profiles of its list. -/
def fwParse (b : Bytes) (cert : Option Bytes) (profiles : List DieProfile) : Option FwImage :=
  let len := fieldAt b 4 4
  let sig := fieldAt b 0x28 4
  let flags := fieldAt b 0x12 2
  let svn := fieldAt b 0x10 2
  let entry := fieldAt b 0x14 4
  let xo := (List.range 8).map (fun i => (fieldAt b (0x18 + 2 * i) 1, fieldAt b (0x19 + 2 * i) 1))
  let ok := decide (fieldAt b 0 4 = 0x31574652 ∧ len ≤ slotBytes ∧ len % 4096 = 0 ∧ len ≤ b.length ∧ 1 ≤ svn ∧ flags < 4) &&
    decide (sig % 4096 = 0 ∧ 256 ≤ sig ∧ sig + 96 ≤ len ∧ entry < sig ∧ fieldAt b 0x2C 4 < sig) &&
    xo.all (fun p => decide (p.2 = 0 ∨ p.1 + p.2 ≤ 123)) && decide (slice b 0x30 208 = zeroBytes 208)
  if !ok then none
  else
    let dig := sha384 (b.take sig)
    let good := match cert with
      | some k => ecdsaVerify k dig (slice b sig 48) (slice b (sig + 48) 48)
      | none => false
    some { len := len, version := fieldAt b 8 8, svn := svn, requiresReset := bit flags 0, raiseFloor := bit flags 1
           entry := entry, xo := xo, bytes := b.take len, digest := dig, isSigned := good, profiles := profiles }

/-- The checks of step 3 on an image: certificate chain and signature, and SVN at or above MIN_SVN. -/
def FwImage.passes (i : FwImage) (minSvn : Nat) : Bool := i.isSigned && decide (minSvn ≤ i.svn)

/-- The image of a slot. -/
def Dev.fwSlotImage (d : Dev) (k : Nat) : Option FwImage := fget d.bot.slots none k

/-- Whether a slot passes step 3. -/
def Dev.slotOk (d : Dev) (k : Nat) : Bool := match d.fwSlotImage k with
  | some i => i.passes d.bootRec.minSvn
  | none => false

/-! ## Step 5: measurements, alias key, execute-only regions -/

/-- The measurements of R401. -/
def Dev.measurements (d : Dev) (i : FwImage) : List Bytes :=
  [(List.range 48).map Config.romDigest, i.digest, leBytes 2 i.svn ++ leBytes 2 d.bootRec.minSvn, leBytes 1 (b2n d.key.jtag),
   sha384 ((policyIds.map d.tbl).flatten)]

/-- The regions of an image in the sectors of its slot (R387, R395). -/
def FwImage.regions (i : FwImage) (slot : Nat) : FMap Xo :=
  i.xo.zipIdx.map (fun p => (p.2, if p.1.2 = 0 then {} else
    { first := slotFirst slot + p.1.1, last := slotFirst slot + p.1.1 + p.1.2 - 1, valid := true }))

/-- Steps 5 and 6 on a slot that has passed: measurements, alias key, regions set and locked, and the jump to ENTRY. -/
def Dev.startSlot (d : Dev) (k : Nat) : Dev :=
  match d.fwSlotImage k with
  | none => d
  | some i =>
    let r := d.bootRec
    let m := d.measurements i
    let aliasPriv := beBytes 48 (ofBe ((hmac 1 ((List.range 48).map (Config.secret 2)) i.digest).take 48) % p384N)
    { d with
      bot := { d.bot with
        stage := 1, slot := k, trial := r.trial && !r.confirmed && decide (r.slot = k), svn := i.svn, minSvn := r.minSvn
        recSeq := r.seq, measure := m, aliasKey := aliasPriv, record := r }
      cfl := { d.cfl with xo := i.regions k, xoLock := true }
      key := { d.key with workLoaded := !d.key.locked } }

/-- The accounting of R397 on the current record: the boots of a trial are counted, and the third one falls back. -/
def Dev.countTrial (d : Dev) : Dev :=
  let r := d.bootRec
  if r.trial && !r.confirmed then
    match r.tries with
    | 0 => d.putRecWord 2 (2 ^ 64 - 2)
    | 1 => d.putRecWord 2 (2 ^ 64 - 4)
    | _ =>
      let d : Dev := { d with bot := { d.bot with fallback := true } }
      d.writeRec (1 - r.slot) false r.minSvn
  else d

/-- BOOT: steps 1 to 6 of R398; `us` is their time. Step 1 sets the watchdog running with its active T1. -/
def execBoot (us : Nat) (s : State) : Host.Outcome State Fault Refusal :=
  act s fun d =>
    if d.bot.stage ≠ 0 ∨ d.domOn .control = false then d
    else
      let d := d.startWdt.countTrial
      let d : Dev := { d with bot := { d.bot with bootUs := min us (2 ^ 24 - 1) } }
      let r := d.bootRec
      if d.slotOk r.slot then d.startSlot r.slot
      else if d.slotOk (1 - r.slot) then
        let d := d.writeRec (1 - r.slot) false r.minSvn
        let d : Dev := { d with bot := { d.bot with fallback := true } }
        d.startSlot (1 - r.slot)
      else { d with bot := { d.bot with stage := 3, slot := r.slot, minSvn := r.minSvn, recSeq := r.seq } }

/-- TRIAL_CONFIRM: firmware has served for 10 s with no fatal error; it programs CONFIRM to 0, and with RAISE_FLOOR it writes
a record with MIN_SVN equal to its image's SVN (R397). -/
def execTrialConfirm (s : State) : Host.Outcome State Fault Refusal :=
  act s fun d =>
    if d.bot.stage ≠ 1 ∨ d.bot.trial = false then d
    else
      let d := d.putRecWord 3 0
      let d : Dev := { d with bot := { d.bot with trial := false, record := { d.bot.record with confirmed := true } } }
      match d.fwSlotImage d.bot.slot with
      | some i =>
        if i.raiseFloor then
          let d := d.writeRec d.bot.slot false i.svn
          { d with bot := { d.bot with minSvn := i.svn, recSeq := d.bot.record.seq } }
        else d
      | none => d

/-! ## The watchdog (R403) -/

/-- Ticks of the longest accounting epoch (R38). The count is brought down at each boundary, so an expiry can fall once at
most that many are left. -/
def epochTicksMax : Nat := 33

/-- A write of WDT_KICK. -/
def Dev.kick (d : Dev) (key : Nat) : Dev :=
  if key % 65536 = 0x4B1C then { d with wdt := { d.wdt with state := 0, count := d.wdt.t1A } }
  else { d with wdt := { d.wdt with badKick := satAdd 32 d.wdt.badKick 1 } }

/-- WDT_KICK. -/
def execWdtKick (key : Nat) (s : State) : Host.Outcome State Fault Refusal := act s fun d => d.kick key

/-- WDT_STAGE1_EXPIRY: shared ID 79 is raised, and the counter loaded with T2 × 8. -/
def execWdtStage1Expiry (s : State) : Host.Outcome State Fault Refusal :=
  act s fun d =>
    if d.domOn .control && decide (d.wdt.state = 0 ∧ d.wdt.count ≤ epochTicksMax) then
      ({ d with wdt := { d.wdt with
        state := 1, count := 8 * d.wdt.t2A, stage1 := satAdd 32 d.wdt.stage1 1 } }).srcEvent 79
    else d

/-- A device reset by the watchdog, deferred by `us`. -/
def Dev.wdtReset (d : Dev) (us : Nat) (failed : List Nat) : Dev :=
  ({ d with wdt := { d.wdt with resets := satAdd 32 d.wdt.resets 1, deferUs := min us 260000 } }).abruptReset [3] failed

/-- WDT_STAGE2_EXPIRY: with a program or erase running or suspended the reset is deferred, and a suspended erase resumes at
once; else the device is reset. -/
def execWdtStage2Expiry (failed : List Nat) (s : State) : Host.Outcome State Fault Refusal :=
  act s fun d =>
    if d.domOn .control && decide (d.wdt.state = 1 ∧ d.wdt.count ≤ epochTicksMax) then
      if d.cfl.op.isSome then
        let d : Dev := { d with wdt := { d.wdt with state := 2, count := 0 } }
        if d.cfl.suspended then d.resumeErase 0 else d
      else d.wdtReset 0 failed
    else d

/-- WDT_DEFERRED_RESET: the operation has ended or been stopped; `us` is the deferral. -/
def execWdtDeferredReset (us : Nat) (failed : List Nat) (s : State) : Host.Outcome State Fault Refusal :=
  act s fun d => if d.wdt.state = 2 ∧ d.cfl.op = none then d.wdtReset us failed else d

end Sys2Proof.Machine
end

