-- ==== Sys2Proof/Machine/Firmware.lean ====
section
/-! DEFINITION. Firmware Image Download, Firmware Commit and activation (R402, R404 to R406). -/

namespace Sys2Proof.Machine

/-- FIRMWARE_IMAGE_DOWNLOAD: a piece at an offset in bytes, in multiples of 4 KiB (FWUG); a piece that overlaps one held is
refused. -/
def execFirmwareImageDownload (ref : CmdRef) (offset : Nat) (data : Option Bytes) (s : State) :
    Host.Outcome State Fault Refusal :=
  act s fun d => d.pfAdmin ref fun d =>
    match data with
    | none => d.complete ref .dataTransferError
    | some b =>
      let n := b.length
      if n = 0 ∨ n % 4096 ≠ 0 ∨ offset % 4096 ≠ 0 ∨ slotBytes < offset + n then d.complete ref .invalidField
      else if d.nvm.fwBuf.pieces.any (fun p => decide (p.1 < offset + n ∧ offset < p.1 + p.2)) then
        d.complete ref .overlappingRange
      else
        let f : FwBuf := { pieces := d.nvm.fwBuf.pieces ++ [(offset, n)], bytes := mwrite d.nvm.fwBuf.bytes offset b }
        (({ d with nvm := { d.nvm with fwBuf := f } }).hostRead ref.fix n).complete ref .success

/-- The downloaded bytes from offset 0 on, without a gap. -/
def FwBuf.image (f : FwBuf) : Bytes :=
  let total := (f.pieces.map (·.2)).sum
  if f.pieces.all (fun p => decide (p.1 + p.2 ≤ total)) then mread f.bytes 0 total else []

/-- The slot that FS names: 0 the one that is not running, 1 A, 2 B. -/
def Dev.fsSlot (d : Dev) (fs : Nat) : Option Nat :=
  if fs = 0 then some (1 - d.bot.slot) else if fs ≤ 2 then some (fs - 1) else none

/-- Writes the trial record that names a slot. -/
def Dev.trialRec (d : Dev) (slot : Nat) : Dev := d.writeRec slot true d.bootRec.minSvn

/-- A controller's Firmware Activation Starting event where it is enabled (NVMe 2.1, log 38). -/
def Dev.postActivation (d : Dev) : Dev :=
  d.forEach ((d.fnm.fns.filter (fun p => p.2.ccEn && bit p.2.feat.asyncCfg 9)).map (·.1)) (fun d f => d.postAen f 2 1 3)

/-- Step 1 of R404 after the trial record: fetch stops on every function, and the command waits for the new firmware. -/
def Dev.beginActivation (d : Dev) (ref : CmdRef) : Dev :=
  let d := d.postActivation.modCmd ref (fun c => { c with job := .fwActivate, started := true })
  { d with
    qen := { d.qen with pausedAct := true }, bot := { d.bot with stage := 2 }
    nvm := { d.nvm with fwBusy := some ref, fwAction := 3 } }

/-- What follows a slot that stands written or stored, by Commit Action. -/
def Dev.afterImage (d : Dev) (ref : CmdRef) (action slot : Nat) (i : FwImage) : Dev :=
  let d : Dev := { d with nvm := { d.nvm with fwBusy := none, fwImage := none } }
  if action = 0 then d.complete ref .success
  else
    let d := d.trialRec slot
    if action ≠ 3 then d.complete ref .success
    else if i.requiresReset then d.complete ref .fwNeedsReset
    else
      let d := d.beginActivation ref
      { d with nvm := { d.nvm with fwSlot := slot } }

/-- The checks of R402 on a Firmware Commit, in their order; `b` is the buffer as it stood. Writing a downloaded image begins
here and ends at FIRMWARE_SLOT_WRITTEN. -/
def Dev.commitChecked (d : Dev) (ref : CmdRef) (action fs : Nat) (b : FwBuf) (cert : Option Bytes) (profiles : List DieProfile) :
    Dev :=
  if d.nvm.fwBusy.isSome ∨ d.nvm.sanitize ≠ 0 then d.complete ref .fwProhibited
  else match d.fsSlot fs with
    | none => d.complete ref .invalidFwSlot
    | some slot =>
      let fresh := decide (action ≠ 2) && (!b.pieces.isEmpty || decide (action ≠ 3))
      if fresh && !b.pieces.isEmpty && decide (slot = d.bot.slot) then d.complete ref .invalidFwSlot
      else
        let img := if fresh then fwParse b.image cert profiles else d.fwSlotImage slot
        match img with
        | none => d.complete ref .invalidFwImage
        | some i =>
          if !i.passes d.bootRec.minSvn then d.complete ref .invalidFwImage
          else if fresh then
            let d := d.modCmd ref (fun c => { c with job := .fwSlot, started := true })
            { d with
              bot := { d.bot with slots := fset d.bot.slots slot none }
              nvm := { d.nvm with fwBusy := some ref, fwAction := action, fwSlot := slot, fwImage := some i } }
          else d.afterImage ref action slot i

/-- A Firmware Commit empties the buffer, whatever its outcome. -/
def Dev.fwCommit (d : Dev) (ref : CmdRef) (action fs : Nat) (cert : Option Bytes) (profiles : List DieProfile) : Dev :=
  d.pfAdmin ref fun d =>
    let b := d.nvm.fwBuf
    let d : Dev := { d with nvm := { d.nvm with fwBuf := {} } }
    if action ≤ 3 then d.commitChecked ref action fs b cert profiles else d.complete ref .invalidField

/-- FIRMWARE_COMMIT_REPLACE: Commit Action 0; an action that is not supported, such as 6 or 7, is refused. -/
def execFirmwareCommitReplace (ref : CmdRef) (action fs : Nat) (cert : Option Bytes) (profiles : List DieProfile) (s : State) :
    Host.Outcome State Fault Refusal :=
  act s fun d => d.fwCommit ref (if action = 0 then 0 else 6) fs cert profiles

/-- FIRMWARE_COMMIT_REPLACE_ACTIVATE: Commit Action 1. -/
def execFirmwareCommitReplaceActivate (ref : CmdRef) (fs : Nat) (cert : Option Bytes) (profiles : List DieProfile) (s : State) :
    Host.Outcome State Fault Refusal :=
  act s fun d => d.fwCommit ref 1 fs cert profiles

/-- FIRMWARE_COMMIT_ACTIVATE: Commit Action 2, on the image that the slot holds. -/
def execFirmwareCommitActivate (ref : CmdRef) (fs : Nat) (s : State) : Host.Outcome State Fault Refusal :=
  act s fun d => d.fwCommit ref 2 fs none []

/-- Whether step 2 of R404 is done: no fetched command is left but Compute Submit, event requests and the commit itself. -/
def Dev.quietForActivation (d : Dev) (ref : CmdRef) : Bool :=
  d.nvm.cmds.all (fun c => decide (c.ref = ref) || (match c.job with
    | .compute _ | .aer => true
    | _ => false))

/-- Steps 3 to 6 of R404: the ROM checks and starts the new slot, the watchdog's stage one restarts with T1, the new firmware
takes the hand-over, fetch resumes and the command completes. `us` is the pause, at most 200 ms: a longer one ends in a device
reset (R405, ACTIVATION_TIMEOUT). -/
def Dev.finishActivation (d : Dev) (ref : CmdRef) (us : Nat) : Dev :=
  let k := d.nvm.fwSlot
  if !d.quietForActivation ref || !d.slotOk k || decide (200000 < us) then d
  else
    let d := (d.startSlot k).startWdt
    let d : Dev := { d with
      qen := { d.qen with pausedAct := false }
      nvm := { d.nvm with fwBusy := none, fwAction := 0 }
      bot := { d.bot with pauseUs := us, activations := satAdd 32 d.bot.activations 1 } }
    d.complete ref .success

/-- FIRMWARE_COMMIT_ACTIVATE_NOW: Commit Action 3. Run again for a commit whose activation has begun, it ends the activation
after a pause of `us`; so too where a function reset has removed the command (R66). -/
def execFirmwareCommitActivateNow (ref : CmdRef) (fs us : Nat) (cert : Option Bytes) (profiles : List DieProfile) (s : State) :
    Host.Outcome State Fault Refusal :=
  act s fun d =>
    match d.cmd ref with
    | some c =>
      if c.job = .fwActivate then (if d.bot.stage = 2 then d.finishActivation ref us else d)
      else d.fwCommit ref 3 fs cert profiles
    | none => if d.bot.stage = 2 ∧ d.nvm.fwBusy = some ref then d.finishActivation ref us else d

/-- The sectors of a slot, erased and programmed with the bytes of an image; `i` is what the ROM's checks read in them, none
where a range check fails. -/
def Dev.rewriteSlot (d : Dev) (k : Nat) (b : Bytes) (i : Option FwImage) : Dev :=
  let d := d.forEach (List.range 123) (fun d j =>
    let n := slotFirst k + j
    ((d.beginSectorErase n).modSector n Sector.erased).putWords n 0 (wordsOf (slice b (65536 * j) 65536)))
  { d with bot := { d.bot with slots := fset d.bot.slots k i } }

/-- FIRMWARE_SLOT_WRITTEN: the 123 sectors are written, and the read-back and second check end with `ok`. -/
def execFirmwareSlotWritten (ok : Bool) (s : State) : Host.Outcome State Fault Refusal :=
  act s fun d =>
    match d.nvm.fwBusy, d.nvm.fwImage with
    | some ref, some i =>
      let k := d.nvm.fwSlot
      let a := d.nvm.fwAction
      let d := d.rewriteSlot k i.bytes (some i)
      if ok then d.afterImage ref a k i
      else
        let d : Dev := { d with
          bot := { d.bot with slots := fset d.bot.slots k none }
          nvm := { d.nvm with fwBusy := none, fwImage := none } }
        d.complete ref .invalidFwImage
    | _, _ => d

/-- ACTIVATION_TIMEOUT: the new image is invalid, or the new firmware has not resumed by 200 ms; the excess of the pause makes
the time unavailable (R405, R229). -/
def execActivationTimeout (failed : List Nat) (s : State) : Host.Outcome State Fault Refusal :=
  act s fun d => if d.bot.stage = 2 then d.abruptReset [4] failed else d

end Sys2Proof.Machine
end

