-- ==== Sys2Proof/Machine/Recovery.lean ====
section
/-! DEFINITION. Recovery of the journal (R194, R195), the recount of the persistent pools (R41), and what recovery resumes
(R155, R188, R91, R193, R236). -/

namespace Sys2Proof.Machine

/-! ## Steps 1 and 2: superblock and ring -/

/-- NO_VALID_SUPERBLOCK (R195). -/
def Dev.lostSuperblock (d : Dev) : Dev :=
  let nss : FMap (Option Ns) := d.nvm.nss.map (fun p => (p.1, p.2.map (fun n => { n with attached := [] })))
  let d : Dev := { d with nvm := { d.nvm with nss := nss, noSuperblock := true } }
  ((d.warn 2 true).warn 3 true).log 0x010C noUnit []

/-- Items that records still needed change are pending again (R181): the cache is cold or as Dormant kept it. -/
def Dev.pendAgain (d : Dev) : Dev :=
  d.forEach d.jrn.ring (fun d r =>
    d.forEach (r.items.filter (fun p => decide ((d.item p.1 p.2).flushSeq < r.seq))) (fun d p =>
      d.modItem p.1 p.2 (fun i => { i with oldest := if i.dirty then i.oldest else r.seq, dirty := true })))

/-- How a slot that holds no record of the ring ends the scan (R180, R202): by its bytes, 1 CRC failure, 2 invalid TYPE, or 0,
since no SEQ ever repeats. -/
def Dev.slotStop (d : Dev) (i : Nat) : Nat :=
  let b := d.mramRead (0x400000 + 64 * i) 64
  if crc32c (overlay b 12 (zeroBytes 4)) ≠ fieldAt b 12 4 then 1
  else if fieldAt b 8 1 < 1 ∨ 9 < fieldAt b 8 1 then 2 else 0

/-- Whether a record follows a SEQ validly (R180). -/
def JRec.follows (r : JRec) (prev : Nat) : Bool := decide (r.seq = prev + 1) || decide (r.ty = 7 ∧ r.a = prev)

/-- The scan of the ring from a slot on, over at most `n` slots: the records that follow validly, and STOP. A write that power
loss cut off leaves its slot torn, which no durable record's is (R180). -/
def Dev.scanRing (d : Dev) (torn : List Nat) (n slot prev : Nat) : List JRec × Nat :=
  match n with
  | 0 => ([], 3)
  | k + 1 =>
    match d.jrn.ring.find? (fun r => r.slot = slot) with
    | some r =>
      if r.follows prev then
        let (l, stop) := d.scanRing torn k ((slot + 1) % ringSlots) r.seq
        (r :: l, stop)
      else ([], 0)
    | none => ([], if slot ∈ torn then 1 else d.slotStop slot)

/-- Steps 1 and 2 with a valid superblock: the ring is read from HEAD_SLOT, and JRN_NEXT_SEQ follows the last record found. -/
def Dev.readRing (d : Dev) (torn : List Nat) : Dev :=
  let sb := d.jrn.super
  let (l, stop) := d.scanRing torn ringSlots sb.slot (sb.head - 1)
  let (last, slot) := match l.getLast? with
    | some r => (r.seq, (r.slot + 1) % ringSlots)
    | none => (sb.head - 1, sb.slot)
  ({ d with jrn := { d.jrn with
    step := 2, replayed := l.length, stop := stop, torn := satAdd 32 d.jrn.torn (if stop = 1 then 1 else 0)
    head := sb.head, next := last + 1, slot := slot
    ring := d.jrn.ring.filter (fun r => decide (r.seq ≤ last)) } }).pendAgain

/-- RECOVERY_START: `copies` are the superblock copies whose CRC32C fails (0 A, 1 B), `torn` the ring slots whose write was cut
off. The valid copy with the higher GENERATION is chosen (R182, R193). -/
def execRecoveryStart (copies torn : List Nat) (s : State) : Host.Outcome State Fault Refusal :=
  act s fun d =>
    if d.domOn .data = false ∨ d.nvm.ready = true ∨ d.jrn.step ≠ 0 then d
    else
      let d := d.losePending
      let supers : FMap Super := d.jrn.supers.map (fun p => if p.1 ∈ copies then (p.1, {}) else p)
      let d : Dev := { d with jrn := { d.jrn with supers := supers } }
      if d.jrn.sbOk then d.readRing torn
      else ({ d with jrn := { d.jrn with step := 2, replayed := 0, stop := 0, ring := [] } }).lostSuperblock

/-! ## Step 3 -/

/-- Whether a present group has still to reach step 6 of R163. -/
def Dev.admitting (d : Dev) : Bool :=
  (List.range 8).any (fun g => (d.grp g).present && ((d.grp g).admitted || decide ((d.grp g).step = 1 ∨ (d.grp g).step = 2)))

/-- RECOVERY_BLOCK_TABLE_LOAD. -/
def execRecoveryBlockTableLoad (s : State) : Host.Outcome State Fault Refusal :=
  act s fun d =>
    if d.jrn.step = 2 ∧ d.admitting = false then
      let chunks : FMap Item := d.map.chunkItems.map (fun p => (p.1, { p.2 with cached := true, chunks := d.itemChunks 2 p.1 }))
      { d with jrn := { d.jrn with step := 3 }, map := { d.map with chunkItems := chunks } }
    else d

/-! ## Step 4: what R193 queues and what is resumed -/

/-- Open blocks are closed with reason RECOVERY_CLOSE; a FULL block without valid units goes to ERASE_QUEUED. -/
def Dev.closeOpen (d : Dev) : Dev :=
  let opened := (d.map.blocks.filter (fun p => decide (p.2.state = 1))).map (·.1)
  (d.forEach opened (fun d k => d.closeBlock (k / 8160) (k % 8160) 7)).sweepBlocks

/-- Leaves that pending MAP_CLEAR records name are loaded, and cleared by them (step 4 of R194). -/
def Dev.loadCleared (d : Dev) : Dev :=
  let l := (d.jrn.ring.filter (fun r => decide (r.ty = 2))).map (fun r => leafOf r.a)
  d.forEach (l.eraseDups.filter (fun i => (d.item 0 i).there && (d.item 0 i).dirty && !(d.item 0 i).cached)) (fun d i =>
    (((d.roomOver (d.itemChunks 0 i) (dirOfLeaf i)).readPages (pgaDie (d.item 0 i).ptr) (pgaBlock (d.item 0 i).ptr) 1 4).modItem 0 i
      (fun x => { x with cached := true, chunks := d.itemChunks 0 i })).useItem 0 i)

/-- Mapped granules of stripes that were never sealed are moved. -/
def Dev.moveUnsealed (d : Dev) : Dev :=
  let hit (e : GEntry) : Bool := (d.pusOf e.pga e.units).any (fun u =>
    d.par.stripes.any (fun s => s.is (colOf (pgaDie e.pga)) (pgaBlock e.pga) u))
  let l := d.map.entries.filterMap (fun p => p.2.bind (fun e => if hit e then some (p.1, e) else none))
  let d := d.layAgain (fun a => (d.pusOf a 256).any (fun u =>
    d.par.stripes.any (fun s => s.is (colOf (pgaDie a)) (pgaBlock a) u)))
  let d : Dev := { d with par := { d.par with stripes := [] } }
  d.forEach l (fun d p => d.startMove p.1 p.2 4)

/-- Erases of ERASE_QUEUED blocks begin again, and the handling of R220 goes on (R155, R190). -/
def Dev.resumeErases (d : Dev) : Dev :=
  let there := (List.range 8).filter (fun g => !d.groupMissing g)
  let d := d.forEach there (fun d g => d.requeueErases g)
  d.forEach (d.mch.dies.map (·.1)) (fun d n =>
    if (d.die n).fresh.isSome && !d.map.blocks.any (fun p => decide (p.1 / 8160 = n ∧ p.2.state = 3)) then d.admitNext n else d)

/-- Formats and deletions go on where action 2 or FORMAT_PENDING stands (R188), and a Sanitize restarts (R91). -/
def Dev.resumeClears (d : Dev) : Dev :=
  let d := d.forEach d.map.clears (fun d n => (d.clearLeaves n).endClear n)
  let pend := (d.nvm.nss.filter (fun p => match p.2 with
    | some n => n.formatPending && decide (p.1 ∉ d.map.clears)
    | none => false)).map (·.1)
  let d := d.forEach pend (fun d i => match d.ns i with
    | some n => d.record 6 i 2 n.lbaf n.granules
    | none => d)
  if d.nvm.sanitize ≠ 0 then (d.record 8 0 0 0 0).beginErase else d

/-! ## Step 5: the recount (R41) -/

/-- A pool after its recount: ISSUED from the allocator's records, HELD from the holders' with what each function has. -/
def Pool.recount (q : Pool) (issued : Nat) (held : List (Nat × Nat)) : Pool :=
  let none : FMap Share := q.shares.map (fun p => (p.1, { p.2 with held := 0 }))
  { q with
    issued := issued, returned := 0, lost := 0, held := (held.map (·.2)).sum
    shares := (held.foldl (fun m p => fmod m {} p.1 (fun s => { s with held := s.held + p.2 })) none).filter
      (fun p => decide (p.2.held ≠ 0 ∨ p.2.share ≠ 0))
    violated := false, violations := 0, firstViolation := 0 }

/-- A recount of a pool without shares. -/
def Dev.recountPlain (d : Dev) (p issued held : Nat) : Dev :=
  d.modPool p (fun q => { q with
    issued := issued, returned := 0, lost := 0, held := held, violated := false, violations := 0, firstViolation := 0 })

/-- Pages of the ring that records fill (R181). -/
def Dev.ringPages (d : Dev) : Nat := ((d.jrn.ring.map (fun r => r.slot / pageSlots)).eraseDups).length

/-- PERSISTENT_POOL_RECOUNT. -/
def Dev.recountPools (d : Dev) : Dev :=
  let inUse := d.map.blocks.filter (fun p => decide (p.2.state = 1 ∨ p.2.state = 2 ∨ p.2.state = 3))
  let pslc := (inUse.filter (fun p => decide (p.2.mode = 0 ∧ p.2.use ≤ 1))).length
  let pages := max d.ringPages (if d.jrn.slot % pageSlots = 0 then 0 else 1)
  let images := d.hrt.images.filterMap (fun p => p.2.map (fun i => (i.fix, 1)))
  let slots := (d.key.slots.filter (fun p => decide (p.2.state ≠ 0))).map (fun p => (p.2.fix, 1))
  let nss := (d.nvm.nss.filter (fun p => p.2.isSome)).length
  let counts := (d.nvm.nss.map (fun p => match p.2 with
    | some n => (n.mapped, n.granules)
    | none => (0, 0)))
  let granules := (counts.map (·.2)).sum
  let d := (((d.recountPlain 5 pslc pslc).recountPlain 6 inUse.length inUse.length).recountPlain 7 pages pages)
  let d := ((d.modPool 23 (fun q => q.recount images.length images)).modPool 28 (fun q => q.recount slots.length slots))
  let d := (d.recountPlain 29 nss nss).recountPlain 30 d.map.entries.length (counts.map (·.1)).sum
  (d.modPool 30 (fun q => { q with capacity := granules })).recapMedia

/-! ## The patrol's debt and mode (R223, R225) -/

/-- Sample bytes of a block: one codeword of 4,608 bytes per programmed page. -/
def Dev.sampleBytes (d : Dev) (key : Nat) : Nat := 4608 * d.programmedPages (key / 8160) (key % 8160)

/-- Written blocks: OPEN or FULL. -/
def Dev.writtenBlocks (d : Dev) : FMap Block := d.map.blocks.filter (fun p => decide (p.2.state = 1 ∨ p.2.state = 2))

/-- Age of a zone in seconds. -/
def Dev.ageSeconds (d : Dev) (z : Nat) : Nat := d.nowMs / 1000 - 3600 * d.stampOf z

/-- Patrol debt. -/
def Dev.patrolDebt (d : Dev) : Nat :=
  ((d.writtenBlocks.filter (fun p => decide (d.targetDays * 86400 < d.ageSeconds (zoneOf (colOf (p.1 / 8160)) (p.1 % 8160))))).map
    (fun p => d.sampleBytes p.1)).sum

/-- The mode at power-up. -/
def Dev.startOutrider (d : Dev) : Dev :=
  let en := d.tf 4 0x20 4
  let debt := d.patrolDebt
  let late := decide (d.clk.timeBase + 3600000 * d.tf 4 0x38 2 < d.nowMs)
  let mode := if !bit en 0 then 0 else if bit en 1 && (decide (0 < debt) || late) then 2 else 1
  { d with outr := { d.outr with mode := mode, debt := debt } }

/-! ## Step 6 -/

/-- Orphans of table 0x08 are unloaded: images whose owner does not exist (R236). -/
def Dev.unloadOrphans (d : Dev) : Dev :=
  if !bit (d.tf 8 0x21 1) 1 then d
  else
    let gone := d.hrt.images.filter (fun p => match p.2 with
      | some i => !d.fnExists i.fix
      | none => false)
    d.forEach gone (fun d p => match p.2 with
      | some i =>
        let d := ({ d with hrt := { d.hrt with images := fset d.hrt.images p.1 none } }).giveBack 23 i.fix 1
        d.loseUnits (pgaKey i.pga) (256 * i.pages)
      | none => d)

/-- The RECOVERY record with its jump of SEQ (R180), durable before anything that follows. -/
def Dev.recoveryRecord (d : Dev) : Dev :=
  let last := d.jrn.next - 1
  let d : Dev := { d with jrn := { d.jrn with next := last + 2 ^ 20 } }
  let d := d.writeRecord { ty := 7, a := last, b := d.jrn.gen }
  iter d.jrn.inFlight Dev.recordDurable d

/-- Namespaces are available and host I/O is admitted; the Outrider's mode at power-up is chosen (R225). -/
def Dev.admitIo (d : Dev) : Dev :=
  (({ d with nvm := { d.nvm with ready := true } }).pumpRecords 16).startOutrider

/-- Steps 4 to 6 of R194 with their effects. -/
def Dev.completeRecovery (d : Dev) (us : Nat) : Dev :=
  let d := d.recountPools
  let d := ((d.recoveryRecord.loadCleared).moveUnsealed).closeOpen
  let d := ((d.resumeErases.resumeClears).unloadOrphans).startFlowMode
  let d : Dev := { d with jrn := { d.jrn with step := 0, timeUs := min us (2 ^ 24 - 1) } }
  d.admitIo

/-- A sequence of Bellows ends: its time and number are kept (R430). -/
def Dev.sequenceDone (d : Dev) (us : Nat) : Dev :=
  { d with blw := { d.blw with lastUs := min us (2 ^ 24 - 1), lastSeq := d.blw.seq, seq := 0, step := 0 } }

/-- RECOVERY_COMPLETE: `us` is the time of steps 1 to 6, `seqUs` that of the whole start. -/
def execRecoveryComplete (us seqUs : Nat) (s : State) : Host.Outcome State Fault Refusal :=
  act s fun d =>
    if d.jrn.step = 3 ∧ d.bot.stage = 1 then
      let d := (d.completeRecovery us).sequenceDone seqUs
      { d with emb := { d.emb with mode := .idleReady } }
    else d

end Sys2Proof.Machine
end

