-- ==== Sys2Proof/Machine/Power.lean ====
section
/-! DEFINITION. Rails, power modes, sleep entry and wakes, the cold start, and the resets of the recovery ladder (R410 to
R428), with the port events that reset functions or the device (R54, R63, R68). -/

namespace Sys2Proof.Machine

/-! ## The start of KEY (R327, R328) -/

/-- KEY gets power: the DRBG is seeded, and the state-wrap key is created anew. -/
def Dev.keyOn (d : Dev) : Dev :=
  ({ d with key := { d.key with drbg := 0, seeds := satAdd 32 d.key.seeds 1 } }).newIkey 1

/-! ## Groups found as a sequence starts (R163, R417) -/

/-- Groups in service whose cartridge is gone are absent. -/
def Dev.dropGone (d : Dev) : Dev :=
  d.forEach (List.range 8) (fun d g =>
    let u := d.unit (uid 5 g)
    if (d.grp g).present = false ∧ u.state ≠ .absent then
      let rs := if d.prepared g then Reason.removed else Reason.surpriseRemoval
      ((d.transition (uid 5 g) .absent rs).belowAbsent g rs).modGrp g (fun c => { c with admitted := false })
    else d)

/-! ## Cold start, rails and crystal (R410 to R412, R421) -/

/-- COLD_START: every rail is good; Ember runs and the fast domains come on. The ROM boot, the admission of the present groups
and recovery follow as steps of their own. -/
def execColdStart (failed : List Nat) (s : State) : Host.Outcome State Fault Refusal :=
  act s fun d =>
    if d.blw.seq ≠ 1 ∨ d.blw.step ≠ 0 then d
    else
      let d : Dev := { d with blw := { d.blw with railsBad := [] } }
      let d := d.forEach (List.range 8) (fun d g => d.modGrp g (fun c => { c with present := c.presRaw, admitted := c.presRaw }))
      (d.startFast 1 failed).keyOn.dropGone

/-- EMBER_RAIL_LOSS: a rail of the Ember detector, 0 to 2 by the rows of R410. -/
def execEmberRailLoss (rail : Nat) (s : State) : Host.Outcome State Fault Refusal :=
  act s fun d =>
    if 3 ≤ rail then d
    else
      let d := d.powerOn
      { d with blw := { d.blw with railsBad := setIns d.blw.railsBad rail } }

/-- A loss of power of the fast domains: the power loss of R193. -/
def Dev.railLost (d : Dev) (rail : Nat) : Dev :=
  let d := d.fastLost
  let d : Dev := { d with
    blw := { d.blw with railsBad := setIns d.blw.railsBad rail, railLoss := satAdd 32 d.blw.railLoss 1 }
    emb := { d.emb with selfRefresh := false, orderly := false } }
  d.alarm 0

/-- FAST_RAIL_LOSS: a rail of another detector, 3 to 7 by the rows of R410; before a cold start it only delays it. -/
def execFastRailLoss (rail : Nat) (s : State) : Host.Outcome State Fault Refusal :=
  act s fun d =>
    if rail < 3 ∨ 7 < rail then d
    else if d.blw.seq = 1 ∧ d.blw.step = 0 then { d with blw := { d.blw with railsBad := setIns d.blw.railsBad rail } }
    else d.railLost rail

/-- SUPPLY_RESTORED_RESET; a device that has tripped stays off until it has cooled. -/
def execSupplyRestoredReset (failed : List Nat) (s : State) : Host.Outcome State Fault Refusal :=
  act s fun d =>
    if d.blw.railsBad = [] ∨ (d.blw.seq = 1 ∧ d.blw.step = 0) then d
    else if d.emb.tripped then { d with blw := { d.blw with railsBad := [] } }
    else (({ d with blw := { d.blw with railsBad := [] } }).abruptReset [5] failed).keyOn.dropGone

/-- SUPPLY_GLITCH: the supply alarm of R336, while KEY is powered. -/
def execSupplyGlitch (rail : Nat) (s : State) : Host.Outcome State Fault Refusal :=
  act s fun d => if 7 < rail ∨ d.domOn .control = false then d else d.alarm 0

/-- XTAL_SWITCH. -/
def execXtalSwitch (s : State) : Host.Outcome State Fault Refusal :=
  act s fun d => { d with blw := { d.blw with xtalOk := true } }

/-- XTAL_FAIL: a crystal in use gives no edge. -/
def execXtalFail (s : State) : Host.Outcome State Fault Refusal :=
  act s fun d =>
    if d.blw.xtalOk = false then d
    else ({ d with blw := { d.blw with xtalOk := false, xtalFail := true } }).log 0x010A noUnit []

/-! ## Temperature (R424) -/

/-- Top of the ordering code's range in °C. -/
def Dev.rangeTop (d : Dev) : Int := if d.emb.extended then 115 else 105

/-- THERMAL_TRIP: `tj` and the sensor that read it. -/
def execThermalTrip (tj : Int) (sensor : Nat) (s : State) : Host.Outcome State Fault Refusal :=
  act s fun d =>
    if tj < d.rangeTop + 10 ∨ d.emb.tripped = true ∨ (d.blw.seq = 1 ∧ d.blw.step = 0) then d
    else
      let d := d.fastLost
      let d := d.forEach (List.range 8) (fun d g => (d.drivePwren g false).modGrp g (fun c => { c with step := 0 }))
      let d : Dev := { d with emb := { d.emb with
        mode := .deep, tripped := true, trips := satAdd 32 d.emb.trips 1, tj := tj, sensor := sensor % 16
        tjPeak := max d.emb.tjPeak tj, selfRefresh := false, orderly := false } }
      d.warn 1 true

/-- TRIP_RECOVERY_RESET: T has stayed at or below the range's top minus 10 °C for 1 s. -/
def execTripRecoveryReset (tj : Int) (failed : List Nat) (s : State) : Host.Outcome State Fault Refusal :=
  act s fun d =>
    if d.emb.tripped = false ∨ d.rangeTop - 10 < tj ∨ d.blw.railsBad ≠ [] then d
    else (({ d with emb := { d.emb with tj := tj } }).abruptReset [6] failed).keyOn.dropGone

/-! ## Device resets (R426, R427) -/

/-- Whether a device reset can begin now: the fast domains are on. -/
def Dev.canReset (d : Dev) : Bool := d.domOn .host && d.domOn .control && !d.emb.tripped

/-- DEVICE_RESET_ABRUPT: the causes by the bits of EMB_RESET_CAUSE. -/
def execDeviceResetAbrupt (causes failed : List Nat) (s : State) : Host.Outcome State Fault Refusal :=
  act s fun d =>
    if d.canReset && !causes.isEmpty && causes.all (fun c => decide (1 ≤ c ∧ c ≤ 6)) then d.abruptReset causes failed else d

/-- NVM_SUBSYSTEM_RESET. -/
def execNvmSubsystemReset (failed : List Nat) (s : State) : Host.Outcome State Fault Refusal :=
  act s fun d => if d.canReset then d.abruptReset [1] failed else d

/-- POWER_CYCLE: every rail below its reset level for at least 1 s. -/
def execPowerCycle (s : State) : Host.Outcome State Fault Refusal :=
  act s fun d =>
    let d := d.powerOn
    { d with blw := { d.blw with railsBad := [] } }

/-! ## Sleep (R415, R416) -/

/-- SLEEP_MODE and IDLE_MS of the active table 0x06. -/
def Dev.sleepMode (d : Dev) : Nat := d.tf 6 0x30 1
def Dev.idleMsLimit (d : Dev) : Nat := d.tf 6 0x32 2

/-- The condition of R54: every port is in L2/L3 Ready or held in reset. -/
def Dev.portsQuiet (d : Dev) : Bool := d.portsUsed.all (fun p => decide ((d.port p).ltssm = .l23) || (d.port p).perst)

/-- The conditions of R415 but for IDLE_MS. -/
def Dev.maySleep (d : Dev) : Bool :=
  d.portsQuiet && decide (d.sleepMode ≠ 0 ∧ d.nvm.sanitize = 0 ∧ d.nvm.fwBusy = none) &&
    (List.range 8).all (fun g => (d.grp g).owner.isNone) &&
    (!bit (d.tf 6 0x31 1) 0 || (decide (d.outr.mode ≠ 2) && !(List.range 8).any d.rebuilding))

/-- Step 1 of R416: fetch stops, every function is reset, and erases that wait for a die go back to their blocks. An entry in
mode 0 is a device reset in orderly form (R415). A WAKEn_N still driven low is released (R418). -/
def Dev.enterSleep (d : Dev) (reset : Bool) : Dev :=
  let orderly := reset || decide (d.hlk.modeA = 0)
  let wakeN := d.emb.wakeN
  let d : Dev := { d with
    emb := { d.emb with
      mode := .entering, orderly := orderly, cause := if orderly then [2, 7] else d.emb.cause, wakeN := [] }
    blw := { d.blw with seq := 3, step := 1, wakeReq := none } }
  let d := d.forEach wakeN (fun d p => d.emit (.pin .wake p true))
  let d := d.forEach d.allFns (fun d f => if (d.fn f).resetting then d else d.resetFn f false)
  let d := d.forEach (d.mch.dies.map (·.1)) (fun d n =>
    let gone := (d.die n).queue.filter (fun o => decide (o.kind = .erase))
    (d.modDie n (fun x => { x with queue := x.queue.filter (fun o => decide (o.kind ≠ .erase)) })).giveBack 13 0
      (gone.filter (·.tag)).length)
  d

/-- Step 2: open stripes are closed by the timed close of R124. -/
def Dev.padAll (d : Dev) : Dev := d.forEach (d.par.stripes.map (fun t => (t.k, t.b, t.u))) (fun d t => d.padStripe t.1 t.2.1 t.2.2)

/-- Whether the entry is clean: into Deep, or into Dormant under SLEEP_MODE 3. -/
def Dev.cleanEntry (d : Dev) : Bool := decide (d.sleepMode = 2 ∨ d.sleepMode = 3)

/-- Items that a clean entry has still to flush. -/
def Dev.anyDirty (d : Dev) : Bool :=
  d.map.leaves.any (fun p => p.2.dirty) || d.map.dirs.any (fun p => p.2.dirty) || d.map.chunkItems.any (fun p => p.2.dirty)

/-- Transient pools of the host, data and control domains. -/
def transientPools : List Nat := (List.range 32).filter (fun p => !isPPool p)

/-- Whether steps 1 to 3 are done but for the checkpoint: functions drained, nothing on its way to the media, no record
pending, transient pools at zero, and for a clean entry no dirty item. -/
def Dev.quietNow (d : Dev) : Bool :=
  d.nvm.cmds.isEmpty && d.wrp.grans.isEmpty && d.rdp.grans.isEmpty && d.par.stripes.isEmpty &&
    d.fnm.fns.all (fun p => !p.2.resetting || d.drained p.1) &&
    d.mch.dies.all (fun p => p.2.op.isNone && p.2.queue.isEmpty && p.2.reads.isEmpty) &&
    decide (d.jrn.inFlight = 0) && d.jrn.waiting.isEmpty && transientPools.all (fun p => decide ((d.pool p).held = 0)) &&
    (!d.cleanEntry || !d.anyDirty)

/-- Whether the last check found every persistent pool BALANCED. -/
def Dev.poolsBalanced (d : Dev) : Bool :=
  ((List.range 32).filter isPPool).all (fun p => decide ((d.pool p).state = .balanced))

/-- The resume record of R416. -/
def Dev.writeResume (d : Dev) : Dev :=
  { d with bot := { d.bot with
    resume := some (d.jrn.gen, d.jrn.next, d.bootRec.seq, d.poolsBalanced), jtagAtEntry := d.key.jtag } }

/-- What an orderly device reset clears beside the sleep entry: LOCKED by an alarm, function epochs, the state-wrap key. -/
def Dev.orderlyEnd (d : Dev) : Dev :=
  if !d.emb.orderly then d
  else
    let d : Dev := { d with
      key := { d.key with locked := d.key.jtag, cause := if d.key.jtag then d.key.cause else [] }
      fnm := { d.fnm with fns := [] } }
    ((d.restartPools false).newIkey 1).takeMode

/-- Function epochs outlast the host domain's power-off but for a device reset (R64). -/
def Dev.withEpochs (d : Dev) (fns : FMap Fn) : Dev :=
  { d with fnm := { d.fnm with fns := fns.map (fun p => (p.1, { epoch := p.2.epoch })) } }

/-- The DRAM contents, the channels' training and the cartridges' supply go: the device is in Deep. -/
def Dev.toDeep (d : Dev) : Dev :=
  let fns := d.fnm.fns
  let d := (d.clearData false).withEpochs fns
  let d := d.forEach (List.range 8) (fun d g =>
    (d.drivePwren g false).modGrp g (fun c => { c with step := 0, admitted := false }))
  { d with
    bot := { d.bot with resume := none }
    emb := { d.emb with mode := .deep, selfRefresh := false } }

/-- Steps 3 to 5: checkpoint (none where no superblock is valid, R195), resume record, DRAM and
cartridges, domains off. An orderly reset with SLEEP_MODE 0 ends in Dormant and is woken at once (R427). -/
def Dev.fallAsleep (d : Dev) (us : Nat) : Dev :=
  let clean2 := decide (d.sleepMode = 2)
  let now := decide (d.sleepMode = 0)
  let d := (if d.nvm.noSuperblock then d else d.checkpoint).writeResume
  let d := d.orderlyEnd.clearData true
  let d := (d.clearControl.clearCoreBanks).keyOff.switchFast false
  let d := d.sequenceDone us
  let d : Dev := { d with
    emb := { d.emb with mode := .dormant, selfRefresh := true, dormantMs := 0, orderly := false, idleMs := 0 }
    blw := { d.blw with wakeReq := d.blw.wakeReq.or (if now then some 0 else none) } }
  if clean2 then d.toDeep else d

/-- One run of an entry under way: open stripes are closed, and the entry ends once everything is quiet. -/
def Dev.goOnEntry (d : Dev) (us : Nat) : Dev :=
  let d := d.padAll
  if d.quietNow then d.fallAsleep us else d

/-- SLEEP_ENTRY: the conditions have held for IDLE_MS; run again, it goes on once more has drained. -/
def execSleepEntry (us : Nat) (s : State) : Host.Outcome State Fault Refusal :=
  act s fun d =>
    if d.emb.mode = .entering then d.goOnEntry us
    else if (d.emb.mode = .active ∨ d.emb.mode = .idleReady) ∧ d.nvm.ready = true ∧ d.maySleep = true ∧
        d.idleMsLimit ≤ d.emb.idleMs then (d.enterSleep false).goOnEntry us
    else d

/-- DEVICE_RESET_ORDERLY: a host reset with every port in L2/L3 Ready; run again, it goes on. -/
def execDeviceResetOrderly (us : Nat) (s : State) : Host.Outcome State Fault Refusal :=
  act s fun d =>
    if d.emb.mode = .entering then d.goOnEntry us
    else if (d.emb.mode = .active ∨ d.emb.mode = .idleReady) ∧ d.nvm.ready = true ∧
        d.portsUsed.all (fun p => decide ((d.port p).ltssm = .l23)) then (d.enterSleep true).goOnEntry us
    else d

/-- DEEP_AFTER_EXPIRY, with no wake request at hand: PERSTn_N of every port in use is as R54 asks as long as none is. -/
def execDeepAfterExpiry (s : State) : Host.Outcome State Fault Refusal :=
  act s fun d =>
    if d.emb.mode = .dormant ∧ d.blw.wakeReq = none ∧ d.sleepMode = 3 ∧ 1000 * d.tf 6 0x34 4 ≤ d.emb.dormantMs then d.toDeep else d

/-! ## Wakes (R418 to R420) -/

/-- A wake begins: its cause is kept, and WAKEn_N goes low where the watcher asked for it. -/
def Dev.beginWake (d : Dev) (cause sequence : Nat) : Dev :=
  let d : Dev := { d with
    emb := { d.emb with
      mode := .waking, wakes := satAdd 32 d.emb.wakes 1, fullPath := false
      wakeCause := if cause = 3 then 2 else if cause = 0 then 0 else 1 }
    blw := { d.blw with wakeReq := none, seq := sequence } }
  if cause = 3 then
    let d : Dev := { d with emb := { d.emb with wakeN := d.portsUsed } }
    d.forEach d.portsUsed (fun d p => d.emit (.pin .wake p false))
  else d

/-- The conditions of R419 but for the CRC32C, on the boot record as step 2 of R398 leaves it. -/
def Dev.resumeOk (d : Dev) : Bool :=
  match d.bot.resume with
  | some (g, n, q, balanced) =>
    decide (g = d.jrn.gen ∧ n = d.jrn.next ∧ q = d.bootRec.seq) && (!d.key.jtag || d.bot.jtagAtEntry) && balanced
  | none => false

/-- Step 6 of R418 on the channels: the drivers of the groups that stayed powered are enabled, and ZQ Calibration Short and
read DQ training run on every channel (R141). -/
def Dev.wakeChannels (d : Dev) : Dev :=
  let d := d.forEach ((List.range 8).filter (fun g => (d.grp g).pwren && (d.grp g).pgood)) (fun d g => d.setDrivers g true)
  d.forEach ((d.mch.chans.filter (fun p => p.2.trained && (d.grp (p.1 / 8)).drivers)).map (·.1)) (fun d n =>
    let d := d.modChan n (fun c => { c with zq := c.zq + c.ce, trainTj := d.emb.tj, retrains := satAdd 32 c.retrains 1 })
    (d.forEach (d.cesOf n) (fun d e => d.tell .zqShort (ceDie n e) 0)).tell .readDqTraining (64 * n) 0)

/-- Steps 5 to 7 of the resume path: regions, keys, ZQ and read DQ training, the RECOVERY record, and host I/O. -/
def Dev.resume (d : Dev) (us : Nat) : Dev :=
  let d := d.startSlot d.bootRec.slot
  let d := d.wakeChannels
  let d := d.recoveryRecord.resumeErases.startFlowMode
  let d := d.forEach (List.range 8) (fun d g =>
    let c := d.grp g
    if c.present && c.insert && decide ((d.unit (uid 5 g)).state = .absent) then d.modGrp g (fun c => { c with admitted := true })
    else d)
  let d := d.admitIo.sequenceDone us
  { d with emb := { d.emb with mode := .idleReady, selfRefresh := false } }

/-- The full path: the DRAM contents are ignored, and R398 and R194 follow in full. -/
def Dev.fullWake (d : Dev) : Dev :=
  let fns := d.fnm.fns
  let d := ((d.clearData false).withEpochs fns).dropGone
  { d with
    bot := { d.bot with resume := none, stage := 0 }
    emb := { d.emb with fullPath := true, selfRefresh := false } }

/-- WAKE_FROM_DORMANT: whether the resume record's CRC32C is correct, and units that fail their test. -/
def execWakeFromDormant (crcOk : Bool) (us : Nat) (failed : List Nat) (s : State) : Host.Outcome State Fault Refusal :=
  act s fun d =>
    match d.emb.mode, d.blw.wakeReq with
    | .dormant, some cause =>
      if d.blw.railsBad ≠ [] then d
      else
        let d := ((d.beginWake cause 4).startFast 4 failed).keyOn
        let c := d.countTrial
        if crcOk && c.resumeOk && c.slotOk c.bootRec.slot then c.resume us else d.fullWake
    | _, _ => d

/-- WAKE_FROM_DEEP: the fast domains come on; the ROM boot, the admission of the present groups and recovery follow. -/
def execWakeFromDeep (failed : List Nat) (s : State) : Host.Outcome State Fault Refusal :=
  act s fun d =>
    match d.emb.mode, d.blw.wakeReq with
    | .deep, some cause =>
      if d.emb.tripped ∨ d.blw.railsBad ≠ [] then d
      else
        let d := ((d.beginWake cause 5).startFast 5 failed).keyOn
        (d.forEach (List.range 8) (fun d g => d.modGrp g (fun c => { c with admitted := c.present }))).dropGone
    | _, _ => d

/-! ## Port events (R54, R63, R68) -/

/-- What ends a port's link (R63). -/
inductive LinkEnd where
  | hotReset | perst | linkDown
  deriving DecidableEq, Repr

/-- The port's link is gone: its status fields and lists of errors restart. After a hot reset or a PERSTn_N assertion the
device tries every rate again (R47), and a hot reset ends a downgrade (R428). -/
def Dev.dropLink (d : Dev) (port : Nat) (cause : LinkEnd) : Dev :=
  d.modPort port (fun p => { p with
    ltssm := .detect, rate := 0, width := 0, flit := false, l0pWidth := 0, recTimes := [], fecTimes := []
    cap := if cause = .linkDown then p.cap else 6, downgraded := p.downgraded && decide (cause ≠ .hotReset) })

/-- The port's Manifest unit is to be quiesced once its functions have drained (R68). -/
def Dev.portGone (d : Dev) (port : Nat) : Dev :=
  let d := d.modUnit (uid 11 port) (fun u =>
    if u.state = .quiesced then u else { u with quiescing := true, pending := some (.quiesced, .linkDown) })
  d.quiescePort port

/-- A host reset of a port: in mode 1 of its functions, in mode 0 of the device, orderly where every port stands in L2/L3
Ready (R63, R427). But for a hot reset the port goes down with it. -/
def Dev.hostReset (d : Dev) (port : Nat) (cause : LinkEnd) (failed : List Nat) : Dev :=
  if !d.portInUse port || !d.canReset || decide (d.emb.mode = .entering) then d
  else if d.hlk.modeA = 1 then
    let d := (d.resetPort port).dropLink port cause
    if cause = .hotReset then d else d.portGone port
  else if (d.port 0).ltssm = .l23 ∧ d.nvm.ready = true then (d.enterSleep true).goOnEntry 0
  else d.abruptReset [2] failed

/-- PERST_ASSERT. -/
def execPerstAssert (port : Nat) (failed : List Nat) (s : State) : Host.Outcome State Fault Refusal :=
  act s fun d =>
    if 2 ≤ port ∨ (d.port port).perst = true then d
    else (d.modPort port (fun p => { p with perst := true })).hostReset port .perst failed

/-- PERST_DEASSERT: the port is released, WAKEn_N with it, and a sleeping device wakes. -/
def execPerstDeassert (port : Nat) (s : State) : Host.Outcome State Fault Refusal :=
  act s fun d =>
    if 2 ≤ port ∨ (d.port port).perst = false then d
    else
      let d := (d.modPort port (fun p => { p with perst := false })).srcEvent (80 + port)
      let d := if port ∈ d.emb.wakeN then
          ({ d with emb := { d.emb with wakeN := d.emb.wakeN.filter (· ≠ port) } }).emit (.pin .wake port true)
        else d
      if d.portInUse port then d.requestWake (1 + port) else d

/-- HOT_RESET: hot resets of both ports that overlap are a device reset in mode 1 (R63). -/
def execHotReset (port : Nat) (failed : List Nat) (s : State) : Host.Outcome State Fault Refusal :=
  act s fun d =>
    if !d.portInUse port || !d.canReset then d
    else
      let d := d.modPort port (fun p => { p with hotReset := true })
      if d.hlk.modeA = 1 ∧ (d.port (1 - port)).hotReset = true then d.abruptReset [2] failed else d.hostReset port .hotReset failed

/-- LINK_DOWN. -/
def execLinkDown (port : Nat) (failed : List Nat) (s : State) : Host.Outcome State Fault Refusal :=
  act s fun d => if (d.port port).ltssm = .detect then d else (d.srcEvent (210 + port)).hostReset port .linkDown failed

end Sys2Proof.Machine
end

