-- ==== Sys2Proof/Machine/Management.lean ====
section
/-! DEFINITION. The management endpoint (R431 to R434): MCTP control messages, NVMe-MI commands, tunnelled admin commands,
recovery images, the bus modes (R457), and the SPDM responder (R400, R401). -/

namespace Sys2Proof.Machine

/-! ## Messages in and out -/

/-- A message arrives over a binding: 0 SMBus, 1 I3C, 2 PCIe VDM; the endpoint listens to one of the first two at a time
(R457), and to the third while the host domain is on. -/
def Dev.onBus (d : Dev) (bus : Nat) (f : Dev → Dev) : Dev :=
  let ok := match bus with
    | 0 => !d.mgt.i3c
    | 1 => d.mgt.i3c
    | 2 => d.domOn .host
    | _ => false
  if !ok then d
  else f { d with mgt := { d.mgt with
    smbusUsed := d.mgt.smbusUsed || decide (bus = 0), vdm := d.mgt.vdm || decide (bus = 2), rx := d.mgt.rx + 1 } }

/-- A response goes out. -/
def Dev.answer (d : Dev) (o : Output) : Dev := ({ d with mgt := { d.mgt with tx := d.mgt.tx + 1 } }).emit o

/-! ## MCTP control messages (R431) -/

/-- SET_ENDPOINT_ID: 0 and 255 are no endpoint IDs (log 46). -/
def execSetEndpointId (bus eid : Nat) (s : State) : Host.Outcome State Fault Refusal :=
  act s fun d => d.onBus bus fun d =>
    if 1 ≤ eid ∧ eid ≤ 254 then ({ d with mgt := { d.mgt with eid := eid } }).answer (.mctp .eidSet eid)
    else d.answer (.mctp .eidSet d.mgt.eid)

/-- GET_ENDPOINT_ID. -/
def execGetEndpointId (bus : Nat) (s : State) : Host.Outcome State Fault Refusal :=
  act s fun d => d.onBus bus fun d => d.answer (.mctp .eid d.mgt.eid)

/-- GET_MCTP_VERSION_SUPPORT. -/
def execGetMctpVersionSupport (bus : Nat) (s : State) : Host.Outcome State Fault Refusal :=
  act s fun d => d.onBus bus fun d => d.answer (.mctp .versions 1)

/-- GET_MESSAGE_TYPE_SUPPORT: NVMe-MI (type 4) and SPDM (type 5), one bit each. -/
def execGetMessageTypeSupport (bus : Nat) (s : State) : Host.Outcome State Fault Refusal :=
  act s fun d => d.onBus bus fun d => d.answer (.mctp .types (2 ^ 4 + 2 ^ 5))

/-- MCTP_MESSAGE_DISCARDED: a message of more than 4,224 bytes, or one whose integrity check fails. -/
def execMctpMessageDiscarded (len : Nat) (checkOk : Bool) (s : State) : Host.Outcome State Fault Refusal :=
  act s fun d =>
    if checkOk && decide (len ≤ 4224) then d
    else ({ d with mgt := { d.mgt with micErr := satAdd 32 d.mgt.micErr 1 } }).emit (.mctp .discarded len)

/-- I3C_MODE_SWITCH: the first broadcast header with ENTDAA or SETDASA; the controller gives the dynamic address. -/
def execI3cModeSwitch (da : Nat) (s : State) : Host.Outcome State Fault Refusal :=
  act s fun d =>
    if d.mgt.i3c then d
    else { d with mgt := { d.mgt with i3c := true, smbusUsed := false, i3cDa := da % 128 } }

/-- SMBUS_ARP: 0 Prepare to ARP, 1 Reset Device, 2 Get UDID, 3 Assign Address with the device's UDID (log 46). -/
def execSmbusArp (cmd addr : Nat) (udidOk : Bool) (s : State) : Host.Outcome State Fault Refusal :=
  act s fun d => d.onBus 0 fun d =>
    match cmd with
    | 1 => ({ d with mgt := { d.mgt with smbusAddr := 0x1D } }).answer (.arp [])
    | 2 => d.answer (.arp ((List.range 16).map Config.udid ++ leBytes 1 (2 * d.mgt.smbusAddr + 1)))
    | 3 => if udidOk then ({ d with mgt := { d.mgt with smbusAddr := addr % 128 } }).answer (.arp []) else d
    | _ => d.answer (.arp [])

/-! ## NVMe-MI (R432) -/

/-- A request that reaches a busy command slot. -/
def Dev.miBusy (d : Dev) : Dev :=
  ({ d with mgt := { d.mgt with dropped := satAdd 32 d.mgt.dropped 1 } }).answer (.mi .busy [])

/-- A request for one of the two command slots. -/
def Dev.mi (d : Dev) (bus slot : Nat) (f : Dev → Dev) : Dev :=
  if 2 ≤ slot then d else d.onBus bus fun d => if slot ∈ d.mgt.busySlots then d.miBusy else f d

/-- MI_ENDPOINT_BUSY. -/
def execMiEndpointBusy (bus slot : Nat) (s : State) : Host.Outcome State Fault Refusal :=
  act s fun d => d.mi bus slot id

/-- MI_UNSUPPORTED_COMMAND. -/
def execMiUnsupportedCommand (bus slot : Nat) (s : State) : Host.Outcome State Fault Refusal :=
  act s fun d => d.mi bus slot fun d => d.answer (.mi .invalidCommand [])

/-- READ_NVME_MI_DATA_STRUCTURE: types 0 to 4 of NVMe-MI 1.2; the controller list names the functions that exist (log 36,
log 46). -/
def execReadNvmeMiDataStructure (bus slot dtype : Nat) (s : State) : Host.Outcome State Fault Refusal :=
  act s fun d => d.mi bus slot fun d =>
    if 4 < dtype then d.answer (.mi .invalidParameter [])
    else if dtype = 2 then
      d.answer (.mi .success (leBytes 2 d.allFns.length ++ (d.allFns.map (leBytes 2)).flatten))
    else d.answer (.mi .success ((List.range 32).map (Config.pageByte true (0x100 + dtype))))

/-- Composite temperature, spare, use and warnings as the polls give them: one byte each (log 46). -/
def Dev.healthBytes (d : Dev) : Bytes :=
  leBytes 1 (255 - maskOf d.nvm.critical) ++ leBytes 1 (d.emb.tj % 256).toNat ++ leBytes 1 d.percentUsed

/-- NVM_SUBSYSTEM_HEALTH_STATUS_POLL. -/
def execNvmSubsystemHealthStatusPoll (bus slot : Nat) (s : State) : Host.Outcome State Fault Refusal :=
  act s fun d => d.mi bus slot fun d =>
    d.answer (.mi .success (openPage true 0x105 1 [] ++ d.healthBytes ++ leBytes 2 d.mgt.healthChange ++ zeroBytes 2))

/-- CONTROLLER_HEALTH_STATUS_POLL of one controller. -/
def execControllerHealthStatusPoll (bus slot ctrl : Nat) (s : State) : Host.Outcome State Fault Refusal :=
  act s fun d => d.mi bus slot fun d =>
    if !d.fnExists ctrl then d.answer (.mi .invalidParameter [])
    else
      let f := d.fn ctrl
      let csts := b2n f.rdy + 2 * b2n f.cfs + 4 * f.shst
      d.answer (.mi .success (leBytes 2 ctrl ++ leBytes 2 csts ++ leBytes 2 (d.emb.tj + 273).toNat ++
        leBytes 1 d.percentUsed ++ leBytes 1 d.availableSpare ++ leBytes 1 (maskOf d.nvm.critical) ++ zeroBytes 7))

/-- CONFIGURATION_SET: 1 SMBus/I3C Frequency (1 to 3), 2 Health Status Change (the bits named are cleared), 3 MCTP
Transmission Unit Size (64 to 1,024). -/
def execConfigurationSet (bus slot ident value : Nat) (s : State) : Host.Outcome State Fault Refusal :=
  act s fun d => d.mi bus slot fun d =>
    match ident with
    | 1 =>
      if 1 ≤ value ∧ value ≤ 3 then ({ d with mgt := { d.mgt with freq := value } }).answer (.mi .success [])
      else d.answer (.mi .invalidParameter [])
    | 2 => ({ d with mgt := { d.mgt with
        healthChange := d.mgt.healthChange - (d.mgt.healthChange &&& (value % 2 ^ 32)) } }).answer (.mi .success [])
    | 3 =>
      if 64 ≤ value ∧ value ≤ 1024 then ({ d with mgt := { d.mgt with mtu := value } }).answer (.mi .success [])
      else d.answer (.mi .invalidParameter [])
    | _ => d.answer (.mi .invalidParameter [])

/-- CONFIGURATION_GET. -/
def execConfigurationGet (bus slot ident : Nat) (s : State) : Host.Outcome State Fault Refusal :=
  act s fun d => d.mi bus slot fun d =>
    match ident with
    | 1 => d.answer (.mi .success (leBytes 1 d.mgt.freq))
    | 2 => d.answer (.mi .success (leBytes 4 d.mgt.healthChange))
    | 3 => d.answer (.mi .success (leBytes 2 d.mgt.mtu))
    | _ => d.answer (.mi .invalidParameter [])

/-- VPD_READ of the 1,024 bytes. -/
def execVpdRead (bus slot offset len : Nat) (s : State) : Host.Outcome State Fault Refusal :=
  act s fun d => d.mi bus slot fun d =>
    if 1024 < offset + len then d.answer (.mi .invalidParameter [])
    else d.answer (.mi .success (mread d.mgt.vpd offset len))

/-- VPD_WRITE. -/
def execVpdWrite (bus slot offset : Nat) (data : Bytes) (s : State) : Host.Outcome State Fault Refusal :=
  act s fun d => d.mi bus slot fun d =>
    if 1024 < offset + data.length then d.answer (.mi .invalidParameter [])
    else ({ d with mgt := { d.mgt with vpd := mwrite d.mgt.vpd offset data } }).answer (.mi .success [])

/-- An NVM Subsystem Reset asked for by the management plane, which answers in every power mode; not before a cold start nor
while the device is off after a trip or a rail loss. -/
def Dev.subsystemReset (d : Dev) (causes failed : List Nat) : Dev :=
  if d.emb.tripped ∨ d.blw.railsBad ≠ [] ∨ (d.blw.seq = 1 ∧ d.blw.step = 0) then d
  else if d.domOn .control then d.abruptReset causes failed
  else ((d.abruptReset causes failed).keyOn).dropGone

/-- NVME_MI_RESET. -/
def execNvmeMiReset (bus slot : Nat) (failed : List Nat) (s : State) : Host.Outcome State Fault Refusal :=
  act s fun d => d.mi bus slot fun d => d.subsystemReset [1] failed

/-! ## Tunnelled admin commands (R432 to R434) -/

/-- Admin opcodes that the endpoint tunnels. -/
def tunnelOps : List Nat := [0x02, 0x06, 0x09, 0x0A, 0x10, 0x11, 0x80, 0x84, 0xC0, 0xC4, 0xC5, 0xC6]

/-- The command stands as if fetched from the controller's admin queue; its row follows. -/
def Dev.submitTunnel (d : Dev) (slot ctrl : Nat) : Dev :=
  let c : Cmd := { ref := ⟨ctrl, 0, 65536 + slot⟩, epoch := (d.fn ctrl).epoch }
  { d with
    nvm := { d.nvm with cmds := d.nvm.cmds ++ [c] }, mgt := { d.mgt with busySlots := setIns d.mgt.busySlots slot } }

/-- TUNNELLED_ADMIN_COMMAND: in Dormant or Deep, and on the way into or out of them, it wakes the device through
shared ID 82 and is run again after step 7 of the wake; with BOT_STATE.STAGE FAILED it returns Controller Not Ready. -/
def execTunnelledAdminCommand (bus slot opcode ctrl : Nat) (s : State) : Host.Outcome State Fault Refusal :=
  act s fun d =>
    if (slot, opcode, ctrl) ∈ d.mgt.tunnel then
      if !d.nvm.ready then d
      else
        let left := d.mgt.tunnel.filter (fun t => t ≠ (slot, opcode, ctrl))
        ({ d with mgt := { d.mgt with tunnel := left } }).submitTunnel slot ctrl
    else d.mi bus slot fun d =>
      if opcode ∉ tunnelOps then d.answer (.mi .invalidCommand [])
      else if d.bot.stage = 3 then
        d.answer (.mi .success (zeroBytes 8 ++ leBytes 2 (2 * Status.code .controllerNotReady)))
      else if d.emb.mode ≠ .active ∧ d.emb.mode ≠ .idleReady then
        ({ d with mgt := { d.mgt with
          tunnel := d.mgt.tunnel ++ [(slot, opcode, ctrl)], busySlots := setIns d.mgt.busySlots slot } }).srcEvent 82
      else if !d.fnExists ctrl then d.answer (.mi .invalidParameter [])
      else d.submitTunnel slot ctrl

/-- RECOVERY_IMAGE_WRITE: image bytes collect in staging SRAM. -/
def execRecoveryImageWrite (bus slot offset : Nat) (data : Bytes) (s : State) : Host.Outcome State Fault Refusal :=
  act s fun d => d.mi bus slot fun d =>
    if d.bot.stage ≠ 3 then d.answer (.mi .accessDenied [])
    else if data.length = 0 ∨ 4096 < data.length ∨ slotBytes < offset + data.length then
      d.answer (.mi .invalidParameter [])
    else ({ d with bot := { d.bot with recBuf := mwrite d.bot.recBuf offset data } }).answer (.mi .success [])

/-- RECOVERY_COMMIT to slot A (0) or B (1): written, checked as step 3 of R398 checks it, named by a trial record, and then
a device reset. -/
def execRecoveryCommit (bus slot target : Nat) (cert : Option Bytes) (profiles : List DieProfile) (failed : List Nat) (s : State) :
    Host.Outcome State Fault Refusal :=
  act s fun d => d.mi bus slot fun d =>
    if d.bot.stage ≠ 3 then d.answer (.mi .accessDenied [])
    else if 2 ≤ target then d.answer (.mi .invalidParameter [])
    else
      let b := mread d.bot.recBuf 0 (min (fieldAt (mread d.bot.recBuf 0 256) 4 4) slotBytes)
      let image := fwParse b cert profiles
      let d := d.rewriteSlot target b image
      match image with
      | some i =>
        if i.passes d.bootRec.minSvn then ((d.trialRec target).answer (.mi .success [])).subsystemReset [] failed
        else d.answer (.mi .success (zeroBytes 8 ++ leBytes 2 (2 * Status.code .invalidFwImage)))
      | none => d.answer (.mi .success (zeroBytes 8 ++ leBytes 2 (2 * Status.code .invalidFwImage)))

/-! ## SPDM (R400, R401) -/

/-- An SPDM request over MCTP (0 to 2) or DOE (3). -/
def Dev.spdmIn (d : Dev) (bus : Nat) (f : Dev → Dev) : Dev :=
  if bus = 3 then (if d.domOn .host then f d else d)
  else d.onBus bus fun d => f { d with mgt := { d.mgt with tx := d.mgt.tx + 1 } }

/-- Free bytes of a response. -/
def Dev.spdmFree (d : Dev) (n : Nat) : Bytes × Dev :=
  ((List.range n).map (Config.spdmByte d.spdm.draws), { d with spdm := { d.spdm with draws := d.spdm.draws + 1 } })

/-- Whether the responder can use its keys: the control domain runs firmware, and the working keys stand. -/
def Dev.spdmKeys (d : Dev) : Bool := d.domOn .control && d.key.workLoaded && decide (d.bot.stage = 1 ∨ d.bot.stage = 2)

/-- The chain of a slot. -/
def Dev.chain (d : Dev) (slot : Nat) : Bytes := Config.certChain slot (if slot = 0 then d.bot.aliasKey else [])

/-- A request that needs the negotiation done. -/
def Dev.negotiated (d : Dev) (f : Dev → Dev) : Dev := if d.spdm.algs then f d else d.emit (.spdm .error [])

/-- A signature by the alias key over a transcript (log 3). -/
def Dev.spdmSign (d : Dev) (kind : SpdmKind) (b : Bytes) : Dev :=
  if !d.spdmKeys then d.emit (.spdm .error [])
  else
    let (nonce, d) := d.draw 32
    let (sig, d) := d.spdmFree 96
    d.emit (.spdm kind (b ++ padTo 32 nonce ++ sig))

/-- A request that an established session carries: its response is protected on the AEE. -/
def Dev.inSession (d : Dev) (state : Nat) (f : Dev → Dev) : Dev :=
  if d.spdm.session = state ∧ d.spdmKeys then f d else d.emit (.spdm .error [])

/-- SPDM_GET_VERSION starts the negotiation over; version 1.3. -/
def execSpdmGetVersion (bus : Nat) (s : State) : Host.Outcome State Fault Refusal :=
  act s fun d => d.spdmIn bus fun d =>
    ({ d with spdm := { d.spdm with version := true, caps := false, algs := false, session := 0 } }).emit
      (.spdm .version (leBytes 2 0x1300))

/-- SPDM_GET_CAPABILITIES. -/
def execSpdmGetCapabilities (bus : Nat) (s : State) : Host.Outcome State Fault Refusal :=
  act s fun d => d.spdmIn bus fun d =>
    if !d.spdm.version then d.emit (.spdm .error [])
    else
      let (b, d) := d.spdmFree 16
      ({ d with spdm := { d.spdm with caps := true } }).emit (.spdm .capabilities b)

/-- SPDM_NEGOTIATE_ALGORITHMS: whether the request offers the supported ones. -/
def execSpdmNegotiateAlgorithms (bus : Nat) (offered : Bool) (s : State) : Host.Outcome State Fault Refusal :=
  act s fun d => d.spdmIn bus fun d =>
    if !d.spdm.caps || !offered then d.emit (.spdm .error [])
    else
      let (b, d) := d.spdmFree 32
      ({ d with spdm := { d.spdm with algs := true } }).emit (.spdm .algorithms b)

/-- SPDM_GET_DIGESTS: SHA-384 of the chains of slots 0 and 1. -/
def execSpdmGetDigests (bus : Nat) (s : State) : Host.Outcome State Fault Refusal :=
  act s fun d => d.spdmIn bus fun d => d.negotiated fun d =>
    d.emit (.spdm .digests (sha384 (d.chain 0) ++ sha384 (d.chain 1)))

/-- SPDM_GET_CERTIFICATE: a part of the chain of slot 0 or 1. -/
def execSpdmGetCertificate (bus slot offset len : Nat) (s : State) : Host.Outcome State Fault Refusal :=
  act s fun d => d.spdmIn bus fun d => d.negotiated fun d =>
    if 2 ≤ slot then d.emit (.spdm .error []) else d.emit (.spdm .certificate (((d.chain slot).drop offset).take len))

/-- SPDM_CHALLENGE on slot 0, whose chain ends in the alias certificate. -/
def execSpdmChallenge (bus slot : Nat) (s : State) : Host.Outcome State Fault Refusal :=
  act s fun d => d.spdmIn bus fun d => d.negotiated fun d =>
    if slot ≠ 0 then d.emit (.spdm .error []) else d.spdmSign .challengeAuth (sha384 (d.chain 0))

/-- SPDM_GET_MEASUREMENTS: index 0 their number, 1 to 5 one, 255 all; signed if asked. -/
def execSpdmGetMeasurements (bus index : Nat) (signed : Bool) (s : State) : Host.Outcome State Fault Refusal :=
  act s fun d => d.spdmIn bus fun d => d.negotiated fun d =>
    let b : Option Bytes :=
      if index = 0 then some (leBytes 1 5)
      else if index = 255 then some d.bot.measure.flatten
      else if index ≤ 5 then d.bot.measure[index - 1]?
      else none
    match b with
    | none => d.emit (.spdm .error [])
    | some b => if signed then d.spdmSign .measurements b else d.emit (.spdm .measurements b)

/-- SPDM_KEY_EXCHANGE: one session at a time; its identifier is the requester's half. -/
def execSpdmKeyExchange (bus ident : Nat) (s : State) : Host.Outcome State Fault Refusal :=
  act s fun d => d.spdmIn bus fun d => d.negotiated fun d =>
    if d.spdm.session ≠ 0 ∨ d.spdmKeys = false then d.emit (.spdm .error [])
    else
      let (share, d) := d.spdmFree 96
      ({ d with spdm := { d.spdm with session := 1, sessionId := ident % 2 ^ 32, keyGen := 0 } }).spdmSign .keyExchangeRsp share

/-- SPDM_FINISH: `ok` is the verdict on its verify data. -/
def execSpdmFinish (bus : Nat) (ok : Bool) (s : State) : Host.Outcome State Fault Refusal :=
  act s fun d => d.spdmIn bus fun d => d.inSession 1 fun d =>
    if ok then ({ d with spdm := { d.spdm with session := 2 } }).secured .finishRsp []
    else ({ d with spdm := { d.spdm with session := 0 } }).emit (.spdm .error [])

/-- SPDM_HEARTBEAT. -/
def execSpdmHeartbeat (bus : Nat) (s : State) : Host.Outcome State Fault Refusal :=
  act s fun d => d.spdmIn bus fun d => d.inSession 2 fun d => d.secured .heartbeatAck []

/-- SPDM_KEY_UPDATE. -/
def execSpdmKeyUpdate (bus : Nat) (s : State) : Host.Outcome State Fault Refusal :=
  act s fun d => d.spdmIn bus fun d => d.inSession 2 fun d =>
    ({ d with spdm := { d.spdm with keyGen := d.spdm.keyGen + 1 } }).secured .keyUpdateAck []

/-- SPDM_END_SESSION. -/
def execSpdmEndSession (bus : Nat) (s : State) : Host.Outcome State Fault Refusal :=
  act s fun d => d.spdmIn bus fun d => d.inSession 2 fun d =>
    ({ d with spdm := { d.spdm with session := 0 } }).secured .endSessionAck []

end Sys2Proof.Machine
end

