-- ==== Sys2Proof/Machine/Epoch.lean ====
section
/-! DEFINITION. The accounting epoch boundary (R38, R39): the Tollgate's check (R37, R40), activation and shares (R58, R59),
the policy tables that become active (R97, R258), the adaptive loops (R160), availability (R229) and health (R448). -/

namespace Sys2Proof.Machine

/-! ## The Tollgate (R37, R40) -/

/-- STATE of a pool by the tests of R37. -/
def Pool.check (q : Pool) : PoolState :=
  let diff : Int := (q.issued : Int) - q.returned - q.lost
  if q.issued < q.returned then .surplus
  else if (q.held : Int) < diff then .deficit
  else if diff < q.held then .surplus
  else if q.capacity < q.held then .overCapacity
  else .balanced

/-- Whether a state is a violation. -/
def PoolState.violates (x : PoolState) : Bool := decide (x = .deficit ∨ x = .surplus ∨ x = .overCapacity)

/-- The counts that a check latches, and what a violation leaves in the pool: the units a DEFICIT writes off count from the
next check on. -/
def Pool.latch (q : Pool) (epoch : Nat) : Pool :=
  let st := q.check
  let q : Pool := { q with
    state := st, checkEpoch := epoch, recIssued := q.issued, recReturned := q.returned, recLost := q.lost
    recHeld := q.held, recCapacity := q.capacity }
  if st.violates then
    { q with
      violated := true, violations := satAdd 32 q.violations 1
      firstViolation := if q.firstViolation = 0 then epoch else q.firstViolation
      lost := if st = .deficit then satAdd 32 q.lost (q.issued - q.returned - q.lost - q.held) else q.lost }
  else q

/-- TOLLGATE_VIOLATION: the record, the notices and the response of R40. -/
def Dev.violation (d : Dev) (p : Nat) : Dev :=
  let q := d.pool p
  let d := (d.log 0x0103 (uid 13 p) (d.poolRecord p)).srcEvent 78
  let d := if d.tol.aenEn then d.vendorEvent 0x80 else d
  let d : Dev := if d.tol.mgtEn then { d with mgt := { d.mgt with healthChange := d.mgt.healthChange ||| 2 ^ 12 } } else d
  let degrade := decide (q.state ≠ .deficit ∨ q.capacity < 8 * q.lost)
  let d := if degrade then d.transition (uid 13 p) .degraded .tollgate else d
  if p = 0 ∨ p = 30 then d.warn 2 true else d

/-- TOLLGATE_CHECK of one pool. -/
def Dev.checkPool (d : Dev) (p : Nat) : Dev :=
  let on := d.domOn (poolDom p)
  let d : Dev := { d with tol := { d.tol with checked := setPut d.tol.checked p on } }
  if !on then d.modPool p (fun q => { q with state := .frozen })
  else
    let epoch := d.clk.epoch
    let d := d.modPool p (fun q => q.latch epoch)
    let st := (d.pool p).state
    let d : Dev := { d with tol := { d.tol with
      deficit := setPut d.tol.deficit p (decide (st = .deficit))
      surplus := setPut d.tol.surplus p (decide (st = .surplus ∨ st = .overCapacity)) } }
    if st.violates then d.violation p else d

/-! ## The clock of R38 -/

/-- The clock after an epoch: 33 ticks where the addition of 768 carries, else 32. -/
def Clock.next (c : Clock) : Clock :=
  let a := c.accum + 768
  { c with
    accum := a % 1000, epoch := c.epoch + 1, ticks := c.ticks + (if 1000 ≤ a then 33 else 32), discardLogged := false }

/-- Whether the device has I/O or programs at work (R414). -/
def Dev.busy (d : Dev) : Bool :=
  d.nvm.cmds.any (fun c => decide (c.job ≠ .aer)) || !d.wrp.grans.isEmpty || !d.rdp.grans.isEmpty || !d.hrt.wbs.isEmpty

/-- The time that passes: ticks, the watchdog's count, the time in each mode and of the sleep conditions, time limits. -/
def Dev.passTime (d : Dev) : Dev :=
  let c := d.clk.next
  let dt := c.ticks - d.clk.ticks
  let m := d.emb.mode
  let slot : Option Nat := match m with
    | .active => some 0
    | .idleReady => some 1
    | .dormant => some 2
    | .deep => some 3
    | _ => none
  let times := match slot with
    | some i => fmod d.emb.times 0 i (· + 1)
    | none => d.emb.times
  let up := decide (m = .active ∨ m = .idleReady)
  let idle := if up && d.maySleep then d.emb.idleMs + 1 else 0
  let dormant := if m = .dormant then d.emb.dormantMs + 1 else d.emb.dormantMs
  let mode : PMode := if up then (if d.busy then .active else .idleReady) else m
  let late (w : Waybill) : Bool := decide (w.state = .running ∧ w.limitMs ≤ tickMs (c.ticks - w.startTick))
  let wbs := d.hrt.wbs.map (fun w => { w with logs := 0, overtime := w.overtime || late w })
  { d with
    clk := c
    wdt := { d.wdt with count := if d.domOn .control then d.wdt.count - dt else d.wdt.count }
    emb := { d.emb with times := times, idleMs := idle, dormantMs := dormant, mode := mode }
    hrt := { d.hrt with wbs := wbs } }

/-- The epochs in which stage 2 or the delta writer waited, and the counts of R192's urgent hold. -/
def Dev.countStalls (d : Dev) : Dev :=
  let w := d.wrp.grans.any (fun g => (decide (g.stage = .credit) && !g.hasW) ||
    (decide (g.stage = .parity ∧ g.pga ≠ 0 ∧ g.cause = 0) && !g.pslc && !g.hasQ))
  let j := !d.jrn.waiting.isEmpty && decide (d.jrn.slot % pageSlots = 0) && !d.canIssue 7 0 1
  { d with
    wrp := { d.wrp with
      stallEpochs := satAdd 32 d.wrp.stallEpochs (b2n (d.wrp.stalled || w)), stalled := false
      movedEpoch := d.wrp.movedNow, movedNow := 0, taken := 0 }
    jrn := { d.jrn with stallEpochs := satAdd 32 d.jrn.stallEpochs (b2n (d.jrn.stalled || j)), stalled := false } }

/-! ## Policy tables (R97) and the Hearth split (R258) -/

/-- HEARTH_SPLIT_CHANGE of one Hearth. One that joins owner use passes at the first boundary at which it is clear. -/
def Dev.splitHearth (d : Dev) (h : Nat) : Dev :=
  let role (d : Dev) (n : Nat) : Dev := { d with hrt := { d.hrt with hearths := fset d.hrt.hearths h { role := n } } }
  match bit d.ownerHearths h, d.hearthRole h with
  | true, 0 => if d.hearthClear h then (role d 1).atomicMode h else d
  | true, 2 => (role d 1).transition (uid 2 h) .alive .none
  | false, 1 =>
    if d.instancesOn h = 0 then role d 0 else (role d 2).transition (uid 2 h) .quiesced .draining
  | _, _ => d

/-- Applied values are clamped into the windows of a table that has become active; this is no evaluation (R160, item 4). -/
def Dev.clampApplied (d : Dev) (id : Nat) : Dev :=
  let c (off1 off2 len v : Nat) : Nat := (clampTo (d.tf id off1 len) (d.tf id off2 len) v).1.toNat
  match id with
  | 2 => { d with map := { d.map with sizeBp := c 0x20 0x22 2 d.map.sizeBp } }
  | 3 => d.forEach (d.mch.dies.map (·.1)) Dev.clampSets
  | 4 =>
    let o := if d.outr.mode = 2 then 8 else 0
    { d with outr := { d.outr with rate := c (0x28 + o) (0x2C + o) 4 d.outr.rate } }
  | 6 =>
    let avs : FMap Avs := (List.range 6).map (fun h =>
      (h, let x := fget d.emb.avs {} h; { x with mv := c 0x26 0x28 2 x.mv }))
    { d with emb := { d.emb with avs := avs, level := c 0x2D 0x2E 1 d.emb.level } }
  | _ => d

/-- POLICY_TABLE_ACTIVATE of one table. -/
def Dev.activateTable (d : Dev) (id : Nat) : Dev :=
  match fget d.nvm.stored none id with
  | none => d
  | some t =>
    let d : Dev := { d with nvm := { d.nvm with policy := fset d.nvm.policy id (some t), stored := fset d.nvm.stored id none } }
    d.clampApplied id

/-! ## Interrupt moderation (R87) -/

/-- The value of the last point of a curve whose x is not above `x`; none below the first. -/
def stepCurve (l : List (Int × Nat)) (x : Int) : Option Nat := ((l.filter (fun p => decide (p.1 ≤ x))).getLast?).map (·.2)

/-- ADAPTIVE_MODERATION_EVAL of one vector. -/
def Dev.evalVector (d : Dev) (fix v : Nat) : Dev :=
  let f := d.fn fix
  let x := f.vec v
  let l := (curve (d.tbl 7) 0x30 8 4 4 2 (d.tf 7 0x2A 2)).map (fun p => ((p.1 : Int), p.2))
  let c := clampTo (d.tf 7 0x24 2) (d.tMax f) ((stepCurve l x.entries).getD 0)
  let r := pinRun x.run (d.tf 7 0x28 2) c.2
  let d := d.modVec fix v (fun x => { x with
    adaptive := some c.1.toNat, entries := 0, run := r.1, pinned := satAdd 32 x.pinned (b2n c.2) })
  if r.2 then { d.logPinned 7 c.1 with qen := { d.qen with modEvents := satAdd 32 d.qen.modEvents 1 } } else d

/-- The vectors of a function that are evaluated; the others count nothing. -/
def Dev.moderate (d : Dev) (fix : Nat) : Dev :=
  let f := d.fn fix
  if !d.adaptiveOn then d.modFn fix (fun f => { f with
    vecs := f.vecs.map (fun p => (p.1, { p.2 with entries := 0, adaptive := none })) })
  else
    let d := d.modFn fix (fun f => { f with
      vecs := f.vecs.map (fun p => (p.1, if f.feat.aggTime = 0 || p.2.noCoalesce then
        { p.2 with entries := 0, adaptive := none, run := 0 } else p.2)) })
    if f.feat.aggTime = 0 then d
    else d.forEach (List.range nVec) (fun d v => if (f.vec v).noCoalesce then d else d.evalVector fix v)

/-! ## Read-reference tracking (R158) -/

/-- The mean of a list rounded to the nearest step, ties toward zero. -/
def meanStep (l : List Int) : Int :=
  let s := l.sum
  let n := l.length
  if n = 0 then 0 else s.sign * ((2 * s.natAbs + n - 1) / (2 * n) : Nat)

/-- One reference: the current offset moved toward the mean by no more than a limit, then clamped. -/
def trackOne (limit : Nat) (cur mean : Int) (w : Int × Int) : Int × Bool :=
  let stepBy := max (-(limit : Int)) (min (limit : Int) (mean - cur))
  clampTo w.1 w.2 (cur + stepBy)

/-- READ_REFERENCE_TRACKING of one die and cell mode that had a step-2 success. -/
def Dev.trackSet (d : Dev) (n cell : Nat) (samples : List (List Int)) : Dev :=
  let x := d.die n
  let nref := nrefOf cell
  let means := (List.range nref).map (fun r => meanStep (samples.map (fun row => row.getD r 0)))
  let now := (d.trackedSet n cell).take nref
  let res := ((now.zip means).zip (d.trackWindow x.profile cell)).map (fun p => trackOne (d.tf 3 0x26 1) p.1.1 p.1.2 p.2)
  let r := pinRun (fget x.runs 0 cell) (d.tf 3 0x24 2) (res.any (·.2))
  let l := res.map (·.1)
  let d := d.modDie n (fun x => { x with
    offsets := fset x.offsets cell (l ++ List.replicate (16 - nref) 0), runs := fset x.runs cell r.1
    pinned := satAdd 16 x.pinned (b2n (res.any (·.2))) })
  if r.2 then
    let d := d.log 0x0105 (uid 4 n) (fields [(1, 3), (4, ((l.headD 0) % 2 ^ 32).toNat)])
    { d with mch := { d.mch with pinnedEvents := satAdd 32 d.mch.pinnedEvents 1 } }
  else d

/-- The sets of one die. -/
def Dev.trackDie (d : Dev) (n : Nat) : Dev :=
  let l := (d.die n).samples
  let d := d.modDie n (fun x => { x with samples := [] })
  if !bit (d.tf 3 0x20 4) 0 then d
  else d.forEach l (fun d p => if p.2.isEmpty then d else d.trackSet n p.1 p.2)

/-! ## pSLC sizing (R196) and read-only (R200) -/

/-- A curve linear between its points, computed exactly and rounded down. -/
def linear (l : List (Nat × Nat)) (x : Nat) : Nat :=
  match l with
  | (x0, y0) :: (x1, y1) :: t =>
    if x ≤ x1 ∨ t = [] then
      (((y0 : Int) * (x1 - x0) + ((y1 : Int) - y0) * (x - x0)) / ((x1 : Int) - x0)).toNat
    else linear ((x1, y1) :: t) x
  | [(_, y)] => y
  | [] => 0

/-- FILL_BP from QF and the headroom: with no unit at all the media is full. -/
def fillBp (qf : Nat) (h : Int) : Nat :=
  if qf = 0 then 10000 else (min 10000 (max 0 (10000 * ((qf : Int) - h) / qf))).toNat

/-- PSLC_SIZING_EVAL, with QF and H counted from the block table (R198). -/
def Dev.evalPslc (d : Dev) : Dev :=
  let qf := d.countQf
  let d : Dev := { d with map := { d.map with qf := qf } }
  let fill := fillBp qf d.headroom
  let c := clampTo (d.tf 2 0x20 2) (d.tf 2 0x22 2) (linear (curve (d.tbl 2) 0x30 4 2 2 2 (d.tf 2 0x26 2)) fill)
  let r := pinRun d.map.run (d.tf 2 0x24 2) c.2
  let d : Dev := { d with map := { d.map with
    fillBp := fill, sizeBp := c.1.toNat, run := r.1
    pinned := satAdd 32 d.map.pinned (b2n c.2), events := satAdd 32 d.map.events (b2n r.2) } }
  let d := if r.2 then d.logPinned 2 c.1 else d
  d.recapMedia

/-- READ_ONLY_EXIT. -/
def Dev.exitReadOnly (d : Dev) : Dev :=
  if !d.nvm.ready || d.nvm.noSuperblock || decide (d.headroom < (d.roExitGib * 2 ^ 24 : Nat)) then d
  else
    let l := (d.nvm.nss.filter (fun p => match p.2 with
      | some n => n.readOnly
      | none => false)).map (·.1)
    let d := d.forEach l (fun d i => match d.ns i with
      | some n => ((d.modNs i (fun n => { n with readOnly := false })).record 6 i 5 n.lbaf n.granules).nsChanged i
      | none => d)
    if l.isEmpty then d else d.warn 3 false

/-! ## The patrol's rate (R225, R226) -/

/-- PATROL_RATE_EVAL with the mode that holds from now on. -/
def Dev.evalPatrol (d : Dev) : Dev :=
  let en := d.tf 4 0x20 4
  let debt := d.patrolDebt
  let mode := if !bit en 0 then 0 else if d.outr.mode = 2 && bit en 1 && decide (debt ≠ 0) then 2 else 1
  let s := (d.writtenBlocks.map (fun p => d.sampleBytes p.1)).sum
  let age := d.ageSeconds d.oldestZone
  let o := if mode = 2 then 8 else 0
  let c := clampTo (d.tf 4 (0x28 + o) 4) (d.tf 4 (0x2C + o) 4)
    (ceilDiv s (max (d.targetDays * 86400 - age) 3600 * 1000000))
  let r := pinRun d.outr.run (d.tf 4 0x24 2) c.2
  let d : Dev := { d with outr := { d.outr with
    mode := mode, debt := debt, rate := c.1.toNat, run := r.1
    pinned := satAdd 32 d.outr.pinned (b2n c.2), events := satAdd 32 d.outr.events (b2n r.2) } }
  if r.2 then d.logPinned 4 c.1 else d

/-! ## Voltage and temperature (R422, R423) -/

/-- AVS_EVAL of one Hearth with its lowest margin code. -/
def Dev.evalAvs (d : Dev) (h m : Nat) : Dev :=
  let x := fget d.emb.avs {} h
  let vmax := d.tf 6 0x28 2
  let stepBy : Int := d.tf 6 0x2A 1
  let v : Int := x.mv
  let prop := if m < d.tf 6 0x2B 1 then v + stepBy else if d.tf 6 0x2C 1 < m then v - stepBy else v
  let on := bit (d.tf 6 0x20 4) 0
  let c := if on then clampTo (d.tf 6 0x26 2) vmax prop else ((vmax : Int), false)
  let r := if on then pinRun x.run (d.tf 6 0x24 2) c.2 else (x.run, false)
  let x : Avs := { x with
    mv := c.1.toNat, margin := m % 256, stretching := decide (m = 0)
    stretch := satAdd 14 x.stretch (b2n (decide (m = 0))), run := r.1 }
  let d : Dev := { d with emb := { d.emb with
    avs := fset d.emb.avs h x, avsPinned := satAdd 32 d.emb.avsPinned (b2n c.2)
    loopEvents := satAdd 32 d.emb.loopEvents (b2n r.2) } }
  if r.2 then d.log 0x0105 (uid 2 h) (fields [(1, 6), (4, (c.1 % 2 ^ 32).toNat)]) else d

/-- THERMAL_THROTTLE_EVAL with the highest reading of the epoch. -/
def Dev.evalThermal (d : Dev) (top : Int) : Dev :=
  let l := (curve (d.tbl 6) 0x40 4 2 2 1 (d.tf 6 0x2F 1)).map (fun p => (sgn16 p.1, p.2))
  let v := (stepCurve l top).getD 0
  let prop : Int := if d.emb.level ≤ v then v else (d.emb.level : Int) - 1
  let lo := d.tf 6 0x2D 1
  let on := bit (d.tf 6 0x20 4) 1
  let c := if on then clampTo lo (d.tf 6 0x2E 1) prop else ((lo : Int), false)
  let r := if on then pinRun d.emb.thermRun (d.tf 6 0x24 2) c.2 else (d.emb.thermRun, false)
  let d : Dev := { d with emb := { d.emb with
    level := c.1.toNat, thermRun := r.1, thermPinned := satAdd 32 d.emb.thermPinned (b2n c.2)
    loopEvents := satAdd 32 d.emb.loopEvents (b2n r.2) } }
  if r.2 then d.logPinned 6 c.1 else d

/-! ## Availability (R229) and health (R448) -/

/-- Whether an attached namespace could not complete a read now for a cause within the device: a reset or recovery that no
host or shelf controller requested, or a fatal controller status. -/
def Dev.unavailable (d : Dev) : Bool :=
  let own := d.emb.cause.any (fun c => decide (3 ≤ c ∧ c ≤ 6))
  let fatal (f : Nat) : Bool := (d.fn f).cfs
  d.nvm.nss.any (fun p => match p.2 with
    | some n => !n.attached.isEmpty && ((!d.nvm.ready && own) || n.attached.any fatal)
    | none => false)

/-- AVAILABILITY_COUNT. -/
def Dev.countAvailability (d : Dev) (mode : PMode) : Dev :=
  if mode ≠ .active ∧ mode ≠ .idleReady then d
  else { d with par := { d.par with poweredMs := d.par.poweredMs + 1, unavailMs := d.par.unavailMs + b2n d.unavailable } }

/-- A health condition with its measured value; none where its domain is off and it cannot be measured. -/
def Dev.healthOf (d : Dev) (i : Nat) : Option (Bool × Nat) :=
  let media := d.domOn .data && d.nvm.ready
  let h := d.headroom
  let low (off : Nat) : Bool := decide (10000 * h < ((d.map.qf * d.tf 9 off 2 : Nat) : Int))
  let bad := (List.range 32).filter (fun p => (d.pool p).violated)
  let units := (h % 2 ^ 64).toNat
  match i with
  | 0 => if media then some (decide (d.availableSpare < d.tf 9 0x20 1), d.availableSpare) else none
  | 1 => if media then some (low 0x22, units) else none
  | 2 => if media then some (low 0x24, units) else none
  | 3 =>
    let z := d.oldestZone
    if media then some (decide ((d.targetDays + d.tf 9 0x26 2) * 86400 < d.ageSeconds z), d.ageHours z) else none
  | 4 => if media then some (decide (d.tf 9 0x28 1 ≤ d.percentUsed), d.percentUsed) else none
  | 5 =>
    let l := d.cfl.sectors.filter (fun p => p.2.worn)
    if d.domOn .control then some (!l.isEmpty, (l.map (·.1)).headD 0) else none
  | _ => some (!bad.isEmpty, maskOf bad)

/-- HEALTH_EVAL of one condition. -/
def Dev.evalHealth (d : Dev) (i : Nat) : Dev :=
  match d.healthOf i with
  | none => d
  | some (on, value) =>
    let begins := on && decide (i ∉ d.mgt.health)
    let d : Dev := { d with mgt := { d.mgt with health := setPut d.mgt.health i on } }
    let d := if i = 0 then d.warn 0 on else d
    if !begins then d
    else
      let d := d.logSev 0x0301 (if i = 0 ∨ i = 2 then 2 else 1) noUnit (fields [(1, i), (8, value)])
      let d : Dev := { d with mgt := { d.mgt with healthChange := d.mgt.healthChange ||| (if i = 0 then 2 ^ 11 else 2 ^ 12) } }
      if d.aenMask 1 then d.vendorEvent 0x82 else d

/-! ## The boundary -/

/-- The loops and tables of the fast domains. -/
def Dev.fastLoops (d : Dev) (margins : List Nat) : Dev :=
  let d := ((d.forEach policyIds Dev.activateTable).forEach [2, 3, 4, 5] Dev.splitHearth).recapEngines
  let oldA := d.fnm.activeCount
  let d := (d.activate).recomputeShares oldA
  let d := d.forEach (d.fnm.fns.map (·.1)) Dev.moderate
  let d := d.forEach (d.mch.dies.map (·.1)) Dev.trackDie
  let d := ((d.evalPslc).exitReadOnly).evalPatrol
  d.forEach (margins.take 6).zipIdx (fun d p => d.evalAvs p.2 p.1)

/-- ACCOUNTING_EPOCH_BOUNDARY: the highest sensor reading now with its sensor, the highest of the epoch, and the lowest margin
code of each Hearth. -/
def execAccountingEpochBoundary (tj : Int) (sensor : Nat) (top : Int) (margins : List Nat) (s : State) :
    Host.Outcome State Fault Refusal :=
  act s fun d =>
    let mode := d.emb.mode
    let d := d.forEach (List.range 32) Dev.checkPool
    let d := (d.countStalls).passTime
    let d := if d.domOn .data && d.domOn .control && d.domOn .host then d.fastLoops margins else d
    let d : Dev := { d with emb := { d.emb with
      tj := tj, sensor := sensor % 16, tjPeak := max d.emb.tjPeak (max tj top) } }
    let d := (d.checkTemps.evalThermal (max tj top)).countAvailability mode
    d.forEach (List.range 7) Dev.evalHealth

end Sys2Proof.Machine
end

