-- ==== Sys2Proof/Machine/Registers.lean ====
section
/-! DEFINITION. The register windows (R8 to R13, R20): each register of the maps with its value, what a read clears and what a
write does. -/

namespace Sys2Proof.Machine

/-! ## Registers and fields -/

/-- A register or an array of registers of one window: offset of the first, what the i-th reads as, its size in bytes, the
distance to the next and how many there are; what a read clears (type RC); what a write with a value and a mask of the bits
written does. -/
structure Reg where
  /-- offset of the first -/
  base : Nat
  /-- value of the i-th -/
  value : Dev → Nat → Nat
  /-- bytes -/
  size : Nat := 4
  /-- distance -/
  stride : Nat := 4
  /-- how many -/
  count : Nat := 1
  /-- effect of a read -/
  clear : Option (Dev → Nat → Dev) := none
  /-- effect of a write: value and mask -/
  write : Option (Dev → Nat → Nat → Nat → Dev) := none

/-- Index and byte within the register of a window offset. -/
def Reg.locate (r : Reg) (off : Nat) : Option (Nat × Nat) :=
  if off < r.base then none
  else
    let i := if r.count = 1 then 0 else (off - r.base) / r.stride
    let b := off - r.base - i * r.stride
    if i < r.count ∧ b < r.size then some (i, b) else none

/-- The register that an offset lies in. -/
def findReg (l : List Reg) (off : Nat) : Option (Reg × Nat × Nat) :=
  l.findSome? (fun r => (r.locate off).map (fun p => (r, p.1, p.2)))

/-- A value from fields: lowest bit, width, content. -/
def pack (l : List (Nat × Nat × Nat)) : Nat := (l.map (fun p => p.2.2 % 2 ^ p.2.1 * 2 ^ p.1)).sum

/-- A field after a write of `v` under a mask. -/
def putF (old lo w v mask : Nat) : Nat := if bit mask lo then bitsOf v lo w else old

/-- A one-bit field after a write. -/
def putB (old : Bool) (lo v mask : Nat) : Bool := if bit mask lo then bit v lo else old

/-- Whether a write carries a 1 to a bit. -/
def ones (lo v mask : Nat) : Bool := bit mask lo && bit v lo

/-- A COMMIT register. -/
def commitReg (base : Nat) (f : Dev → Dev) : Reg :=
  { base := base, value := fun _ _ => 0, write := some fun d _ v m => if ones 0 v m then f d else d }

/-- A read-only register or array of 64 bits. -/
def ro64 (base : Nat) (f : Dev → Nat) : Reg := { base := base, value := fun d _ => f d, size := 8 }

/-- A read-only register of 32 bits. -/
def ro32 (base : Nat) (f : Dev → Nat) : Reg := { base := base, value := fun d _ => f d }

/-- A counter that a read clears. -/
def rc32 (base : Nat) (f : Dev → Nat) (g : Dev → Dev) : Reg :=
  { base := base, value := fun d _ => f d, clear := some fun d _ => g d }

/-- How many elements of a list meet a test. -/
def countOf {α : Type} (l : List α) (p : α → Bool) : Nat := (l.filter p).length

/-! ## Host link, function manager, queue engine (R70, R71, R111) -/

/-- Index of a link state, for its LTSSM number. -/
def Ltssm.index (l : Ltssm) : Nat :=
  match l with
  | .detect => 0 | .polling => 1 | .configuration => 2 | .l0 => 3 | .recovery => 4 | .l1 => 5 | .l11 => 6 | .l12 => 7
  | .l23 => 8

/-- A port as its registers show it: port 1 reads as 0 in mode 0. -/
def Dev.portRegs (d : Dev) (n : Nat) (f : Port → Nat) : Nat := if n = 1 ∧ d.hlk.modeA = 0 then 0 else f (d.port n)

/-- A commit of HLK: the rate limit is active at once, the mode is stored and waits for a reset (R44). -/
def Dev.commitHlk (d : Dev) : Dev := { d with hlk := { d.hlk with maxRateA := d.hlk.maxRate, stored := d.hlk.mode } }

def hlkRegs : List Reg := [
  { base := 0, value := fun d _ => pack [(0, 1, d.hlk.mode), (4, 3, d.hlk.maxRate)]
    write := some fun d _ v m => { d with hlk := { d.hlk with
      mode := putF d.hlk.mode 0 1 v m, maxRate := putF d.hlk.maxRate 4 3 v m } } },
  commitReg 4 Dev.commitHlk,
  ro32 8 (fun d => pack [(0, 1, d.hlk.modeA), (4, 3, d.hlk.maxRateA)]),
  { base := 0x10, stride := 0x10, count := 2
    value := fun d n => d.portRegs n (fun p => pack [(0, 6, (Config.ltssmCode p.ltssm.index).toNat), (6, 3, p.rate),
      (9, 5, p.width), (14, 1, b2n p.flit), (15, 5, p.l0pWidth), (20, 1, b2n p.downgraded)])
    write := some fun d n v m =>
      if ones 20 v m then d.modPort n (fun p => { p with downgraded := false }) else d },
  { base := 0x14, stride := 0x10, count := 2, value := fun d n => d.portRegs n (·.recovery)
    clear := some fun d n => d.modPort n (fun p => { p with recovery := 0 }) },
  { base := 0x18, stride := 0x10, count := 2, value := fun d n => d.portRegs n (·.fecUncorr)
    clear := some fun d n => d.modPort n (fun p => { p with fecUncorr := 0 }) }]

/-- State bits of a function. -/
def Dev.fnBits (d : Dev) (f : Nat) : Nat :=
  pack [(0, 1, b2n (d.fnExists f)), (1, 1, b2n (d.fn f).active), (2, 1, b2n (d.fn f).resetting)]

def fnmRegs : List Reg := [
  ro32 0 (fun d => pack [(0, 11, d.fnm.activeCount)]),
  { base := 8, value := fun d _ => d.fnm.sel
    write := some fun d _ v m => { d with fnm := { d.fnm with sel := putF d.fnm.sel 0 10 v m } } },
  ro32 0x10 (fun d => d.fnBits d.fnm.sel + pack [(3, 1, d.portOf d.fnm.sel), (4, 1, b2n (d.isPf d.fnm.sel))]),
  ro64 0x18 (fun d => (d.fn d.fnm.sel).epoch),
  ro32 0x20 (fun d => (d.fn d.fnm.sel).fence),
  ro32 0x24 (fun d => (d.fn d.fnm.sel).lastResetUs),
  ro32 0x28 (fun d => (d.fn d.fnm.sel).resets),
  { base := 0x40, size := 8, stride := 8, count := 11
    value := fun d k => let x := (d.pool (ePools.getD k 0)).shareOf d.fnm.sel; pack [(0, 32, x.held), (32, 32, x.share)] },
  { base := 0x100, count := 11, value := fun d k => pack [(0, 10, (d.pool (ePools.getD k 0)).rot)] },
  { base := 0x8000, count := 1024, value := fun d n => d.fnBits n + pack [(16, 16, (d.fn n).epoch)] }]

/-- The queue pair selected: its queues, if the pair exists. DESIGN CHOICE (log 99): SQ QID and CQ QID stand side by side, whichever
CQ the SQ uses, and the pair exists once both do. -/
def Dev.selPair (d : Dev) : Option (Sq × Cq) :=
  let f := d.fn d.qen.selFix
  match f.sq d.qen.selQid, f.cq d.qen.selQid with
  | some s, some c => some (s, c)
  | _, _ => none

/-- A value of the pair selected; 0 where it does not exist. -/
def Dev.ofPair (d : Dev) (g : Sq → Cq → Nat) : Nat := match d.selPair with
  | some (s, c) => g s c
  | none => 0

/-- The MSI-X vector of the CQ selected. -/
def Dev.selVec (d : Dev) : Nat × Vec :=
  let f := d.fn d.qen.selFix
  let v := match f.cq d.qen.selQid with
    | some c => c.vector
    | none => 0
  (v, f.vec v)

/-- Whether adaptive moderation applies to a vector. -/
def Dev.adapts (d : Dev) (f : Fn) (x : Vec) : Bool := d.adaptiveOn && decide (f.feat.aggTime ≠ 0) && !x.noCoalesce

def qenRegs : List Reg := [
  { base := 0, value := fun d _ => pack [(0, 10, d.qen.selFix), (16, 9, d.qen.selQid)]
    write := some fun d _ v m => { d with qen := { d.qen with
      selFix := putF d.qen.selFix 0 10 v m, selQid := putF d.qen.selQid 16 9 v m } } },
  ro64 8 (fun d => d.ofPair (fun s _ => s.base)),
  ro64 0x10 (fun d => d.ofPair (fun _ c => c.base)),
  ro32 0x18 (fun d => d.ofPair (fun s c => pack [(0, 16, s.size - 1), (16, 16, c.size - 1)])),
  ro32 0x1C (fun d => d.ofPair (fun s _ => pack [(0, 16, s.tail), (16, 16, s.head)])),
  ro32 0x20 (fun d => d.ofPair (fun _ c => pack [(0, 16, c.tail), (16, 16, c.head)])),
  ro32 0x24 (fun d => d.ofPair (fun _ c => pack [(0, 1, 1),
    (1, 1, b2n (decide ((d.qen.selFix, d.qen.selQid) ∈ d.qen.cached))), (2, 1, b2n c.phase),
    (3, 1, b2n (d.adapts (d.fn d.qen.selFix) d.selVec.2)), (4, 9, d.selVec.1)])),
  ro32 0x28 (fun d => d.ofPair (fun _ _ => pack [(0, 16, d.tInEffect (d.fn d.qen.selFix) d.selVec.2),
    (16, 8, (d.fn d.qen.selFix).feat.aggThr)])),
  rc32 0x2C (fun d => d.ofPair (fun _ _ => d.selVec.2.pinned)) (fun d =>
    if d.selPair.isSome then d.modVec d.qen.selFix d.selVec.1 (fun x => { x with pinned := 0 }) else d),
  ro64 0x40 (fun d => d.qen.ctxHit), ro64 0x48 (fun d => d.qen.ctxMiss),
  rc32 0x50 (fun d => d.qen.dbInvalid) (fun d => { d with qen := { d.qen with dbInvalid := 0 } }),
  rc32 0x54 (fun d => d.qen.modEvents) (fun d => { d with qen := { d.qen with modEvents := 0 } })]

/-! ## Pipelines (R134 to R137) -/

/-- Layout of WRP_CFG. -/
def wrpCfg (close : Nat) (first : Bool) : Nat := pack [(0, 16, close), (16, 1, b2n first)]

def Dev.commitWrp (d : Dev) : Dev := { d with wrp := { d.wrp with closeA := d.wrp.close, pslcFirstA := d.wrp.pslcFirst } }

def wrpRegs : List Reg := [
  { base := 0, value := fun d _ => wrpCfg d.wrp.close d.wrp.pslcFirst
    write := some fun d _ v m => { d with wrp := { d.wrp with
      close := putF d.wrp.close 0 16 v m, pslcFirst := putB d.wrp.pslcFirst 16 v m } } },
  commitReg 4 Dev.commitWrp,
  ro32 8 (fun d => wrpCfg d.wrp.closeA d.wrp.pslcFirstA),
  ro64 0x10 (fun d => d.wrp.userBytes), ro64 0x18 (fun d => d.wrp.storedBytes),
  ro64 0x20 (fun d => d.wrp.pslcGran), ro64 0x28 (fun d => d.wrp.qlcGran),
  ro64 0x30 (fun d => d.wrp.mergeReads), ro64 0x38 (fun d => d.wrp.padMembers),
  rc32 0x40 (fun d => d.wrp.stallEpochs) (fun d => { d with wrp := { d.wrp with stallEpochs := 0 } })]

def Dev.commitRdp (d : Dev) : Dev := { d with rdp := { d.rdp with reconA := d.rdp.recon } }

def rdpRegs : List Reg := [
  { base := 0, value := fun d _ => b2n d.rdp.recon
    write := some fun d _ v m => { d with rdp := { d.rdp with recon := putB d.rdp.recon 0 v m } } },
  commitReg 4 Dev.commitRdp,
  ro32 8 (fun d => b2n d.rdp.reconA),
  ro64 0x10 (fun d => d.rdp.granules), ro64 0x18 (fun d => d.rdp.diverted),
  rc32 0x20 (fun d => d.rdp.checkFail) (fun d => { d with rdp := { d.rdp with checkFail := 0 } }),
  rc32 0x24 (fun d => d.rdp.reconstructed) (fun d => { d with rdp := { d.rdp with reconstructed := 0 } }),
  rc32 0x28 (fun d => d.rdp.unrecovered) (fun d => { d with rdp := { d.rdp with unrecovered := 0 } }),
  rc32 0x2C (fun d => d.rdp.keyMismatch) (fun d => { d with rdp := { d.rdp with keyMismatch := 0 } })]

def Dev.commitIcm (d : Dev) : Dev := { d with icm := { d.icm with minSavingA := d.icm.minSaving } }

def icmRegs : List Reg := [
  { base := 0, value := fun d _ => d.icm.minSaving
    write := some fun d _ v m => { d with icm := { d.icm with minSaving := putF d.icm.minSaving 0 4 v m } } },
  commitReg 4 Dev.commitIcm,
  ro32 8 (fun d => d.icm.minSavingA),
  { base := 0x10, size := 8, stride := 8, count := 16, value := fun d n => fget d.icm.clane 0 n },
  { base := 0x90, size := 8, stride := 8, count := 16, value := fun d n => fget d.icm.dlane 0 n },
  ro64 0x110 (fun d => d.icm.storedForm),
  rc32 0x118 (fun d => d.icm.lenMismatch) (fun d => { d with icm := { d.icm with lenMismatch := 0 } })]

def mxtRegs : List Reg := [
  { base := 0x10, count := 32, value := fun d n => pack [(0, 8, (d.mxtLane n).mismatch), (8, 1, b2n (d.mxtLane n).retired)] },
  rc32 0x90 (fun d => d.mxt.railMismatch) (fun d => { d with mxt := { d.mxt with railMismatch := 0 } })]

def ldcRegs : List Reg := [
  { base := 0x10, size := 8, stride := 8, count := 64, value := fun d n => fget d.ldc.hard 0 n },
  { base := 0x210, size := 8, stride := 8, count := 8, value := fun d n => fget d.ldc.soft 0 n },
  ro64 0x250 (fun d => d.ldc.rungs),
  rc32 0x258 (fun d => d.ldc.softEsc) (fun d => { d with ldc := { d.ldc with softEsc := 0 } }),
  rc32 0x25C (fun d => d.ldc.uncorr) (fun d => { d with ldc := { d.ldc with uncorr := 0 } })]

/-! ## Media and cartridges (R166, R167) -/

/-- Layout of MCH_CFG. -/
def mchCfg (rate : Nat) (verify : Bool) (duty : Nat) : Nat := pack [(0, 3, rate), (3, 1, b2n verify), (4, 5, duty)]

/-- Layout of MCH_SUSP_CFG. -/
def suspCfg (ers pgm ersMax pgmMax reads : Nat) : Nat :=
  pack [(0, 8, ers), (8, 8, pgm), (16, 4, ersMax), (20, 4, pgmMax), (24, 4, reads)]

def Dev.commitMch (d : Dev) : Dev :=
  let m := d.mch
  { d with mch := { m with
    maxRateA := m.maxRate, verifyA := m.verify, peDutyA := m.peDuty, ersMinRunA := m.ersMinRun, pgmMinRunA := m.pgmMinRun
    ersMaxSuspA := m.ersMaxSusp, pgmMaxSuspA := m.pgmMaxSusp, suspMaxReadsA := m.suspMaxReads } }

/-- A counter of a channel. -/
def chanRc (base : Nat) (f : Chan → Nat) (g : Chan → Chan) : Reg :=
  { base := base, stride := 0x40, count := 64, value := fun d c => f (d.chan c), clear := some fun d c => d.modChan c g }

/-- A 64-bit counter of a channel. -/
def chan64 (base : Nat) (f : Chan → Nat) : Reg :=
  { base := base, size := 8, stride := 0x40, count := 64, value := fun d c => f (d.chan c) }

def mchRegs : List Reg := [
  { base := 0, value := fun d _ => mchCfg d.mch.maxRate d.mch.verify d.mch.peDuty
    write := some fun d _ v m => { d with mch := { d.mch with
      maxRate := putF d.mch.maxRate 0 3 v m, verify := putB d.mch.verify 3 v m, peDuty := putF d.mch.peDuty 4 5 v m } } },
  commitReg 4 Dev.commitMch,
  ro32 8 (fun d => mchCfg d.mch.maxRateA d.mch.verifyA d.mch.peDutyA),
  { base := 0x10
    value := fun d _ => suspCfg d.mch.ersMinRun d.mch.pgmMinRun d.mch.ersMaxSusp d.mch.pgmMaxSusp d.mch.suspMaxReads
    write := some fun d _ v m => { d with mch := { d.mch with
      ersMinRun := putF d.mch.ersMinRun 0 8 v m, pgmMinRun := putF d.mch.pgmMinRun 8 8 v m
      ersMaxSusp := putF d.mch.ersMaxSusp 16 4 v m, pgmMaxSusp := putF d.mch.pgmMaxSusp 20 4 v m
      suspMaxReads := putF d.mch.suspMaxReads 24 4 v m } } },
  ro32 0x14 (fun d => suspCfg d.mch.ersMinRunA d.mch.pgmMinRunA d.mch.ersMaxSuspA d.mch.pgmMaxSuspA d.mch.suspMaxReadsA),
  rc32 0x20 (fun d => d.mch.pinnedEvents) (fun d => { d with mch := { d.mch with pinnedEvents := 0 } }),
  rc32 0x24 (fun d => d.mch.blockInErase) (fun d => { d with mch := { d.mch with blockInErase := 0 } }),
  { base := 0x1000, stride := 0x40, count := 64
    value := fun d c => let x := d.chan c
      pack [(0, 3, (d.unit (uid 3 c)).state.code), (3, 3, x.rate), (6, 1, b2n x.trained), (7, 7, x.dies), (14, 4, x.ce)] },
  chan64 0x1008 (·.reads), chan64 0x1010 (·.programs), chan64 0x1018 (·.erases),
  chanRc 0x1020 (·.suspends) (fun x => { x with suspends := 0 }),
  chanRc 0x1024 (·.timeouts) (fun x => { x with timeouts := 0 }),
  chanRc 0x1028 (·.pgmFail) (fun x => { x with pgmFail := 0 }),
  chanRc 0x102C (·.ersFail) (fun x => { x with ersFail := 0 }),
  chanRc 0x1030 (·.retrains) (fun x => { x with retrains := 0 }),
  { base := 0x8000, size := 8, stride := 8, count := 4096
    value := fun d n => let x := d.die n
      pack [(0, 1, b2n x.present), (1, 3, (d.unit (uid 4 n)).state.code), (4, 2, x.cell), (6, 8, x.profile),
        (14, 16, x.pinned), (30, 16, (x.runs.map (·.2)).sum)] }]

/-- Layout of CRT_CFG. -/
def crtCfg (auto : Bool) (debounce : Nat) : Nat := pack [(0, 1, b2n auto), (8, 8, debounce)]

def Dev.commitCrt (d : Dev) : Dev := { d with crt := { d.crt with autoA := d.crt.auto, debounceA := d.crt.debounce } }

def crtRegs : List Reg := [
  { base := 0, value := fun d _ => crtCfg d.crt.auto d.crt.debounce
    write := some fun d _ v m => { d with crt := { d.crt with
      auto := putB d.crt.auto 0 v m, debounce := putF d.crt.debounce 8 8 v m } } },
  commitReg 4 Dev.commitCrt,
  ro32 8 (fun d => crtCfg d.crt.autoA d.crt.debounceA),
  { base := 0x10, stride := 0x10, count := 8
    value := fun d g => let c := d.grp g
      pack [(0, 1, b2n c.presRaw), (1, 1, b2n c.present), (2, 1, b2n c.pwren), (3, 1, b2n c.pgood), (4, 1, b2n c.fenced),
        (5, 1, b2n c.safe), (6, 3, (d.unit (uid 5 g)).state.code)] },
  { base := 0x14, stride := 0x10, count := 8
    value := fun d g => let c := d.grp g
      pack [(0, 1, b2n c.insert), (1, 1, b2n c.remove), (2, 1, b2n c.surprise), (3, 1, b2n c.pgoodFail)]
    write := some fun d g v m => d.modGrp g (fun c => { c with
      insert := c.insert && !ones 0 v m, remove := c.remove && !ones 1 v m
      surprise := c.surprise && !ones 2 v m, pgoodFail := c.pgoodFail && !ones 3 v m }) },
  { base := 0x18, stride := 0x10, count := 8, value := fun d g => (d.grp g).insertions }]

/-! ## Map, journal, parity, Outrider (R201, R202, R230, R231) -/

/-- Chunks of the map items that meet a test. -/
def Dev.itemsSum (d : Dev) (p : Item → Bool) : Nat :=
  let sum (m : FMap Item) : Nat := ((m.filter (fun x => p x.2)).map (fun x => x.2.chunks)).sum
  sum d.map.leaves + sum d.map.dirs + sum d.map.chunkItems

/-- The alive die with the fewest spares, the lowest on a tie: its spares and its number. -/
def Dev.minSpares (d : Dev) : Nat × Nat :=
  match (d.aliveDies.foldl (fun (a : Option (Nat × Nat)) n =>
    let k := (d.die n).spares.length
    match a with
    | none => some (k, n)
    | some b => if k < b.1 then some (k, n) else some b) none) with
  | some p => p
  | none => (0, 0)

def mapRegs : List Reg := [
  ro64 0x10 (fun d => d.cacheChunks),
  ro64 0x18 (fun d => d.itemsSum (·.dirty)),
  ro64 0x20 (fun d => d.map.hits), ro64 0x28 (fun d => d.map.misses), ro64 0x30 (fun d => d.map.dirMisses),
  ro64 0x38 (fun d => d.map.flushes),
  ro64 0x40 (fun d => (d.headroom % 2 ^ 64).toNat),
  ro32 0x48 (fun d => pack [(0, 16, d.map.sizeBp), (16, 16, d.map.fillBp)]),
  rc32 0x4C (fun d => d.map.pinned) (fun d => { d with map := { d.map with pinned := 0 } }),
  rc32 0x50 (fun d => d.map.events) (fun d => { d with map := { d.map with events := 0 } }),
  ro32 0x54 (fun d => countOf d.nvm.nss (fun p => match p.2 with
    | some n => n.readOnly
    | none => false)),
  ro64 0x58 (fun d => d.map.moves),
  rc32 0x60 (fun d => d.map.discarded) (fun d => { d with map := { d.map with discarded := 0 } }),
  rc32 0x64 (fun d => d.map.capExceeded) (fun d => { d with map := { d.map with capExceeded := 0 } }),
  ro32 0x68 (fun d => pack [(0, 16, d.minSpares.1), (16, 12, d.minSpares.2)])]

/-- Layout of JRN_CFG. -/
def jrnCfg (ms high : Nat) : Nat := pack [(0, 7, ms), (8, 7, high)]

def Dev.commitJrn (d : Dev) : Dev := { d with jrn := { d.jrn with ckptA := d.jrn.ckpt, highA := d.jrn.high } }

def jrnRegs : List Reg := [
  { base := 0, value := fun d _ => jrnCfg d.jrn.ckpt d.jrn.high
    write := some fun d _ v m => { d with jrn := { d.jrn with
      ckpt := putF d.jrn.ckpt 0 7 v m, high := putF d.jrn.high 8 7 v m } } },
  commitReg 4 Dev.commitJrn,
  ro32 8 (fun d => jrnCfg d.jrn.ckptA d.jrn.highA),
  ro64 0x10 (fun d => d.jrn.next), ro64 0x18 (fun d => d.jrn.head), ro64 0x20 (fun d => d.jrn.gen),
  ro32 0x28 (fun d => pack [(0, 13, (d.pool 7).held)]),
  rc32 0x2C (fun d => d.jrn.stallEpochs) (fun d => { d with jrn := { d.jrn with stallEpochs := 0 } }),
  ro64 0x30 (fun d => d.jrn.replayed),
  ro32 0x38 (fun d => pack [(0, 24, d.jrn.timeUs), (24, 2, d.jrn.stop)]),
  rc32 0x3C (fun d => d.jrn.torn) (fun d => { d with jrn := { d.jrn with torn := 0 } })]

def parRegs : List Reg := [
  ro32 0x10 (fun d => pack [(0, 10, (d.pool 14).held), (10, 1, d.newGeom), (11, 4, d.missingGroups.length)]),
  ro64 0x18 (fun d => d.par.sealedCount), ro64 0x20 (fun d => d.par.reconCw),
  rc32 0x28 (fun d => d.par.accRecovered) (fun d => { d with par := { d.par with accRecovered := 0 } }),
  rc32 0x2C (fun d => d.par.unrecoverable) (fun d => { d with par := { d.par with unrecoverable := 0 } }),
  ro32 0x30 (fun d => d.par.stranded),
  { base := 0x40, size := 8, stride := 0x10, count := 8
    value := fun d g => let p := fget d.par.pointers (0, 0) g
      pack [(0, 9, p.1), (9, 16, p.2), (25, 1, b2n (d.rebuilding g))] },
  { base := 0x48, stride := 0x10, count := 8, value := fun d g => fget d.par.rebuilt 0 g },
  ro64 0xC0 (fun d => d.par.poweredMs), ro64 0xC8 (fun d => d.par.unavailMs)]

def outRegs : List Reg := [
  ro32 0x10 (fun d => pack [(0, 2, d.outr.mode), (2, 1, b2n d.clk.stamp.isSome)]),
  ro32 0x14 (fun d => pack [(0, 17, d.outr.rate)]),
  ro64 0x18 (fun d => d.outr.debt),
  ro32 0x20 (fun d => d.ageHours d.oldestZone),
  rc32 0x24 (fun d => d.outr.pinned) (fun d => { d with outr := { d.outr with pinned := 0 } }),
  rc32 0x28 (fun d => d.outr.events) (fun d => { d with outr := { d.outr with events := 0 } }),
  rc32 0x2C (fun d => d.outr.refresh) (fun d => { d with outr := { d.outr with refresh := 0 } }),
  ro64 0x30 (fun d => d.outr.samples),
  ro64 0x38 (fun d => d.clk.timeLast)]

/-! ## Hearths, Drover, Tongs (R260, R364, R298) -/

/-- Hearths in a role, one bit each. -/
def Dev.roleMask (d : Dev) (r : Nat) : Nat := maskOf ((List.range 6).filter (fun h => decide (d.hearthRole h = r)))

/-- Contexts of a Hearth that run instances. -/
def Dev.busyInst (d : Dev) (h : Nat) : Nat :=
  countOf (ctxsOf h) (fun c => match d.busyOf c with
    | some n => (d.thread n).wb.isSome
    | none => false)

def hrtRegs : List Reg := [
  ro32 0x10 (fun d => pack [(0, 6, d.roleMask 1), (8, 6, d.roleMask 2)]),
  ro32 0x14 (fun d => pack [(0, 16, countOf d.hrt.wbs (fun w => decide (w.state = .running))),
    (16, 16, countOf d.hrt.wbs (fun w => decide (w.state = .admitting ∨ w.state = .waiting)))]),
  ro32 0x18 (fun d => pack [(0, 13, countOf d.hrt.images (fun p => p.2.isSome)), (13, 13, d.hrt.withdrawn.length)]),
  ro64 0x20 (fun d => d.hrt.started),
  { base := 0x40, size := 8, stride := 8, count := 8, value := fun d i => fget d.hrt.ends 0 i },
  ro64 0x80 (fun d => pack [(0, 32, d.hrt.faultHandle), (32, 10, d.hrt.faultFix)]),
  rc32 0x88 (fun d => d.hrt.logDropped) (fun d => { d with hrt := { d.hrt with logDropped := 0 } }),
  { base := 0x90, count := 6, value := fun d h => pack [(0, 2, d.hearthRole h), (8, 8, d.busyInst h)] }]

/-- Layout of DRV_Hh_CFG. -/
def drvCfg (tick timer flow : Nat) : Nat := pack [(0, 9, tick), (9, 2, timer), (11, 1, flow)]

/-- A commit of the six Hearths: a change of FLOW_MODE waits for the threads with a flow (R353). -/
def Dev.commitDrv (d : Dev) : Dev :=
  d.forEach (List.range 6) (fun d h => d.modDh h (fun q => { q with
    tickA := q.tick, timerModeA := q.timerMode
    flowNext := if q.flowMode = q.flowModeA then none else some q.flowMode }))

/-- Levels of a Hearth with a READY thread. -/
def DrvH.levels (x : DrvH) : List Nat := (x.ready.filter (fun p => !p.2.isEmpty)).map (·.1)

/-- A register of each Hearth's Drover. -/
def drvReg (base size : Nat) (f : Dev → Nat → DrvH → Nat) : Reg :=
  { base := base, size := size, stride := 0x40, count := 6, value := fun d h => f d h (d.dh h) }

def drvRegs : List Reg := [
  commitReg 4 Dev.commitDrv,
  ro32 0x10 (fun d => pack [(0, 15, (d.pool 17).held), (15, 13, (d.pool 18).held)]),
  ro64 0x18 (fun d => d.drv.now),
  { base := 0x20, count := 6, value := fun d h => let q := d.dh h; drvCfg q.tick q.timerMode q.flowMode
    write := some fun d h v m => d.modDh h (fun q => { q with
      tick := putF q.tick 0 9 v m, timerMode := putF q.timerMode 9 2 v m, flowMode := putF q.flowMode 11 1 v m }) },
  { base := 0x40, count := 6, value := fun d h => let q := d.dh h; drvCfg q.tickA q.timerModeA q.flowModeA },
  rc32 0x60 (fun d => d.drv.cancelsBefore) (fun d => { d with drv := { d.drv with cancelsBefore := 0 } }),
  rc32 0x64 (fun d => d.drv.tokenFault) (fun d => { d with drv := { d.drv with tokenFault := 0 } }),
  ro64 0x68 (fun d => d.drv.firings),
  drvReg 0x100 4 (fun _ _ q => pack [(0, 13, q.readyCount), (13, 6, (q.top.map (·.1)).getD 0), (19, 1, b2n q.top.isNone)]),
  drvReg 0x104 4 (fun _ _ q => pack [(0, 13, q.delay.length)]),
  drvReg 0x108 8 (fun _ _ q => maskOf q.levels),
  drvReg 0x110 8 (fun _ _ q => q.dispatches), drvReg 0x118 8 (fun _ _ q => q.preempts),
  drvReg 0x120 8 (fun _ _ q => q.expiries),
  { drvReg 0x128 4 (fun _ _ q => q.backpressure) with clear := some fun d h => d.modDh h (fun q => { q with backpressure := 0 }) },
  { drvReg 0x12C 4 (fun _ _ q => q.late) with clear := some fun d h => d.modDh h (fun q => { q with late := 0 }) },
  drvReg 0x130 4 (fun d h _ => countOf d.drv.threads (fun p => decide (p.2.state = .flowHeld ∧ p.2.hearth = h))),
  drvReg 0x134 4 (fun d h _ => ((d.drv.tickets.filter (fun p => p.1 / 2 ^ 20 = h)).map (fun p => p.2.length)).sum)]

/-- A register of each Tongs unit. -/
def tngReg (base size : Nat) (f : TUnit → Nat) : Reg :=
  { base := base, size := size, stride := 0x40, count := 16, value := fun d u => f (d.tu u) }

/-- A counter of each unit that a read clears. -/
def tngRc (base : Nat) (f : TUnit → Nat) (g : TUnit → TUnit) : Reg :=
  { tngReg base 4 f with clear := some fun d u => d.modTu u g }

def tngRegs : List Reg := [
  ro32 0x10 (fun d => pack [(0, 11, (d.pool 24).held)]),
  ro32 0x14 (fun d => d.tng.scrubPasses),
  tngReg 0x100 4 (fun x => pack [(0, 1, b2n x.fix.isSome), (1, 1, b2n x.sorted), (2, 1, b2n x.releasing),
    (3, 1, b2n x.stepping), (8, 10, x.fix.getD 0)]),
  tngReg 0x104 4 (fun x => pack [(0, 17, countOf x.table (fun p => p.2.isSome))]),
  tngReg 0x108 8 (·.nSearch), tngReg 0x110 8 (·.nUpdate), tngReg 0x118 8 (·.nMove), tngReg 0x120 8 (·.updateSeq),
  tngRc 0x128 (·.multi) (fun x => { x with multi := 0 }),
  tngRc 0x12C (fun x => x.maxShift % 65536) (fun x => { x with maxShift := 0 }),
  tngRc 0x130 (·.parity) (fun x => { x with parity := 0 })]

/-! ## Engines (R314, R315, R341 to R343) -/

/-- The pool and instance registers that the three engines share. -/
def engHead (e pool : Nat) (waiting : Dev → Nat) : List Reg := [
  ro32 0x10 (fun d => pack [(0, 8, (d.pool pool).held), (8, 8, (d.pool pool).capacity), (16, 16, waiting d)]),
  ro32 0x14 (fun d => maskOf (d.aliveEngs e))]

/-- A register of each instance. -/
def engReg (e base size : Nat) (f : Dev → Nat → Eng → Nat) : Reg :=
  { base := base, size := size, stride := 0x40, count := 8, value := fun d i => f d i (d.eng e i) }

/-- A counter of each instance that a read clears. -/
def engRc (e base : Nat) (f : Eng → Nat) (g : Eng → Eng) : Reg :=
  { engReg e base 4 (fun _ _ x => f x) with clear := some fun d i => d.modEng e i g }

/-- The descriptor of R314; a free context shows zeros. -/
def CJob.record (j : CJob) : Bytes :=
  if j.state = 0 then zeroBytes 64
  else leBytes 1 j.op ++ leBytes 1 j.level ++ leBytes 1 (b2n (decide (j.ticket ≠ 0))) ++ leBytes 1 j.ticket ++
    leBytes 2 j.fix ++ leBytes 2 j.epoch ++ leBytes 2 j.caller ++ leBytes 1 j.state ++ leBytes 1 j.result ++
    leBytes 4 j.segments ++ leBytes 8 j.src.toNat ++ leBytes 8 j.srcLen ++ leBytes 8 j.dst.toNat ++ leBytes 8 j.dstCap ++
    leBytes 8 j.consumed ++ leBytes 8 j.produced

def cxeRegs : List Reg := engHead 0 25 (fun d => d.cxe.waiting.length) ++ [
  engReg 0 0x100 4 (fun d i x => pack [(0, 5, d.engBusy 0 i), (5, 1, b2n x.retired)]),
  engReg 0 0x108 8 (fun _ _ x => x.jobs), engReg 0 0x110 8 (fun _ _ x => x.inBytes), engReg 0 0x118 8 (fun _ _ x => x.outBytes),
  engRc 0 0x120 (·.corrupt) (fun x => { x with corrupt := 0 }),
  engRc 0 0x124 (·.lenMismatch) (fun x => { x with lenMismatch := 0 }),
  engRc 0 0x128 (·.dstFull) (fun x => { x with dstFull := 0 }),
  engRc 0 0x12C (·.squashed) (fun x => { x with squashed := 0 }),
  engRc 0 0x130 (·.restarts) (fun x => { x with restarts := 0 }),
  { base := 0x1000, size := 64, stride := 64, count := 128, value := fun d k => ofLe (fget d.cxe.jobs {} k).record }]

/-- Operations parked under R320: open, and no call of theirs in a context. -/
def Dev.parked (d : Dev) : Nat :=
  countOf d.drv.ctxs (fun p => match p.2 with
    | some c => c.digest.isSome && !d.dge.ctxs.any (fun q => decide (q.2.state ≠ 0 ∧ q.2.wb = c.wb))
    | none => false)

def dgeRegs : List Reg := engHead 1 26 (fun d => d.dge.waiting.length) ++ [
  ro32 0x18 (fun d => pack [(0, 16, d.parked)]),
  rc32 0x1C (fun d => d.dge.unwrapFail) (fun d => { d with dge := { d.dge with unwrapFail := 0 } }),
  engReg 1 0x100 4 (fun d i x => pack [(0, 5, d.engBusy 1 i), (5, 1, b2n x.retired)]),
  engReg 1 0x108 8 (fun _ _ x => x.inBytes), engReg 1 0x110 8 (fun _ _ x => x.jobs), engReg 1 0x118 8 (fun _ _ x => x.keyed),
  engRc 1 0x120 (·.squashed) (fun x => { x with squashed := 0 }),
  engRc 1 0x124 (·.zeroised) (fun x => { x with zeroised := 0 }),
  { base := 0x1000, size := 8, stride := 8, count := 128
    value := fun d k => let c := fget d.dge.ctxs {} k
      if c.state = 0 then 0
      else pack [(0, 4, c.alg), (4, 1, b2n c.keyed), (5, 3, c.state), (8, 10, c.fix), (18, 16, c.epoch), (34, 8, c.caller),
        (42, 22, c.segments)] }]

/-- The descriptor of R341; a free context shows zeros, and TAG only what an encryption produced. -/
def AJob.record (j : AJob) : Bytes :=
  if j.state = 0 then zeroBytes 64
  else leBytes 1 j.op ++ leBytes 1 j.mode ++ leBytes 1 j.state ++ leBytes 1 j.status ++ leBytes 2 j.fix ++ leBytes 2 j.epoch ++
    leBytes 2 j.keyRef ++ zeroBytes 2 ++ leBytes 4 j.segments ++ padTo 12 j.iv ++ leBytes 4 j.aad.length ++
    leBytes 8 j.text.length ++ leBytes 8 j.released ++ (if j.op = 0 ∧ j.state = 3 then padTo 16 j.tag else zeroBytes 16)

def aeeRegs : List Reg := engHead 2 27 (fun d => d.aee.waiting.length) ++ [
  rc32 0x18 (fun d => d.aee.authFail) (fun d => { d with aee := { d.aee with authFail := 0 } }),
  rc32 0x1C (fun d => d.aee.railMismatch) (fun d => { d with aee := { d.aee with railMismatch := 0 } }),
  engReg 2 0x100 4 (fun d i x => pack [(0, 5, d.engBusy 2 i), (5, 1, b2n x.retired),
    (6, 1, b2n (decide ((fget d.aee.fwJobs {} i).state ≠ 0))), (8, 8, x.mismatch)]),
  engReg 2 0x108 8 (fun _ _ x => x.inBytes), engReg 2 0x110 8 (fun _ _ x => x.jobs),
  engRc 2 0x118 (·.squashed) (fun x => { x with squashed := 0 }),
  { base := 0x1000, size := 64, stride := 64, count := 128, value := fun d k => ofLe (fget d.aee.jobs {} k).record },
  { base := 0x3000, size := 64, stride := 64, count := 8, value := fun d i => ofLe (fget d.aee.fwJobs {} i).record }]

/-! ## Interrupt controller (R381, R382) -/

/-- Layout of ICU_SRC_ACTIVE_n and of the low bits of ICU_SRC_n. -/
def srcCfg (en : Bool) (prio target : Nat) : Nat := pack [(0, 1, b2n en), (1, 4, prio), (5, 6, target)]

/-- The banks' registers from an offset on, for the banks from `first` on. -/
def bankRegs (base first n : Nat) : List Reg :=
  let reg (off size : Nat) (f : Dev → Nat → Bank → Nat) : Reg :=
    { base := base + off, size := size, stride := 0x100, count := n, value := fun d b => f d (first + b) (d.bank (first + b)) }
  let rw (off size : Nat) (f : Dev → Nat → Bank → Nat) (g : Bank → Nat → Nat → Bank) : Reg :=
    { reg off size f with write := some fun d b v m => d.modBank (first + b) (fun k => g k v m) }
  [rw 0 4 (fun _ _ k => k.threshold) (fun k v m => { k with threshold := putF k.threshold 0 4 v m }),
   { reg 4 4 (fun d b _ => (d.firstPresented b).getD 1023) with clear := some fun d b => (d.claim (first + b)).1 },
   { reg 8 4 (fun _ _ _ => 0) with
     write := some fun d b v m => if bit m 0 then d.completeId (first + b) (bitsOf v 0 10) else d },
   reg 0xC 4 (fun d b _ => d.running b),
   rw 0x10 4 (fun _ _ k => k.deliver) (fun k v m => { k with deliver := putF k.deliver 0 2 v m }),
   rw 0x18 8 (fun _ _ k => maskOf k.privEn) (fun k v m => { k with
     privEn := (List.range 64).filter (fun i => putB (decide (i ∈ k.privEn)) i v m) }),
   reg 0x20 8 (fun _ _ k => maskOf ((List.range 64).filter k.privPending)),
   reg 0x28 8 (fun _ _ k => maskOf k.privSvc),
   rw 0x30 8 (fun _ _ k => maskOf k.privOvf) (fun k v m => { k with privOvf := k.privOvf.filter (fun i => !ones i v m) }),
   reg 0x60 4 (fun _ _ k => k.claims),
   { reg 0x64 4 (fun _ _ k => k.spurious) with
     clear := some fun d b => d.modBank (first + b) (fun k => { k with spurious := 0 }) },
   { reg 0x68 4 (fun _ _ k => k.badComplete) with
     clear := some fun d b => d.modBank (first + b) (fun k => { k with badComplete := 0 }) }] ++
  (List.range 8).map (fun j => rw (0x40 + 4 * j) 4
    (fun _ _ k => pack ((List.range 8).map (fun i => (4 * i, 4, fget k.privPrio 0 (8 * j + i)))))
    (fun k v m => { k with
      privPrio := (List.range 8).foldl (fun q i => fmod q 0 (8 * j + i) (fun o => putF o (4 * i) 4 v m)) k.privPrio })) ++
  (List.range 16).map (fun j => reg (0x80 + 4 * j) 4
    (fun _ _ k => pack ((List.range 4).map (fun i => (8 * i, 8, fget k.privCount 0 (4 * j + i))))))

/-- The source table and the wake watcher. -/
def sourceRegs : List Reg := [
  { base := 0, value := fun d _ => pack [(0, 1, b2n d.icu.refused), (1, 10, d.icu.firstBad)]
    write := some fun d _ v m => { d with icu := { d.icu with refused := d.icu.refused && !ones 0 v m } } },
  commitReg 4 Dev.commitIcu,
  { base := 8, value := fun _ _ => 0
    write := some fun d _ v m => if bit m 0 then d.nudge (bitsOf v 0 3) (bitsOf v 4 6) else d },
  { base := 0x10, value := fun d _ => pack [(0, 5, d.icu.wakeSlot), (5, 10, d.icu.wakeId), (15, 1, b2n d.icu.wakeValid)]
    write := some fun d _ v m => { d with icu := { d.icu with wakeValid := d.icu.wakeValid && !ones 15 v m } } },
  { base := 0x100, count := 32
    value := fun d w => let x := fget d.icu.watch {} w; pack [(0, 10, x.id), (31, 1, b2n x.en)]
    write := some fun d w v m => { d with icu := { d.icu with
      watch := fmod d.icu.watch {} w (fun x => { x with id := putF x.id 0 10 v m, en := putB x.en 31 v m }) } } },
  { base := 0x180, count := 32
    value := fun d w => let x := fget d.icu.watch {} w; pack [(0, 10, x.idA), (31, 1, b2n x.enA)] },
  { base := 0x1000 + 8 * 64, size := 8, stride := 8, count := 959
    value := fun d i => let n := 64 + i; let x := d.src n
      srcCfg x.en x.prio x.target + pack [(16, 8, x.count), (24, 1, b2n (d.srcPending n)), (25, 1, b2n x.claimedBy.isSome),
        (26, 1, b2n x.ovf), (27, 1, b2n (isLevel n && x.level)), (29, 6, x.claimedBy.getD 0)]
    write := some fun d i v m =>
      let n := 64 + i
      let d := d.modSrc n (fun x => { x with
        en := putB x.en 0 v m, prio := putF x.prio 1 4 v m, target := putF x.target 5 6 v m
        ovf := x.ovf && !ones 26 v m })
      if ones 28 v m then d.raise n else d },
  { base := 0x3000 + 4 * 64, count := 959, value := fun d i => let x := d.src (64 + i); srcCfg x.enA x.prioA x.targetA }]

def icuRegs : List Reg := sourceRegs ++ bankRegs 0x8000 0 49

/-! ## Key store, code flash, boot, watchdog (R344, R407 to R409) -/

/-- A commit of KEY_CFG. -/
def Dev.commitKey (d : Dev) : Dev := { d with key := { d.key with alarmEnA := d.key.alarmEn } }

def keyRegs : List Reg := [
  { base := 0, value := fun d _ => d.key.alarmEn ||| 8
    write := some fun d _ v m => { d with key := { d.key with alarmEn := putF d.key.alarmEn 0 4 v m ||| 8 } } },
  commitReg 4 Dev.commitKey,
  ro32 8 (fun d => d.key.alarmEnA ||| 8),
  ro32 0x10 (fun d => pack [(0, 1, b2n d.key.locked), (1, 4, maskOf d.key.cause)]),
  ro32 0x14 (fun d => pack [(0, 13, (d.pool 28).held), (13, 13, countOf d.key.slots (fun p => decide (p.2.state = 2)))]),
  ro64 0x18 (fun d => d.key.vaultWrites),
  rc32 0x20 (fun d => d.key.importFail) (fun d => { d with key := { d.key with importFail := 0 } }),
  rc32 0x24 (fun d => d.key.alarms) (fun d => { d with key := { d.key with alarms := 0 } }),
  rc32 0x28 (fun d => d.key.torn) (fun d => { d with key := { d.key with torn := 0 } })]

/-- The operation of code flash that STATUS shows: operation, sector, pulses, suspensions, time. -/
def Cfl.shown (c : Cfl) : Nat × Nat × Nat × Nat × Nat :=
  match c.op with
  | some o => (if o.isErase then 2 else 1, o.sector, o.pulses, o.suspends, o.timeUs)
  | none => (c.lastOp, c.lastSector, c.lastPulses, 0, c.lastTime)

def cflRegs : List Reg := [
  ro32 0 (fun d => let x := d.cfl.shown
    pack [(0, 1, b2n d.cfl.op.isSome), (1, 1, b2n d.cfl.suspended), (2, 2, bankOf x.2.1), (4, 4, x.1), (8, 9, x.2.1)]),
  ro32 4 (fun d => let x := d.cfl.shown; pack [(0, 8, x.2.2.1), (8, 4, x.2.2.2.1)]),
  ro32 8 (fun d => d.cfl.shown.2.2.2.2),
  { base := 0x10, value := fun d _ => b2n d.cfl.xoLock
    write := some fun d _ v m => if ones 0 v m then { d with cfl := { d.cfl with xoLock := true } } else d },
  { base := 0x20, size := 8, stride := 8, count := 8
    value := fun d r => let x := fget d.cfl.xo {} r; pack [(0, 8, x.first), (8, 8, x.last), (16, 1, b2n x.valid)]
    write := some fun d r v m =>
      if d.cfl.xoLock then d
      else { d with cfl := { d.cfl with xo := fmod d.cfl.xo {} r (fun x => { x with
        first := putF x.first 0 8 v m, last := putF x.last 8 8 v m, valid := putB x.valid 16 v m }) } } },
  rc32 0x60 (fun d => d.cfl.eccCorr) (fun d => { d with cfl := { d.cfl with eccCorr := 0 } }),
  rc32 0x64 (fun d => d.cfl.faults) (fun d => { d with cfl := { d.cfl with faults := 0 } })]

def botRegs : List Reg := [
  ro32 0x10 (fun d => pack [(0, 2, d.bot.stage), (2, 1, d.bot.slot), (3, 1, b2n d.bot.trial), (4, 1, b2n d.bot.fallback)]),
  ro32 0x14 (fun d => pack [(0, 16, d.bot.svn), (16, 16, d.bot.minSvn)]),
  ro64 0x18 (fun d => d.bot.recSeq),
  ro32 0x20 (fun d => pack [(0, 24, d.bot.bootUs)]), ro32 0x24 (fun d => pack [(0, 24, d.bot.pauseUs)]),
  ro32 0x28 (fun d => d.bot.activations)]

/-- A commit of WDT_CFG. -/
def Dev.commitWdt (d : Dev) : Dev := { d with wdt := { d.wdt with t1A := d.wdt.t1, t2A := d.wdt.t2 } }

def wdtRegs : List Reg := [
  { base := 0, value := fun d _ => pack [(0, 20, d.wdt.t1), (20, 12, d.wdt.t2)]
    write := some fun d _ v m => { d with wdt := { d.wdt with t1 := putF d.wdt.t1 0 20 v m, t2 := putF d.wdt.t2 20 12 v m } } },
  commitReg 4 Dev.commitWdt,
  ro32 8 (fun d => pack [(0, 20, d.wdt.t1A), (20, 12, d.wdt.t2A)]),
  { base := 0x10, value := fun _ _ => 0, write := some fun d _ v m => if bit m 0 then d.kick v else d },
  ro32 0x14 (fun d => pack [(0, 2, d.wdt.state), (2, 20, d.wdt.count)]),
  rc32 0x18 (fun d => d.wdt.stage1) (fun d => { d with wdt := { d.wdt with stage1 := 0 } }),
  ro32 0x1C (fun d => d.wdt.resets),
  ro32 0x20 (fun d => pack [(0, 18, d.wdt.deferUs)]),
  rc32 0x24 (fun d => d.wdt.badKick) (fun d => { d with wdt := { d.wdt with badKick := 0 } })]

/-! ## Ember, Bellows, management, Manifest, Tollgate (R429, R430, R449, R450, R42) -/

/-- Number of a mode in EMB_MODE. -/
def PMode.code (m : PMode) : Nat :=
  match m with
  | .active => 0 | .idleReady => 1 | .dormant => 2 | .deep => 3 | .entering => 4 | .waking => 5

/-- A signed byte as its field. -/
def s8 (i : Int) : Nat := (i % 256).toNat

def embRegs : List Reg := [
  ro32 0x10 (fun d => pack [(0, 3, d.emb.mode.code), (3, 3, d.sleepMode)]),
  ro32 0x14 (fun d => maskOf d.emb.cause),
  ro32 0x18 (fun d => pack [(0, 2, d.emb.wakeCause), (2, 1, b2n d.emb.fullPath)]),
  ro32 0x1C (fun d => pack [(0, 8, s8 d.emb.tj), (8, 4, d.emb.sensor)]),
  rc32 0x20 (fun d => s8 d.emb.tjPeak) (fun d => { d with emb := { d.emb with tjPeak := 0 } }),
  ro32 0x24 (fun d => pack [(0, 4, d.emb.level)]),
  rc32 0x28 (fun d => d.emb.thermPinned) (fun d => { d with emb := { d.emb with thermPinned := 0 } }),
  rc32 0x2C (fun d => d.emb.avsPinned) (fun d => { d with emb := { d.emb with avsPinned := 0 } }),
  rc32 0x30 (fun d => d.emb.loopEvents) (fun d => { d with emb := { d.emb with loopEvents := 0 } }),
  ro32 0x34 (fun d => d.emb.trips), ro32 0x38 (fun d => d.emb.wakes),
  { base := 0x40, count := 6
    value := fun d h => let x := fget d.emb.avs {} h; pack [(0, 10, x.mv), (10, 8, x.margin), (18, 14, x.stretch)] },
  { base := 0x60, size := 8, stride := 8, count := 4, value := fun d m => fget d.emb.times 0 m }] ++ bankRegs 0xF000 48 1

/-- A mask of the fast domains in the order host, data, control, memory. -/
def domMask (l : List Dom) : Nat :=
  maskOf (([Dom.host, .data, .control, .memory].zipIdx.filter (fun p => decide (p.1 ∈ l))).map (·.2))

def blwRegs : List Reg := [
  { base := 0x10
    value := fun d _ => pack [(0, 1, b2n d.blw.xtalOk), (1, 1, b2n d.blw.xtalFail), (2, 1, b2n d.blw.osc25),
      (3, 4, maskOf d.blw.pll), (7, 4, domMask d.blw.on), (11, 4, domMask d.blw.inReset)]
    write := some fun d _ v m => { d with blw := { d.blw with xtalFail := d.blw.xtalFail && !ones 1 v m } } },
  ro32 0x14 (fun d => pack [(0, 3, d.blw.seq), (3, 5, d.blw.step)]),
  ro32 0x18 (fun d => pack [(0, 24, d.blw.lastUs), (24, 3, d.blw.lastSeq)]),
  rc32 0x1C (fun d => d.blw.railLoss) (fun d => { d with blw := { d.blw with railLoss := 0 } }),
  rc32 0x20 (fun d => d.blw.heldWakes) (fun d => { d with blw := { d.blw with heldWakes := 0 } })]

def mgtRegs : List Reg := [
  ro32 0x10 (fun d => pack [(0, 1, b2n d.mgt.smbusUsed), (1, 1, b2n d.mgt.i3c), (2, 1, b2n d.mgt.vdm),
    (3, 7, d.mgt.smbusAddr), (10, 7, d.mgt.i3cDa)]),
  ro32 0x14 (fun d => pack [(0, 8, d.mgt.eid)]),
  ro64 0x18 (fun d => d.mgt.rx), ro64 0x20 (fun d => d.mgt.tx),
  rc32 0x28 (fun d => d.mgt.micErr) (fun d => { d with mgt := { d.mgt with micErr := 0 } }),
  rc32 0x2C (fun d => d.mgt.dropped) (fun d => { d with mgt := { d.mgt with dropped := 0 } }),
  ro64 0x30 (fun d => d.evl.next),
  rc32 0x38 (fun d => d.evl.lost) (fun d => { d with evl := { d.evl with lost := 0 } }),
  ro32 0x3C (fun d => maskOf d.mgt.health)]

/-- The records of a type of unit. -/
def unitRecs (base ty n : Nat) : Reg :=
  { base := base, size := 64, stride := 64, count := n, value := fun d i => ofLe (d.record436 (uid ty i)) }

def mnfRegs : List Reg := [
  { base := 0x10, count := 5
    value := fun d i => d.unitsIn ([UState.alive, .degraded, .quiesced, .retired, .absent].getD i .alive) },
  ro64 0x30 (fun d => d.mnf.changes),
  ro32 0x38 (fun d => d.mnf.last),
  rc32 0x3C (fun d => d.mnf.stale) (fun d => { d with mnf := { d.mnf with stale := 0 } }),
  ro32 0x40 (fun d => pack [(0, 13, countOf d.mnf.units (fun p => p.2.quiescing))]),
  unitRecs 0x100 5 8, unitRecs 0x300 11 2, unitRecs 0x400 2 6]

/-- Pools whose TOL_VIOLATED bit is set. -/
def Dev.violated (d : Dev) : List Nat := (List.range 32).filter (fun p => (d.pool p).violated)

def tolRegs : List Reg := [
  { base := 0, value := fun d _ => pack [(0, 1, b2n d.tol.aenEn), (1, 1, b2n d.tol.mgtEn)]
    write := some fun d _ v m => { d with tol := { d.tol with
      aenEn := putB d.tol.aenEn 0 v m, mgtEn := putB d.tol.mgtEn 1 v m } } },
  ro64 8 (fun d => d.clk.epoch),
  { base := 0x10, value := fun d _ => maskOf d.violated
    write := some fun d _ v m => d.forEach ((List.range 32).filter (fun p => ones p v m)) Dev.clearViolated },
  ro32 0x14 (fun d => maskOf d.tol.deficit), ro32 0x18 (fun d => maskOf d.tol.surplus), ro32 0x1C (fun d => maskOf d.tol.checked),
  { base := 0x1000, size := 64, stride := 64, count := 32, value := fun d p => ofLe (d.poolRecord p) }]

/-! ## Windows (R20, R25) -/

/-- The registers of a window by its number, BAR2 offset / 64 KiB. The DRM window has none that the spec lists. -/
def windowRegs (w : Nat) : List Reg :=
  match w with
  | 0 => hlkRegs | 1 => fnmRegs | 2 => qenRegs | 3 => wrpRegs | 4 => rdpRegs | 5 => icmRegs | 6 => mxtRegs | 7 => ldcRegs
  | 8 => mchRegs | 9 => crtRegs | 10 => mapRegs | 11 => jrnRegs | 12 => parRegs | 13 => outRegs | 14 => hrtRegs
  | 15 => drvRegs | 16 => icuRegs | 17 => tngRegs | 18 => cxeRegs | 19 => dgeRegs | 20 => aeeRegs | 21 => keyRegs
  | 22 => cflRegs | 23 => botRegs | 24 => wdtRegs | 25 => embRegs | 26 => blwRegs | 27 => mgtRegs | 28 => mnfRegs
  | 29 => tolRegs | _ => []

/-- Access class of a window: 0 S, 1 V, 2 N; every other offset of BAR2 behaves as N. -/
def windowClass (w : Nat) : Nat :=
  if w ∈ [0, 1, 2, 29] then 0 else if w ∈ [16, 21, 22] ∨ 31 ≤ w then 2 else 1

/-- Plane of a window. The ICU's bank 48, source table and wake watcher share its window (R14, R20). -/
def windowPlane (w : Nat) : Plane := if w ≤ 13 ∨ w = 30 then .data else if w ≤ 23 then .control else .mgmt

/-- Domain of a window's block; none for Ember (R21). -/
def windowDom (w : Nat) : Option Dom :=
  if w ≤ 2 then some .host else if w ≤ 13 then some .data else if w = 16 then none else if w ≤ 23 then some .control
  else if w = 30 then some .memory else none

/-- COMMIT of a window, where it has one. -/
def windowCommit (w : Nat) : Option (Dev → Dev) :=
  match w with
  | 0 => some Dev.commitHlk | 3 => some Dev.commitWrp | 4 => some Dev.commitRdp | 5 => some Dev.commitIcm
  | 8 => some Dev.commitMch | 9 => some Dev.commitCrt | 11 => some Dev.commitJrn | 15 => some Dev.commitDrv
  | 16 => some Dev.commitIcu | 21 => some Dev.commitKey | 24 => some Dev.commitWdt | _ => none

end Sys2Proof.Machine
end

