-- ==== Sys2Proof/Machine/Access.lean ====
section
/-! DEFINITION. Accesses to registers and memories (R9 to R13, R25 to R31), and the plane mailbox path (R15 to R19): mailbox
rings, hand-off buffers, register bridge. -/

namespace Sys2Proof.Machine

/-! ## One window (R9 to R12) -/

/-- Bytes of a window, and an internal key of a word in it. -/
def windowBytes : Nat := 65536
def wordKey (w off : Nat) : Nat := windowBytes * w + off

/-- Whether a window's block is powered (R21). -/
def Dev.windowOn (d : Dev) (w : Nat) : Bool := match windowDom w with
  | some x => d.domOn x
  | none => true

/-- No lower word of a register is held any more. -/
def Dev.dropHeld (d : Dev) (w off : Nat) : Dev :=
  { d with fab := { d.fab with heldLow := d.fab.heldLow.filter (fun p => decide (p.1 ≠ wordKey w off)) } }

/-- A 32-bit write. The lower word of a 64-bit register is held until the upper one is written; an upper word with none held
takes effect alone. DESIGN CHOICE (log 93): words are held, and upper words latched, once per register, whichever source writes
or reads. -/
def Dev.writeWord (d : Dev) (w off v : Nat) : Dev :=
  match findReg (windowRegs w) off with
  | none => d
  | some (r, i, b) =>
    match r.write with
    | none => d
    | some f =>
      let v := v % 2 ^ 32
      if r.size = 4 then f d i v (2 ^ 32 - 1)
      else if b = 0 then { d with fab := { d.fab with heldLow := fset d.fab.heldLow (wordKey w off) v } }
      else
        match ffind d.fab.heldLow (wordKey w (off - 4)) with
        | some lo =>
          f (d.dropHeld w (off - 4)) i (lo + 2 ^ 32 * v) (2 ^ 64 - 1)
        | none => f d i (2 ^ 32 * v) (2 ^ 64 - 2 ^ 32)

/-- A write of 32 or 64 bits: a 64-bit access to two 32-bit registers writes both, the lower first. A 64-bit write of a
register takes the place of a lower word held for it. -/
def Dev.writeReg (d : Dev) (w off : Nat) (wide : Bool) (v : Nat) : Dev :=
  if !wide then d.writeWord w off v
  else
    match findReg (windowRegs w) off with
    | some (r, i, 0) =>
      if r.size = 8 then
        match r.write with
        | some f => f (d.dropHeld w off) i (v % 2 ^ 64) (2 ^ 64 - 1)
        | none => d
      else (d.writeWord w off v).writeWord w (off + 4) (v / 2 ^ 32)
    | _ => (d.writeWord w off v).writeWord w (off + 4) (v / 2 ^ 32)

/-- A 32-bit read: of an RC register with its clear; of the lower word of a wider one with the latch of the upper, which the
next read of the upper word takes. A reserved offset reads 0. -/
def Dev.readWord (d : Dev) (w off : Nat) : Dev × Nat :=
  match findReg (windowRegs w) off with
  | none => (d, 0)
  | some (r, i, b) =>
    let v := r.value d i
    let word (k : Nat) : Nat := v / 2 ^ (8 * k) % 2 ^ 32
    if r.size = 4 then (match r.clear with
      | some f => f d i
      | none => d, word 0)
    else if b % 8 = 0 then ({ d with fab := { d.fab with latch := fset d.fab.latch (wordKey w (off + 4)) (word (b + 4)) } }, word b)
    else match ffind d.fab.latch (wordKey w off) with
      | some u => ({ d with fab := { d.fab with latch := d.fab.latch.filter (fun p => decide (p.1 ≠ wordKey w off)) } }, u)
      | none => (d, word b)

/-- A read of 32 or 64 bits. DESIGN CHOICE (log 93): one of 64 bits of a register leaves an upper word latched before it. -/
def Dev.readReg (d : Dev) (w off : Nat) (wide : Bool) : Dev × Nat :=
  if !wide then d.readWord w off
  else
    match findReg (windowRegs w) off with
    | some (r, i, b) =>
      if r.size = 4 then
        let lo := d.readWord w off
        let hi := lo.1.readWord w (off + 4)
        (hi.1, lo.2 + 2 ^ 32 * hi.2)
      else (d, r.value d i / 2 ^ (8 * b) % 2 ^ 64)
    | none =>
      let hi := d.readWord w (off + 4)
      (hi.1, 2 ^ 32 * hi.2)

/-- Whether an access is aligned to its size (R19, R27). -/
def alignedTo (addr : Nat) (wide : Bool) : Bool := decide (addr % (if wide then 8 else 4) = 0)

/-! ## BAR2 (R25 to R28) -/

/-- The window that an offset of the set-up window lies in. -/
def windowAt (off : Nat) : Nat := off / windowBytes

/-- BAR2_WRITE_DISCARDED: the first discarded write of an epoch is recorded with its offset and the writing function. -/
def Dev.discard (d : Dev) (fix off : Nat) : Dev :=
  if d.clk.discardLogged then d
  else
    let d : Dev := { d with clk := { d.clk with discardLogged := true } }
    d.log 0x0101 noUnit (fields [(4, off), (2, fix)])

/-- A write through the BAR2 of a PF, aligned, as its target takes it. -/
def Dev.bar2Write (d : Dev) (fix off : Nat) (wide : Bool) (v : Nat) : Dev :=
  if windowClass (windowAt off) = 0 then d.writeReg (windowAt off) (off % windowBytes) wide v else d.discard fix off

/-- A read through BAR2 as its target answers it: class N reads as 0 and clears nothing. -/
def Dev.bar2Read (d : Dev) (off : Nat) (wide : Bool) : Dev × Nat :=
  if windowClass (windowAt off) = 2 then (d, 0) else d.readReg (windowAt off) (off % windowBytes) wide

/-- Whether a port's PF can take an access to its BAR2. -/
def Dev.bar2Open (d : Dev) (port : Nat) : Bool := decide (port ∈ d.portsUsed) && d.domOn .host

/-- BAR2_WRITE_DISCARDED. -/
def execBar2WriteDiscarded (fix offset : Nat) (wide : Bool) (s : State) : Host.Outcome State Fault Refusal :=
  act s fun d =>
    if d.isPf fix && d.bar2Open (d.portOf fix) && alignedTo offset wide &&
        decide (offset < bar2Bytes ∧ windowClass (windowAt offset) ≠ 0) then d.discard fix offset
    else d

/-- BAR2_UNSUPPORTED_ACCESS: any access that is not an aligned one of 32 or 64 bits. -/
def execBar2UnsupportedAccess (fix offset len : Nat) (s : State) : Host.Outcome State Fault Refusal :=
  act s fun d =>
    if d.isPf fix && d.bar2Open (d.portOf fix) && !(decide (len = 4 ∧ offset % 4 = 0) || decide (len = 8 ∧ offset % 8 = 0)) then
      d.emit .unsupportedRequest
    else d

/-! ## The cores' view (R24, R29 to R31) -/

/-- Bases of the internal map. -/
def windowBase : Nat := 0x40000000
def mramBase : Nat := 0x20000000
def mramBytes : Nat := 0x02000000
def stagingBase : Nat := 0x10000000
def aliasBase : Nat := 0x60000000
def dramBase : Nat := 0x001000000000
def apertureBase : Nat := 0x800000000000

/-- The hand-off bank follows the write and read staging banks (R22; log 48). -/
def handoffBase : Nat := stagingBase + 80 * 2 ^ 20
def handoffBytes : Nat := 65536

/-- Whether an address lies in a span. -/
def inSpan (a base len : Nat) : Bool := decide (base ≤ a ∧ a < base + len)

/-- Installed DRAM in bytes; the control plane's regions are its upper half (R24; log 48). -/
def Dev.dramBytes (d : Dev) : Nat := d.blw.dramGiB * 2 ^ 30

/-- Whether a core may make an access of a kind (0 read, 1 write, 2 instruction fetch, 3 DMA descriptor) at an address. A
hand-off buffer is open to the control plane while that owns it (R18), and MRAM to journal firmware (R29). -/
def Dev.coreMay (d : Dev) (core a kind : Nat) (journal : Bool) : Bool :=
  let rw := decide (kind < 2)
  let rx := decide (kind = 0 ∨ kind = 2)
  let win := (a - windowBase) / windowBytes
  if core = 48 then
    (inSpan a 0 0x40000 && decide (kind < 3)) ||
      (inSpan a windowBase (31 * windowBytes) && rw && decide (24 ≤ win ∧ win ≤ 29))
  else if inSpan a 0 0x40000 || inSpan a 0x01000000 0x01000000 then rx
  else if inSpan a handoffBase (256 * handoffBytes) then
    rw && decide ((d.buf ((a - handoffBase) / handoffBytes)).owner = .control)
  else if inSpan a mramBase mramBytes then rw && journal
  else if inSpan a windowBase (31 * windowBytes) then rw
  else if inSpan a aliasBase windowBytes then rw
  else if inSpan a (dramBase + d.dramBytes / 2) (d.dramBytes / 2) then rw
  else decide (apertureBase ≤ a ∧ a < 2 ^ 48 ∧ kind = 3)

/-- A bus error returned to a core: the address is recorded (R30), and private source 3 of the core has an event (R366). -/
def Dev.refuseAccess (d : Dev) (core addr : Nat) : Dev :=
  ((d.emit (.busError addr)).log 0x0102 noUnit (fields [(8, addr), (1, core)])).doIf (decide (core < 48)) (fun d => d.privEvent core 3)

/-- CORE_BUS_ERROR. -/
def execCoreBusError (core addr kind : Nat) (journal : Bool) (s : State) : Host.Outcome State Fault Refusal :=
  act s fun d =>
    if 48 < core ∨ (core ≠ 48 ∧ d.domOn .control = false) ∨ d.coreMay core addr kind journal then d else d.refuseAccess core addr

/-! ## The register bridge (R19) -/

def Dev.lane (d : Dev) (dir : Nat) : Lane := fget d.fab.bridge {} dir
def Dev.modBridge (d : Dev) (dir : Nat) (f : Lane → Lane) : Dev :=
  { d with fab := { d.fab with bridge := fmod d.fab.bridge {} dir f } }

/-- Source and target plane of a direction that the bridge serves: the management core takes no part (R31). -/
def bridgePlanes (dir : Nat) : Option (Plane × Plane) :=
  match dir with
  | 0 => some (.data, .control) | 1 => some (.data, .mgmt) | 2 => some (.control, .data) | 3 => some (.control, .mgmt)
  | _ => none

/-- Plane of an offset of a window: of the ICU's, the 48 core banks are in the control plane, bank 48, the source table and
the wake watcher in the management plane (R14). -/
def spotPlane (w off : Nat) : Plane :=
  if w = 16 then (if 0x8000 ≤ off ∧ off < 0x8000 + 0x100 * 48 then .control else .mgmt) else windowPlane w

/-- Plane of a register window or of MRAM at an internal address. -/
def planeAt (a : Nat) : Option Plane :=
  if inSpan a mramBase mramBytes then some .data
  else if inSpan a windowBase (31 * windowBytes) then
    some (spotPlane ((a - windowBase) / windowBytes) ((a - windowBase) % windowBytes))
  else none

/-- The plane that a source belongs to: cores are in the control plane, BAR2 in the data plane. -/
def sourcePlane (x : Source) : Plane :=
  match x with
  | .core _ _ => .control
  | .bar2 _ => .data

/-- Whether a source can make an access at an address: a core is powered, and a port's PF takes accesses and reaches windows
alone. -/
def Dev.sourceOn (d : Dev) (x : Source) (addr : Nat) : Bool :=
  match x with
  | .core c _ => decide (c < 48) && d.domOn .control
  | .bar2 p => d.bar2Open p && inSpan addr windowBase (31 * windowBytes)

/-- Whether the block at an internal address is powered. -/
def Dev.targetOn (d : Dev) (a : Nat) : Bool :=
  if inSpan a mramBase mramBytes then d.domOn .data else d.windowOn ((a - windowBase) / windowBytes)

/-- Stalled accesses move up while the queue has room for them. -/
def Lane.fill (l : Lane) : Lane :=
  let n := 64 - l.queue.length
  { queue := l.queue ++ l.stalled.take n, stalled := l.stalled.drop n }

/-- An access enters the queue of a direction; with 64 in it the source stalls, and none is dropped. -/
def Dev.pushBridge (d : Dev) (dir : Nat) (a : Access) : Dev :=
  let l := d.lane dir
  if l.queue.length < 64 ∧ l.stalled = [] then d.modBridge dir (fun l => { l with queue := l.queue ++ [a] })
  else (d.modBridge dir (fun l => { l with stalled := l.stalled ++ [a] })).emit .stalled

/-- The access at the head of a direction leaves it. -/
def Dev.popBridge (d : Dev) (dir : Nat) : Dev := d.modBridge dir (fun l => ({ l with queue := l.queue.drop 1 } : Lane).fill)

/-- The core to which an access is refused at its target: MRAM is open to journal firmware alone (R29, R30). -/
def Access.refusedTo (a : Access) : Option Nat :=
  match a.source with
  | .core c journal => if inSpan a.addr mramBase mramBytes && !journal then some c else none
  | .bar2 _ => none

/-- A write as its target takes it. -/
def Dev.accessWrite (d : Dev) (a : Access) : Dev :=
  match a.refusedTo with
  | some c => d.refuseAccess c a.addr
  | none =>
    if inSpan a.addr mramBase mramBytes then
      { d with fab := { d.fab with mram := mwrite d.fab.mram (a.addr - mramBase) (leBytes (if a.wide then 8 else 4) a.data) } }
    else
      let off := a.addr - windowBase
      match a.source with
      | .bar2 p => d.bar2Write (pfOf p) off a.wide a.data
      | .core _ _ => d.writeReg (windowAt off) (off % windowBytes) a.wide a.data

/-- A read as its target answers it. -/
def Dev.accessRead (d : Dev) (a : Access) : Dev :=
  match a.refusedTo with
  | some c => d.refuseAccess c a.addr
  | none =>
    if inSpan a.addr mramBase mramBytes then
      d.emit (.readData (ofLe (d.mramRead (a.addr - mramBase) (if a.wide then 8 else 4))))
    else
      let off := a.addr - windowBase
      let r := match a.source with
        | .bar2 _ => d.bar2Read off a.wide
        | .core _ _ => d.readReg (windowAt off) (off % windowBytes) a.wide
      r.1.emit (.readData r.2)

/-- BRIDGE_ACCESS. An access that the bridge does not carry changes nothing here. -/
def execBridgeAccess (dir : Nat) (source : Source) (addr : Nat) (wide isWrite : Bool) (value : Nat) (s : State) :
    Host.Outcome State Fault Refusal :=
  act s fun d =>
    match bridgePlanes dir with
    | none => d
    | some (src, dst) =>
      if sourcePlane source = src ∧ planeAt addr = some dst ∧ alignedTo addr wide ∧ d.sourceOn source addr ∧ d.targetOn addr then
        d.pushBridge dir { source := source, addr := addr, wide := wide, isWrite := isWrite, data := value }
      else d

/-- BRIDGE_READ_RETURN: the read at the head of a direction returns. -/
def execBridgeReadReturn (dir : Nat) (s : State) : Host.Outcome State Fault Refusal :=
  act s fun d =>
    match (d.lane dir).queue with
    | a :: _ => if a.isWrite then d else (d.popBridge dir).accessRead a
    | [] => d

/-! ## Direct accesses -/

/-- The direction of the bridge that carries a host access at an offset of the set-up window, where it is one of another
plane's windows (R19). -/
def bar2Lane (off : Nat) : Option Nat :=
  if 31 ≤ windowAt off then none
  else match spotPlane (windowAt off) (off % windowBytes) with
    | .data => none
    | .control => some 0
    | .mgmt => some 1

/-- A host access at an offset of the set-up window as the bridge carries it. -/
def bar2Access (port off : Nat) (wide isWrite : Bool) (v : Nat) : Access :=
  { source := .bar2 port, addr := windowBase + off, wide := wide, isWrite := isWrite, data := v }

/-- The window and offset that a core's access reaches in its own plane: a window of the control plane, or its own ICU bank
through the core-private alias (R29, R381), of which the rest is reserved. Only the ROM writes the CFL window (R407). The
management core sees windows 24 to 29 (R31). -/
def Dev.coreSpot (d : Dev) (core addr : Nat) (isWrite : Bool) : Option (Nat × Nat) :=
  let w := (addr - windowBase) / windowBytes
  let off := (addr - windowBase) % windowBytes
  if core < 48 ∧ inSpan addr aliasBase windowBytes then
    if d.domOn .control then
      some (if addr - aliasBase < 0x100 then (16, 0x8000 + 0x100 * core + (addr - aliasBase)) else (31, addr - aliasBase))
    else none
  else if inSpan addr windowBase (31 * windowBytes) && d.windowOn w &&
      (if core = 48 then decide (24 ≤ w ∧ w ≤ 29)
       else decide (core < 48) && d.domOn .control && decide (spotPlane w off = .control) &&
         (!isWrite || decide (w ≠ 22 ∨ d.bot.stage ≠ 1))) then some (w, off)
  else none

/-- REGISTER_WRITE. A host write to another plane's window enters the bridge (R15). -/
def execRegisterWrite (space : RegSpace) (addr : Nat) (wide : Bool) (value : Nat) (s : State) :
    Host.Outcome State Fault Refusal :=
  act s fun d =>
    match space with
    | .nvme f => if d.doorbellTaken f && alignedTo addr wide then d.writeBar0 f addr wide value else d
    | .msix f => if d.doorbellTaken f && alignedTo addr wide then d.writeMsix f addr wide value else d
    | .config f c => if d.answersConfig f then d.writeConfig f c value else d
    | .bar2 p =>
      if d.bar2Open p && alignedTo addr wide && decide (addr < bar2Bytes) then
        match bar2Lane addr with
        | some dir => d.pushBridge dir (bar2Access p addr wide true value)
        | none => d.bar2Write (pfOf p) addr wide value
      else d
    | .core c =>
      match d.coreSpot c addr true with
      | some (w, off) => if alignedTo addr wide then d.writeReg w off wide value else d
      | none => d
    | .bridge dir =>
      match (d.lane dir).queue with
      | a :: _ => if a.isWrite then (d.popBridge dir).accessWrite a else d
      | [] => d

/-- The window and offset of a direct read that clears where its register does. -/
def Dev.readSpot (d : Dev) (space : RegSpace) (addr : Nat) (wide : Bool) : Option (Nat × Nat) :=
  if !alignedTo addr wide then none
  else match space with
    | .bar2 p =>
      if d.bar2Open p && decide (addr < bar2Bytes ∧ windowClass (windowAt addr) ≠ 2) then some (windowAt addr, addr % windowBytes)
      else none
    | .core c => d.coreSpot c addr false
    | _ => none

/-- Whether a read of a word of a window clears it (R10). -/
def readClears (w off : Nat) : Bool :=
  match findReg (windowRegs w) off with
  | some (r, _, _) => r.clear.isSome
  | none => false

/-- A direct read: of a host at another plane's window it enters the bridge, else it is answered at once. -/
def Dev.readDirect (d : Dev) (space : RegSpace) (addr : Nat) (wide : Bool) (w off : Nat) : Dev :=
  let here : Dev := let x := d.readReg w off wide; x.1.emit (.readData x.2)
  match space with
  | .bar2 p =>
    match bar2Lane addr with
    | some dir => d.pushBridge dir (bar2Access p addr wide false 0)
    | none => here
  | _ => here

/-- RC_COUNTER_READ. -/
def execRcCounterRead (space : RegSpace) (addr : Nat) (s : State) : Host.Outcome State Fault Refusal :=
  act s fun d =>
    match d.readSpot space addr false with
    | some (w, off) => if readClears w off then d.readDirect space addr false w off else d
    | none => d

/-- UPPER_WORD_LATCH: a read of a word or a pair of words that clears nothing, or of 64 bits. In configuration space the
field's value is read, and class N reads as 0. -/
def execUpperWordLatch (space : RegSpace) (spot : ReadAt) (s : State) : Host.Outcome State Fault Refusal :=
  act s fun d =>
    match space with
    | .nvme f =>
      if d.answersConfig f && alignedTo spot.addr spot.wide then d.emit (.readData (pairRead (d.fn f).readNvme spot.addr spot.wide)) else d
    | .msix f =>
      if d.answersConfig f && alignedTo spot.addr spot.wide then d.emit (.readData (pairRead (d.fn f).readMsix spot.addr spot.wide)) else d
    | .config f c => if d.answersConfig f then d.emit (.readData (d.readConfig f c)) else d
    | .bridge _ => d
    | .bar2 p =>
      match d.readSpot space spot.addr spot.wide with
      | some (w, off) => if spot.wide || !readClears w off then d.readDirect space spot.addr spot.wide w off else d
      | none =>
        if d.bar2Open p && alignedTo spot.addr spot.wide && decide (spot.addr < bar2Bytes) then
          d.readDirect space spot.addr spot.wide 31 0
        else d
    | .core _ =>
      match d.readSpot space spot.addr spot.wide with
      | some (w, off) => if spot.wide || !readClears w off then d.readDirect space spot.addr spot.wide w off else d
      | none => d

/-- STAGED_COMMIT: the staged set of a window's block becomes the active one. -/
def execStagedCommit (window : Nat) (s : State) : Host.Outcome State Fault Refusal :=
  act s fun d =>
    match windowCommit window with
    | some f => if d.windowOn window then f d else d
    | none => d

/-- TOL_VIOLATED_CLEAR. -/
def execTolViolatedClear (mask : Nat) (s : State) : Host.Outcome State Fault Refusal :=
  act s fun d => d.forEach (bitsSet mask 32) Dev.clearViolated

/-! ## Mailbox rings (R16, R17) -/

def Dev.ring (d : Dev) (k : Nat) : MRing := fget d.fab.rings {} k
def Dev.modRing (d : Dev) (k : Nat) (f : MRing → MRing) : Dev := { d with fab := { d.fab with rings := fmod d.fab.rings {} k f } }

/-- Whether a slot of a ring can be claimed now. -/
def Dev.slotFree (d : Dev) (k : Nat) : Bool := decide ((d.ring k).slots.length < 256) && d.canIssue 15 0 1 && d.domOn .control

/-- The receiver of a ring is told: by the interrupt of R367 on a plane with a core, directly where data-plane sequencers
receive. -/
def Dev.ringArrival (d : Dev) (k : Nat) : Dev := if neverPends (64 + k) then d else d.srcEvent (64 + k)

/-- Claims a slot, writes the message and rings the plane doorbell. -/
def Dev.sendMail (d : Dev) (k : Nat) (m : Msg) : Dev :=
  (((d.issue 15 0 1).modRing k (fun r => { r with
    next := r.next + 1, slots := r.slots ++ [{ m with seq := r.next }] })).emit (.doorbell k)).ringArrival k

/-- MAILBOX_SEND: with every slot held, and with the fast domains off, the sending plane stalls on the claim (R17, R35). Only the
management plane can send while they are off. -/
def execMailboxSend (ring ty : Nat) (urgent : Bool) (unit : Nat) (payload : Bytes) (s : State) :
    Host.Outcome State Fault Refusal :=
  act s fun d =>
    if 6 ≤ ring ∨ (ring < 4 ∧ d.domOn .control = false) then d
    else
      let m : Msg := { ty := ty % 65536, urgent := urgent, unit := unit % 2 ^ 32, payload := padTo 48 payload }
      if d.slotFree ring && (d.ring ring).stalled.isEmpty then d.sendMail ring m
      else (d.modRing ring (fun r => { r with stalled := r.stalled ++ [m] })).emit .stalled

/-- MAILBOX_SLOT_GRANTED: the oldest stalled claim of a ring. -/
def execMailboxSlotGranted (ring : Nat) (s : State) : Host.Outcome State Fault Refusal :=
  act s fun d =>
    match (d.ring ring).stalled with
    | m :: t => if d.slotFree ring then (d.modRing ring (fun r => { r with stalled := t })).sendMail ring m else d
    | [] => d

/-- MAILBOX_RECEIVE: the oldest urgent message, else the oldest. -/
def execMailboxReceive (ring : Nat) (s : State) : Host.Outcome State Fault Refusal :=
  act s fun d =>
    let l := (d.ring ring).slots
    match (takeFirst l (·.urgent)).or (takeFirst l (fun _ => true)) with
    | some (m, t) =>
      ((d.modRing ring (fun r => { r with slots := t })).giveBack 15 0 1).emit (.mailbox ring m.seq m.ty m.unit m.payload)
    | none => d

/-! ## Hand-off buffers (R18) -/

/-- HANDOFF_BUFFER_PASS. The data plane fills a free buffer and rings; the control plane rings a buffer of firmware back, which
then is free. The data plane has written an output buffer to the host when it passes it back (R248). -/
def execHandoffBufferPass (buffer : Nat) (data : Bytes) (s : State) : Host.Outcome State Fault Refusal :=
  act s fun d =>
    let h := d.buf buffer
    if 256 ≤ buffer then d
    else if !h.inUse then
      if d.domOn .data && d.canIssue 16 0 1 then
        ((d.issue 16 0 1).modBuf buffer (fun _ => { owner := .control, inUse := true, bytes := data.take 65536 })).emit (.doorbell 0)
      else d
    else if h.kind = 0 ∧ h.owner = .control then
      (d.dropBuf buffer).emit (.doorbell 2)
    else if h.kind = 2 ∧ h.owner = .data then
      match d.wb h.wb with
      | some w =>
        if buffer ∈ w.lent then
          let d := d.doIf (decide (w.epoch = (d.fn w.ref.fix).epoch)) (fun d => d.emit (.emitted h.wb h.offset h.bytes))
          ((d.dropBuf buffer).modWb h.wb (fun w => { w with lent := w.lent.filter (· ≠ buffer) })).emit (.doorbell 0)
        else d
      | none => d
    else d

/-- HANDOFF_FOREIGN_ACCESS: an access by the plane that does not own the buffer, by a core of the control plane or by the data
plane. It changes nothing; of a core's the address is recorded (R18, R30). -/
def execHandoffForeignAccess (buffer offset : Nat) (core : Option Nat) (s : State) : Host.Outcome State Fault Refusal :=
  act s fun d =>
    let addr := handoffBase + handoffBytes * buffer + offset
    let by' : Plane := if core.isSome then .control else .data
    if 256 ≤ buffer ∨ handoffBytes ≤ offset ∨ (d.buf buffer).owner = by' then d
    else match core with
      | some c => d.refuseAccess c addr
      | none => d.emit (.busError addr)

/-! ## Waiting requests of the E pools (R60) -/

/-- SHARE_UNITS_ISSUED: the next waiting request is served; for contexts of DGE and AEE the work takes its place at once. -/
def execShareUnitsIssued (pool : Nat) (s : State) : Host.Outcome State Fault Refusal :=
  act s fun d =>
    if !isEPool pool then d
    else
      let d := d.serveOne pool
      if pool = 26 then d.placeDge else if pool = 27 then d.placeAee else d

end Sys2Proof.Machine
end

