-- ==== Sys2Proof/Machine/Control.lean ====
section
/-! DEFINITION. Feresk loops and calls (R273, R274), operator graphs (R361 to R363). -/

namespace Sys2Proof.Machine

/-! ## Loops -/

/-- Offset after the ENDLOOP that matches a LOOP, looking from code offset `off` on with `depth` inner loops open. -/
def loopExit (code : Bytes) (fuel off depth : Nat) : Nat :=
  match fuel with
  | 0 => off
  | k + 1 =>
    let op := fieldAt code (off + 7) 1
    if op = 0x80 then loopExit code k (off + 8) (depth + 1)
    else if op = 0x81 then (if depth = 0 then off + 8 else loopExit code k (off + 8) (depth - 1))
    else loopExit code k (off + 8) depth

/-- LOOP: dst the index register, the immediate the bound less 1. -/
def Ctx.loop (c : Ctx) (im : Image) (f : Fw) : Ctx :=
  let bound := f.imm + 1
  let trips := if f.sg then bound else min (c.getX f.a).toNat bound
  let off := c.pc.toNat - 0x10000000000 + 8
  let exit := codeAddr (loopExit im.code (im.code.length / 8) off 0)
  if trips = 0 then { c with pc := exit }
  else ({ c with loops := { body := c.pc + 8, exit := exit, left := trips, trips := trips, reg := f.dst } :: c.loops }.setX
    f.dst 0).next

/-- ENDLOOP. -/
def Ctx.endLoop (c : Ctx) : Except Nat Ctx :=
  match c.loops with
  | [] => .error 4
  | e :: t =>
    if 1 < e.left then
      .ok { c.setX e.reg (BitVec.ofNat 64 (e.trips - (e.left - 1))) with
            pc := e.body, loops := { e with left := e.left - 1 } :: t }
    else .ok { c.setX e.reg (BitVec.ofNat 64 (e.trips - 1)) with pc := c.pc + 8, loops := t }

/-- BRK. -/
def Ctx.brk (c : Ctx) : Except Nat Ctx :=
  match c.loops with
  | [] => .error 4
  | e :: t => .ok { c with pc := e.exit, loops := t }

def execLoop (ctx : Nat) (s : State) : Host.Outcome State Fault Refusal :=
  act s fun d => d.instr ctx 0x80 (fun im c f => .ok (c.loop im f))
def execEndloop (ctx : Nat) (s : State) : Host.Outcome State Fault Refusal := act s fun d => d.instr ctx 0x81 (fun _ c _ => c.endLoop)
def execBrk (ctx : Nat) (s : State) : Host.Outcome State Fault Refusal := act s fun d => d.instr ctx 0x82 (fun _ c _ => c.brk)
def execBrknz (ctx : Nat) (s : State) : Host.Outcome State Fault Refusal :=
  act s fun d => d.instr ctx 0x83 (fun _ c f => if c.getX f.a = 0 then .ok c.next else c.brk)
def execCall (ctx : Nat) (s : State) : Host.Outcome State Fault Refusal :=
  act s fun d => d.instr ctx 0x84 (fun _ c f => .ok { c with pc := codeAddr f.imm, ret := (c.pc + 8) :: c.ret })

/-! ## Operator graphs -/

/-- Tokens that an edge holds. -/
def Ctx.tokensOf (c : Ctx) (e : Nat) : List Nat := fget c.tokens [] e

/-- Edges of an image with their numbers. -/
def Image.numbered (im : Image) : List (Nat × Edge) := im.edges.zipIdx.map (fun p => (p.2, p.1))

/-- Edges into and out of a node. -/
def Image.into (im : Image) (n : Nat) : List (Nat × Edge) := im.numbered.filter (fun e => e.2.toNode = n)
def Image.outOf (im : Image) (n : Nat) : List (Nat × Edge) := im.numbered.filter (fun e => e.2.fromNode = n)

/-- Whether a node is ready (R361): a token on each input, and room on each output once its input tokens were taken. -/
def Ctx.nodeReady (c : Ctx) (im : Image) (n : Nat) : Bool :=
  (im.into n).all (fun e => !(c.tokensOf e.1).isEmpty) &&
    (im.outOf n).all (fun e =>
      decide ((c.tokensOf e.1).length < e.2.capacity + (if e.2.toNode = n then 1 else 0)))

/-- The ready node with the lowest number. -/
def Ctx.readyNode (c : Ctx) (im : Image) : Option Nat := (List.range im.nodes.length).find? (c.nodeReady im)

/-- The check of R362 on every edge. -/
def Ctx.tokensGood (c : Ctx) (im : Image) : Bool :=
  im.numbered.all (fun e =>
    decide (e.2.init + fget c.produced 0 e.1 = fget c.consumed 0 e.1 + (c.tokensOf e.1).length ∧
      (c.tokensOf e.1).length ≤ e.2.capacity))

/-- Takes the oldest token of an edge into the register of its input port. -/
def Ctx.takeToken (c : Ctx) (e : Nat × Edge) : Ctx :=
  match c.tokensOf e.1 with
  | [] => c
  | t :: r =>
    { c.setX (2 + e.2.toPort) (BitVec.ofNat 64 t) with
      tokens := fset c.tokens e.1 r, consumed := fmod c.consumed 0 e.1 (· + 1) }

/-- Gives an edge the token of its output port, if x1 asks for it. -/
def Ctx.giveToken (c : Ctx) (e : Nat × Edge) : Ctx :=
  if (c.getX 1).getLsbD e.2.fromPort then
    { c with
      tokens := fset c.tokens e.1 (c.tokensOf e.1 ++ [(c.getX (2 + e.2.fromPort)).toNat])
      produced := fmod c.produced 0 e.1 (· + 1) }
  else c

/-- TOKEN_CHECK_FAIL: SANDBOX_FAULT with cause code 4, whose FAULT_ADDR is 0 (R277, R362). -/
def Dev.tokenFault (d : Dev) (id : Nat) : Dev :=
  ({ d with drv := { d.drv with tokenFault := satAdd 32 d.drv.tokenFault 1 } }).faultInstance id 4 0

/-- The firing starts of R361: tokens taken, x1 the node number, the node's code entered with both stacks empty. -/
def Ctx.fire (c : Ctx) (im : Image) (n : Nat) : Ctx :=
  let c := (im.into n).foldl Ctx.takeToken c
  { c.setX 1 (BitVec.ofNat 64 n) with
    pc := codeAddr ((im.nodes[n]?).getD {}).code, ret := [], loops := [], firing := some n, retired := 0, boundary := false }

/-- NODE_FIRING: with no firing in progress the lowest ready node fires. Its start is a segment boundary, at which an
instance with an end cause stops. -/
def execNodeFiring (ctx : Nat) (s : State) : Host.Outcome State Fault Refusal :=
  act s fun d =>
    match d.instOn ctx with
    | none => d
    | some id =>
      match d.inst id, (d.wb id).bind (fun w => d.image w.slot), d.wb id with
      | some c, some im, some w =>
        if im.graph = false ∨ c.firing.isSome ∨ c.quiescent ∨ c.block ≠ .none then d
        else match c.readyNode im with
          | none => d
          | some n =>
            if w.state = .ending then d.stopInstance id
            else
              let c := c.fire im n
              let d := ({ d with drv := { d.drv with firings := d.drv.firings + 1 } }).setInst id c
              if c.tokensGood im then d else d.tokenFault id
      | _, _, _ => d

/-- GRAPH_QUIESCENT: with no node ready the entry function runs from ENTRY, x1 all ones; no node fires after it. -/
def execGraphQuiescent (ctx : Nat) (s : State) : Host.Outcome State Fault Refusal :=
  act s fun d =>
    match d.instOn ctx with
    | none => d
    | some id =>
      match d.inst id, (d.wb id).bind (fun w => d.image w.slot) with
      | some c, some im =>
        if im.graph = false ∨ c.firing.isSome ∨ c.quiescent ∨ (c.readyNode im).isSome ∨ c.block ≠ .none then d
        else d.setInst id { c.setX 1 (BitVec.allOnes 64) with pc := codeAddr im.entry, quiescent := true }
      | _, _ => d

/-- RET: pops the return stack, or with an empty one ends the firing of its node, whose outputs get their tokens. -/
def execRet (ctx : Nat) (s : State) : Host.Outcome State Fault Refusal :=
  act s fun d =>
    match d.fetch ctx 0x85 with
    | none => d
    | some (id, c, _, im) =>
      match c.ret, c.firing with
      | a :: t, _ => d.setInst id ({ c with pc := a, ret := t }).retire
      | [], some n =>
        let c := ({ (im.outOf n).foldl Ctx.giveToken c with firing := none }).retire
        let d := d.setInst id c
        if c.tokensGood im then d else d.tokenFault id
      | [], none => d.faultInstance id 4 0

end Sys2Proof.Machine
end

