-- ==== Sys2Proof/Machine/Scalar.lean ====
section
/-! DEFINITION. Feresk scalar arithmetic and logic (R266, R267), branches (R268). -/

namespace Sys2Proof.Machine

/-! ## Arithmetic and logic -/

/-- An instruction of the form x[dst] ← g A B. -/
def Dev.alu (d : Dev) (ctx op : Nat) (g : BitVec 64 → BitVec 64 → BitVec 64) : Dev :=
  d.plain ctx op (fun c f => c.setX f.dst (g (c.getX f.a) (c.opB f)))

/-- 1 or 0. -/
def flag64 (b : Bool) : BitVec 64 := if b then 1 else 0

/-- DIV and REM truncate toward zero; DIVU and REMU are unsigned (R267). -/
def fDiv (a b : BitVec 64) : BitVec 64 := if b = 0 then BitVec.allOnes 64 else a.sdiv b
def fDivu (a b : BitVec 64) : BitVec 64 := if b = 0 then BitVec.allOnes 64 else a / b
def fRem (a b : BitVec 64) : BitVec 64 := if b = 0 then a else a.srem b
def fRemu (a b : BitVec 64) : BitVec 64 := if b = 0 then a else a % b

/-- High halves of the 128-bit products. -/
def fMulh (a b : BitVec 64) : BitVec 64 := BitVec.ofInt 64 (a.toInt * b.toInt / 2 ^ 64)
def fMulhu (a b : BitVec 64) : BitVec 64 := BitVec.ofNat 64 (a.toNat * b.toNat / 2 ^ 64)

/-- Counts of bits. -/
def fClz (a : BitVec 64) : BitVec 64 := BitVec.ofNat 64 (((List.range 64).find? (fun i => a.getLsbD (63 - i))).getD 64)
def fCtz (a : BitVec 64) : BitVec 64 := BitVec.ofNat 64 (((List.range 64).find? (fun i => a.getLsbD i)).getD 64)
def fPopc (a : BitVec 64) : BitVec 64 := BitVec.ofNat 64 ((List.range 64).filter (fun i => a.getLsbD i)).length

/-- The eight bytes in reverse order. -/
def fBswap (a : BitVec 64) : BitVec 64 := BitVec.ofNat 64 (ofBe (leBytes 8 a.toNat))

/-- EXT: `w` bits of `a` from bit `p` on. -/
def fExt (a : BitVec 64) (p w : Nat) (sg : Bool) : BitVec 64 :=
  let n := a.toNat / 2 ^ p % 2 ^ w
  if sg && n.testBit (w - 1) then BitVec.ofInt 64 ((n : Int) - 2 ^ w) else BitVec.ofNat 64 n

def execNop (ctx : Nat) (s : State) : Host.Outcome State Fault Refusal := act s fun d => d.plain ctx 0x00 (fun c _ => c)
def execAdd (ctx : Nat) (s : State) : Host.Outcome State Fault Refusal := act s fun d => d.alu ctx 0x01 (· + ·)
def execSub (ctx : Nat) (s : State) : Host.Outcome State Fault Refusal := act s fun d => d.alu ctx 0x02 (· - ·)
def execAnd (ctx : Nat) (s : State) : Host.Outcome State Fault Refusal := act s fun d => d.alu ctx 0x03 (· &&& ·)
def execOr (ctx : Nat) (s : State) : Host.Outcome State Fault Refusal := act s fun d => d.alu ctx 0x04 (· ||| ·)
def execXor (ctx : Nat) (s : State) : Host.Outcome State Fault Refusal := act s fun d => d.alu ctx 0x05 (· ^^^ ·)
def execAndn (ctx : Nat) (s : State) : Host.Outcome State Fault Refusal := act s fun d => d.alu ctx 0x06 (fun a b => a &&& ~~~b)
def execMin (ctx : Nat) (s : State) : Host.Outcome State Fault Refusal :=
  act s fun d => d.alu ctx 0x07 (fun a b => if a.sle b then a else b)
def execMax (ctx : Nat) (s : State) : Host.Outcome State Fault Refusal :=
  act s fun d => d.alu ctx 0x08 (fun a b => if a.sle b then b else a)
def execMinu (ctx : Nat) (s : State) : Host.Outcome State Fault Refusal :=
  act s fun d => d.alu ctx 0x09 (fun a b => if a.ule b then a else b)
def execMaxu (ctx : Nat) (s : State) : Host.Outcome State Fault Refusal :=
  act s fun d => d.alu ctx 0x0A (fun a b => if a.ule b then b else a)
def execSll (ctx : Nat) (s : State) : Host.Outcome State Fault Refusal :=
  act s fun d => d.alu ctx 0x0B (fun a b => a <<< (b.toNat % 64))
def execSrl (ctx : Nat) (s : State) : Host.Outcome State Fault Refusal :=
  act s fun d => d.alu ctx 0x0C (fun a b => a >>> (b.toNat % 64))
def execSra (ctx : Nat) (s : State) : Host.Outcome State Fault Refusal :=
  act s fun d => d.alu ctx 0x0D (fun a b => a.sshiftRight (b.toNat % 64))
def execRor (ctx : Nat) (s : State) : Host.Outcome State Fault Refusal :=
  act s fun d => d.alu ctx 0x0E (fun a b => a.rotateRight (b.toNat % 64))
def execSlt (ctx : Nat) (s : State) : Host.Outcome State Fault Refusal := act s fun d => d.alu ctx 0x0F (fun a b => flag64 (a.slt b))
def execSltu (ctx : Nat) (s : State) : Host.Outcome State Fault Refusal :=
  act s fun d => d.alu ctx 0x10 (fun a b => flag64 (a.ult b))
def execSeq (ctx : Nat) (s : State) : Host.Outcome State Fault Refusal := act s fun d => d.alu ctx 0x11 (fun a b => flag64 (a == b))
def execMul (ctx : Nat) (s : State) : Host.Outcome State Fault Refusal := act s fun d => d.alu ctx 0x12 (· * ·)
def execMulh (ctx : Nat) (s : State) : Host.Outcome State Fault Refusal := act s fun d => d.alu ctx 0x13 fMulh
def execMulhu (ctx : Nat) (s : State) : Host.Outcome State Fault Refusal := act s fun d => d.alu ctx 0x14 fMulhu
def execDiv (ctx : Nat) (s : State) : Host.Outcome State Fault Refusal := act s fun d => d.alu ctx 0x15 fDiv
def execDivu (ctx : Nat) (s : State) : Host.Outcome State Fault Refusal := act s fun d => d.alu ctx 0x16 fDivu
def execRem (ctx : Nat) (s : State) : Host.Outcome State Fault Refusal := act s fun d => d.alu ctx 0x17 fRem
def execRemu (ctx : Nat) (s : State) : Host.Outcome State Fault Refusal := act s fun d => d.alu ctx 0x18 fRemu
def execClz (ctx : Nat) (s : State) : Host.Outcome State Fault Refusal := act s fun d => d.alu ctx 0x19 (fun a _ => fClz a)
def execCtz (ctx : Nat) (s : State) : Host.Outcome State Fault Refusal := act s fun d => d.alu ctx 0x1A (fun a _ => fCtz a)
def execPopc (ctx : Nat) (s : State) : Host.Outcome State Fault Refusal := act s fun d => d.alu ctx 0x1B (fun a _ => fPopc a)
def execBswap (ctx : Nat) (s : State) : Host.Outcome State Fault Refusal := act s fun d => d.alu ctx 0x1C (fun a _ => fBswap a)
def execExt (ctx : Nat) (s : State) : Host.Outcome State Fault Refusal :=
  act s fun d => d.plain ctx 0x1D (fun c f => c.setX f.dst (fExt (c.getX f.a) (bitsOf f.imm 0 6) (bitsOf f.imm 8 7) f.sg))
def execMovi (ctx : Nat) (s : State) : Host.Outcome State Fault Refusal :=
  act s fun d => d.plain ctx 0x1E (fun c f => c.setX f.dst f.val)
def execMovhi (ctx : Nat) (s : State) : Host.Outcome State Fault Refusal :=
  act s fun d => d.plain ctx 0x1F (fun c f =>
    c.setX f.dst (BitVec.ofNat 64 ((c.getX f.dst).toNat % 2 ^ 32 + 2 ^ 32 * f.imm)))

/-! ## Branches -/

/-- A branch: to PC + 8 × imm where it is taken, else to PC + 8. -/
def Dev.branch (d : Dev) (ctx op : Nat) (taken : Ctx → Fw → Bool) : Dev :=
  d.instr ctx op (fun _ c f => .ok (if taken c f then { c with pc := c.pc + BitVec.ofNat 64 (8 * f.imm) } else c.next))

def execB (ctx : Nat) (s : State) : Host.Outcome State Fault Refusal := act s fun d => d.branch ctx 0x20 (fun _ _ => true)
def execBeq (ctx : Nat) (s : State) : Host.Outcome State Fault Refusal :=
  act s fun d => d.branch ctx 0x21 (fun c f => c.getX f.a == c.getX f.b)
def execBne (ctx : Nat) (s : State) : Host.Outcome State Fault Refusal :=
  act s fun d => d.branch ctx 0x22 (fun c f => c.getX f.a != c.getX f.b)
def execBlt (ctx : Nat) (s : State) : Host.Outcome State Fault Refusal :=
  act s fun d => d.branch ctx 0x23 (fun c f => (c.getX f.a).slt (c.getX f.b))
def execBge (ctx : Nat) (s : State) : Host.Outcome State Fault Refusal :=
  act s fun d => d.branch ctx 0x24 (fun c f => (c.getX f.b).sle (c.getX f.a))
def execBltu (ctx : Nat) (s : State) : Host.Outcome State Fault Refusal :=
  act s fun d => d.branch ctx 0x25 (fun c f => (c.getX f.a).ult (c.getX f.b))
def execBgeu (ctx : Nat) (s : State) : Host.Outcome State Fault Refusal :=
  act s fun d => d.branch ctx 0x26 (fun c f => (c.getX f.b).ule (c.getX f.a))
def execBpany (ctx : Nat) (s : State) : Host.Outcome State Fault Refusal :=
  act s fun d => d.branch ctx 0x27 (fun c f => (c.getP f.a).mask != 0)
def execBpnone (ctx : Nat) (s : State) : Host.Outcome State Fault Refusal :=
  act s fun d => d.branch ctx 0x28 (fun c f => (c.getP f.a).mask == 0)

end Sys2Proof.Machine
end

