-- ==== Sys2Proof/Machine/Services.lean ====
section
/-! DEFINITION. The service calls of programs (R247 to R257, R276, R310, R319, R320), their ends and wakes, delay lists and
cancels (R346, R354 to R358). -/

namespace Sys2Proof.Machine

/-! ## The frame of a call -/

/-- A call that has returned with a status: x1, the next instruction, a segment boundary passed (R242, R276, R279). -/
def Ctx.svcDone (c : Ctx) (status : Nat) : Ctx :=
  { c.setX 1 (BitVec.ofNat 64 status) with pc := c.pc + 8, retired := 0, boundary := false }

/-- A call that blocks: the results are written when it ends, and the program goes on behind it. -/
def Ctx.svcBlock (c : Ctx) (b : Blocked) : Ctx := { c with pc := c.pc + 8, retired := 0, boundary := false, block := b }

/-- A blocked call ends with a status. -/
def Ctx.svcEnd (c : Ctx) (status : Nat) : Ctx := { c.setX 1 (BitVec.ofNat 64 status) with block := .none }

/-- A result register. -/
def Ctx.res (c : Ctx) (n v : Nat) : Ctx := c.setX n (BitVec.ofNat 64 v)

/-- A result that no rule gives: a free value (R252, log 4). -/
def Ctx.resFree (c : Ctx) (n : Nat) : Ctx := { c.setX n (Config.freeWord c.wb c.free) with free := c.free + 1 }

/-- An argument. -/
def Ctx.arg (c : Ctx) (n : Nat) : Nat := (c.getX n).toNat

/-- What a call knows of its caller: hardware context, thread, Waybill, instance. -/
structure Call where
  /-- hardware context -/
  ctx : Nat
  /-- thread -/
  th : Nat
  /-- Waybill -/
  w : Waybill
  /-- instance -/
  c : Ctx

/-- Runs service `n` of the instance on a context. The call is a segment boundary, at which an instance with an end cause
stops (R242). -/
def Dev.svc (d : Dev) (ctx n : Nat) (k : Dev → Call → Dev) : Dev :=
  match d.fetch ctx 0x86, d.busyOf ctx with
  | some (id, c, f, _), some th =>
    match d.wb id with
    | some w => if f.imm ≠ n then d else if w.state = .ending then d.stopInstance id else k d ⟨ctx, th, w, c⟩
    | none => d
  | _, _ => d

/-- The call returns at once. -/
def Dev.svcRet (d : Dev) (q : Call) (status : Nat) (f : Ctx → Ctx := id) : Dev := d.modInst q.w.id (fun c => f (c.svcDone status))

/-- The call blocks its thread. -/
def Dev.svcWait (d : Dev) (q : Call) (b : Blocked) : Dev := (d.modInst q.w.id (fun c => c.svcBlock b)).blockThread q.th

/-- A service argument that names bytes outside the windows: the SVC faults with code 3 (R276, R277). -/
def Dev.svcFault (d : Dev) (q : Call) : Dev := d.faultInstance q.w.id 3 q.c.pc.toNat

/-- A ticket number that is free: 0 for a synchronous call, else the lowest of 1 to 4 (R253). -/
def Ctx.newTicket (c : Ctx) (async : Bool) : Option Nat :=
  if async then [1, 2, 3, 4].find? (fun n => (c.ticket n).isNone) else some 0

/-- Starts an operation of service 3, 4 or 5: an asynchronous call returns its ticket, any other blocks. -/
def Dev.startOp (d : Dev) (q : Call) (t : Ticket) : Dev :=
  let d := d.modInst q.w.id (fun c => { c with tickets := c.tickets ++ [t] })
  if t.no = 0 then d.svcWait q (.engine 0) else d.svcRet q 0 (fun c => c.res 2 t.no)

/-! ## Services 0, 9, 8, 6 -/

/-- SVC_YIELD. -/
def execSvcYield (ctx : Nat) (s : State) : Host.Outcome State Fault Refusal :=
  act s fun d => d.svc ctx 0 (fun d q => ((d.svcRet q 0).blockThread q.th).enqueue q.th false (.wake q.th))

/-- SVC_PROGRAM_EXIT: the instance ends with SUCCESS, unless a taint replaces it, and its exit code. -/
def execSvcProgramExit (ctx : Nat) (s : State) : Host.Outcome State Fault Refusal :=
  act s fun d => d.svc ctx 9 (fun d q =>
    (d.modWb q.w.id (fun w => { w with
      state := .ending, cause := some 0, exitCode := q.c.arg 2 % 2 ^ 32 })).stopInstance q.w.id)

/-- SVC_LOG_RECORD (R257). -/
def execSvcLogRecord (ctx : Nat) (s : State) : Host.Outcome State Fault Refusal :=
  act s fun d => d.svc ctx 8 (fun d q =>
    let a := q.c.arg 2
    let n := q.c.arg 3
    if n = 0 ∨ 240 < n then d.svcRet q 3
    else if q.c.valid a n false = false then d.svcFault q
    else if d.tf 8 0x23 1 ≤ q.w.logs then
      ({ d with hrt := { d.hrt with logDropped := satAdd 32 d.hrt.logDropped 1 } }).svcRet q 10
    else
      let b := fields [(2, q.w.ref.fix), (4, q.w.handle), (8, q.w.epoch), (1, n)] ++ q.c.readBytes a n
      (((d.log 0x0202 noUnit b).modWb q.w.id (fun w => { w with logs := w.logs + 1 })).modInst q.w.id
        (fun c => c.draw a n)).svcRet q 0)

/-- SVC_DELAY. A full delay list leaves the call blocked without an entry (R355). -/
def execSvcDelay (ctx : Nat) (s : State) : Host.Outcome State Fault Refusal :=
  act s fun d => d.svc ctx 6 (fun d q =>
    let us := q.c.arg 2
    if us = 0 ∨ 60000000 < us then d.svcRet q 3
    else ((d.takeDelay q.th us false).getD d).svcWait q .delay)

/-! ## Service 1 (R247) -/

/-- The next chunk that waits becomes W0. -/
def Dev.mapChunk (d : Dev) (id i : Nat) (f : Ctx → Nat → Ctx) : Dev :=
  let h := d.buf i
  let d := d.modWb id (fun w => { w with ready := w.ready.filter (· ≠ i), cur := some i })
  (d.modInst id (fun c => ((({ f c 0 with w0 := h.bytes }).res 2 h.bytes.length).res 3 h.extent).res 4 h.offset)).feed id

/-- No input is left: W0 has length 0 and every later call returns END_OF_INPUT. -/
def Dev.noInput (d : Dev) (id : Nat) (f : Ctx → Nat → Ctx) : Dev :=
  d.modInst id (fun c => ((({ f c 1 with w0 := [], endOfInput := true }).resFree 2).resFree 3).resFree 4)

/-- Whether a Waybill's input is all handed over. -/
def Dev.inputDone (d : Dev) (w : Waybill) : Bool := decide (d.inputLen w.extents ≤ w.pos) && w.ready.isEmpty

/-- SVC_NEXT_INPUT: the current buffer goes back, and the next one is mapped. -/
def execSvcNextInput (ctx : Nat) (s : State) : Host.Outcome State Fault Refusal :=
  act s fun d => d.svc ctx 1 (fun d q =>
    let id := q.w.id
    let d := match q.w.cur with
      | some i => (d.dropBuf i).modWb id (fun w => { w with cur := none })
      | none => d
    match q.w.ready with
    | i :: _ => d.mapChunk id i Ctx.svcDone
    | [] =>
      if q.c.endOfInput || d.inputDone q.w then d.noInput id Ctx.svcDone
      else ((d.modInst id (fun c => { c with w0 := [] })).svcWait q .input).feed id)

/-! ## Service 2 (R248, R249) -/

/-- A fresh output buffer, at most two on their way beside it. -/
def Dev.freshOut (d : Dev) (id : Nat) : Option Dev :=
  match d.wb id with
  | none => none
  | some w =>
    if 2 ≤ w.lent.length then none
    else (d.takeBuf { owner := .control, wb := id, kind := 2 }).map (fun r =>
      r.1.modWb id (fun w => { w with outBuf := some r.2 }))

/-- The emit itself, with a buffer in hand: the part that fits goes out with its offset, and an excess ends the instance
with OUTPUT_FULL. -/
def Dev.emitOut (d : Dev) (id len off : Nat) : Dev :=
  match d.wb id, d.inst id with
  | some w, some c =>
    let fit := min len (w.outLen - off)
    let d := match w.outBuf with
      | some i =>
        if fit = 0 then d
        else
          let d := d.modBuf i (fun h => { h with owner := .data, bytes := mread c.w1 0 fit, offset := off })
          (d.modWb id (fun w => { w with lent := w.lent ++ [i], outBuf := none })).emit (.doorbell 2)
      | none => d
    let d := d.modWb id (fun w => { w with
      bytesOut := w.bytesOut + fit, outFull := w.outFull || decide (0 < fit ∧ off + fit = w.outLen) })
    let d := d.modInst id (fun c => { c with w1 := [] })
    if fit < len then d.endCause id 5 else d
  | _, _ => d

/-- The offset that an emit goes to. -/
def Waybill.emitAt (w : Waybill) (c : Ctx) : Nat := if w.ordered then w.bytesOut else c.arg 3

/-- BYTES_OUT of a Waybill. -/
def Dev.bytesOut (d : Dev) (id : Nat) : Nat := match d.wb id with
  | some w => w.bytesOut
  | none => 0

/-- Whether an emit beyond OUTPUT_LENGTH has ended the instance: the call itself is the boundary at which it stops (R242, R249). -/
def fullStop (d : Dev) (id : Nat) : Bool := (d.wb id).any (fun w => decide (w.state = .ending))

/-- SVC_EMIT_OUTPUT: blocks until a buffer is free, before the emit or after it. -/
def execSvcEmitOutput (ctx : Nat) (s : State) : Host.Outcome State Fault Refusal :=
  act s fun d => d.svc ctx 2 (fun d q =>
    let id := q.w.id
    let len := q.c.arg 2
    if 65536 < len then d.svcRet q 3
    else if len = 0 then d.svcRet q 0 (fun c => c.res 2 q.w.bytesOut)
    else
      let have? : Option Dev := if q.w.outBuf.isSome then some d else d.freshOut id
      match have? with
      | none => d.svcWait q .emit
      | some d =>
        let d := d.emitOut id len (q.w.emitAt q.c)
        if fullStop d id then d.stopInstance id else
        let got : Option Dev := match (d.wb id).bind (fun w => w.outBuf) with
          | some _ => some d
          | none => d.freshOut id
        match got with
        | some d => d.svcRet q 0 (fun c => c.res 2 (d.bytesOut id))
        | none => d.svcWait q .output)

/-! ## Service 3 (R254, R296) -/

/-- SVC_TONGS_QUERY. A call for which pool 24 has no unit is not accepted yet. -/
def execSvcTongsQuery (ctx : Nat) (s : State) : Host.Outcome State Fault Refusal :=
  act s fun d => d.svc ctx 3 (fun d q =>
    let c := q.c
    let unit := c.arg 2
    let n := c.arg 4
    let x6 := c.arg 6
    let step := bit x6 0
    let limit := bitsOf x6 16 16
    let recs := if step then limit else n
    let bad := decide (15 < unit) || decide (n = 0) || decide (4096 < n) || decide (x6 / 2 ^ 32 ≠ 0) ||
      decide (bitsOf x6 1 15 ≠ 0) || (if step then decide (limit = 0 ∨ 4096 < limit ∨ n ≠ 1) else decide (limit ≠ 0))
    if bad then d.svcRet q 3
    else if c.valid (c.arg 3) (32 * n) false = false ∨ c.valid (c.arg 5) (16 * recs) true = false then d.svcFault q
    else if (d.tu unit).fix ≠ some q.w.ref.fix ∨ (d.tu unit).releasing then d.svcRet q 4
    else match c.newTicket (bit (c.arg 7) 0) with
      | none => d.svcRet q 5
      | some no =>
        if d.canIssue 24 0 1 = false then d
        else
          let keys := (List.range n).map (fun i => BitVec.ofNat 160 (c.readVal (c.arg 3 + 32 * i) 20))
          let d := (d.issue 24 0 1).modTu unit (fun u => { u with searches := u.searches ++ [{
            caller := ctx, wb := q.w.id, ticket := no, keys := keys, asked := n, stepping := step, limit := limit, dest := c.getX 5 }] })
          d.startOp q { no := no, svc := 3, src := c.arg 3, srcLen := 32 * n, dst := c.arg 5, dstLen := 16 * recs })

/-! ## Service 4 (R255, R319, R320) -/

/-- Whether a service 4 operation of an instance is still under way. -/
def Ctx.digesting (c : Ctx) : Bool := c.tickets.any (fun t => decide (t.svc = 4) && !t.unitDone)

/-- The operation that a START opens, or the one that is open; none where the call is refused with a status. A refusal
has no other effect. -/
def Dev.digestOpen (d : Dev) (q : Call) (alg : Nat) (start : Bool) : Except Nat (Digest × Bool) :=
  if decide (alg % 8 < 4 ∧ alg < 12) = false then .error 3
  else if start then
    if alg < 8 then .ok ({ alg := alg }, false)
    else
      let k := d.kslot (q.c.arg 6)
      if q.c.arg 6 < 4096 ∧ k.ownedBy q.w.ref.fix ∧ k.ktype = 2 ∧ k.state = 1 then .ok ({ alg := alg, key := k.key }, true)
      else .error 9
  else match q.c.digest with
    | some g => .ok (g, false)
    | none => .error 3

/-- SVC_DIGEST. `tagOk` is the verdict on the tag of parked state that the call restores; a failing one ends the instance
with code 4 (DGE_STATE_RESTORE). A call made while another is under way begins after it. -/
def execSvcDigest (ctx : Nat) (tagOk : Bool) (s : State) : Host.Outcome State Fault Refusal :=
  act s fun d => d.svc ctx 4 (fun d q =>
    let c := q.c
    let x2 := c.arg 2
    let alg := bitsOf x2 0 4
    let start := bit x2 8
    let final := bit x2 9
    let n := c.arg 4
    if c.digesting then d
    else if 2 ^ 26 < n then d.svcRet q 3
    else match d.digestOpen q alg start with
      | .error e => d.svcRet q e
      | .ok (g, keyed) =>
        let out := if final then digestLen (g.alg % 8) else 0
        if c.valid (c.arg 3) n false = false ∨ (final ∧ c.valid (c.arg 5) out true = false) then d.svcFault q
        else if d.key.locked then d.svcRet q 9
        else match c.newTicket (bit (c.arg 7) 0) with
          | none => d.svcRet q 5
          | some no =>
            if (d.aliveEngs 1).isEmpty then (d.modDigest q.w.id (fun _ => none)).svcRet q 11
            else if !start && !tagOk then
              let d := { d with dge := { d.dge with unwrapFail := satAdd 32 d.dge.unwrapFail 1 } }
              d.faultInstance q.w.id 4 0
            else
              let d := if keyed then d.useSlot (c.arg 6) 1 else d
              let d := d.modDigest q.w.id (fun _ => some g)
              let (d, ok) := d.request 26 q.w.ref.fix 1 (.waybill q.w.id)
              let j : DCtx := { alg := alg, state := b2n ok, fix := q.w.ref.fix, epoch := q.w.epoch % 65536, caller := ctx
                                wb := q.w.id, ticket := no, src := c.getX 3, len := n, dst := c.getX 5, final := final
                                keyed := decide (8 ≤ g.alg), opened := start }
              let d := { d with dge := { d.dge with waiting := d.dge.waiting ++ [j] } }
              d.placeDge.startOp q { no := no, svc := 4, src := c.arg 3, srcLen := n, dst := c.arg 5, dstLen := out })

/-! ## Service 5 (R256, R299, R310) -/

/-- The checks and the start of service 5 in one direction. -/
def Dev.startCxe (d : Dev) (q : Call) (op : Nat) : Dev :=
  let c := q.c
  let level := bitsOf (c.arg 2) 4 4
  let src := c.arg 3
  let n := c.arg 4
  let dst := c.arg 5
  let cap := c.arg 6
  if b2n (bit (c.arg 2) 0) ≠ op then d
  else if (op = 0 ∧ (level = 0 ∨ 12 < level)) ∨ 2 ^ 26 < n ∨ 2 ^ 26 < cap ∨
      (n ≠ 0 ∧ cap ≠ 0 ∧ src < dst + cap ∧ dst < src + n) then d.svcRet q 3
  else if c.valid src n false = false ∨ c.valid dst cap true = false then d.svcFault q
  else match c.newTicket (bit (c.arg 7) 0) with
    | none => d.svcRet q 5
    | some no =>
      if (d.aliveEngs 0).isEmpty then d.svcRet q 11 (fun c => c.res 2 0)
      else
        let (d, ok) := d.request 25 q.w.ref.fix 1 (.waybill q.w.id)
        let j : CJob := { op := op, level := if op = 0 then level else 0, ticket := no, fix := q.w.ref.fix
                          epoch := q.w.epoch % 65536, caller := q.ctx, wb := q.w.id, state := b2n ok, src := c.getX 3
                          srcLen := n, dst := c.getX 5, dstCap := cap }
        let d := { d with cxe := { d.cxe with waiting := d.cxe.waiting ++ [j] } }
        d.startOp q { no := no, svc := 5, src := src, srcLen := n, dst := dst, dstLen := cap }

def execSvcCompress (ctx : Nat) (s : State) : Host.Outcome State Fault Refusal :=
  act s fun d => d.svc ctx 5 (fun d q => d.startCxe q 0)

def execSvcDecompress (ctx : Nat) (s : State) : Host.Outcome State Fault Refusal :=
  act s fun d => d.svc ctx 5 (fun d q => d.startCxe q 1)

/-! ## Service 7 (R253) -/

/-- The ended ticket that a wait returns: the one named, or for 0 the lowest. -/
def Ctx.endedTicket (c : Ctx) (t : Nat) : Option Ticket :=
  if t = 0 then ([1, 2, 3, 4].filterMap c.ticket).find? (fun x => x.ended)
  else match c.ticket t with
    | some x => if x.ended then some x else none
    | none => none

/-- Whether a wait names something outstanding. -/
def Ctx.outstanding (c : Ctx) (t : Nat) : Bool :=
  if t = 0 then c.tickets.any (fun x => decide (1 ≤ x.no)) else (c.ticket t).isSome

/-- A wait returns a ticket: it is no longer outstanding. -/
def Ctx.takeTicket (c : Ctx) (t : Ticket) (f : Ctx → Nat → Ctx) : Ctx :=
  { ((f c t.status).res 2 t.no).res 3 t.x2 with tickets := c.tickets.filter (fun x => x.no ≠ t.no) }

/-- A wait that has timed out. -/
def Ctx.timedOut (c : Ctx) (f : Ctx → Nat → Ctx) : Ctx := ((f c 2).resFree 2).resFree 3

/-- SVC_WAIT_TIMEOUT. In TIMER_MODE 0 the wait is unbounded. -/
def execSvcWaitTimeout (ctx : Nat) (s : State) : Host.Outcome State Fault Refusal :=
  act s fun d => d.svc ctx 7 (fun d q =>
    let t := q.c.arg 2
    let us := q.c.arg 3
    if 4 < t ∨ 60000000 < us ∨ q.c.outstanding t = false then d.svcRet q 3
    else match q.c.endedTicket t with
      | some x => d.modInst q.w.id (fun c => c.takeTicket x Ctx.svcDone)
      | none =>
        if us = 0 then d.modInst q.w.id (fun c => c.timedOut Ctx.svcDone)
        else
          let d := if (d.dh (d.thread q.th).hearth).timerModeA = 0 then d else (d.takeDelay q.th us true).getD d
          d.svcWait q (.wait t))

/-! ## Wakes (R346, R350) -/

/-- A waiting thread becomes READY at the tail of its level. -/
def Dev.wakeUp (d : Dev) (n : Nat) : Dev := d.enqueue n false (.wake n)

/-- A call that a full delay list has blocked takes an entry once one is free (R355). -/
def Dev.retryTimed (d : Dev) (n us : Nat) (isWait : Bool) : Dev :=
  if (d.dh (d.thread n).hearth).delay.any (fun e => e.thread = n) then d else (d.takeDelay n us isWait).getD d

/-- The end of a blocked call whose event has come: by what it is blocked on. -/
def Dev.wakeCall (d : Dev) (n id : Nat) (c : Ctx) (w : Waybill) : Dev :=
  match c.block with
  | .none => d
  | .input =>
    match w.ready with
    | i :: _ => (d.mapChunk id i Ctx.svcEnd).wakeUp n
    | [] => if d.inputDone w then (d.noInput id Ctx.svcEnd).wakeUp n else d
  | .emit =>
    match d.freshOut id with
    | none => d
    | some d =>
      let d := d.emitOut id (c.arg 2) (w.emitAt c)
      match d.wb id, d.inst id with
      | some w, some _ =>
        if w.outBuf.isSome then (d.modInst id (fun c => (c.svcEnd 0).res 2 w.bytesOut)).wakeUp n
        else match d.freshOut id with
          | some d => (d.modInst id (fun c => (c.svcEnd 0).res 2 w.bytesOut)).wakeUp n
          | none => d.modInst id (fun c => { c with block := .output })
      | _, _ => d
  | .output =>
    match d.freshOut id with
    | some d => (d.modInst id (fun c => (c.svcEnd 0).res 2 w.bytesOut)).wakeUp n
    | none => d
  | .engine t =>
    match c.ticket t with
    | some x =>
      if x.unitDone then
        (d.modInst id (fun c =>
          let c := { c.svcEnd x.status with tickets := c.tickets.filter (fun y => y.no ≠ t) }
          if x.status = 9 then c else c.res 2 x.x2)).wakeUp n
      else d
    | none => d
  | .delay => d.retryTimed n (c.arg 2) false
  | .wait t =>
    match c.endedTicket t with
    | some x => ((d.dropDelay n).modInst id (fun c => c.takeTicket x Ctx.svcEnd)).wakeUp n
    | none => if (d.dh (d.thread n).hearth).timerModeA = 0 then d else d.retryTimed n (c.arg 3) true

/-- THREAD_WAKE: the awaited event of a WAITING thread has come. -/
def execThreadWake (thread : Nat) (s : State) : Host.Outcome State Fault Refusal :=
  act s fun d =>
    let t := d.thread thread
    if t.state ≠ .waiting ∨ t.release then d
    else match t.wb with
      | none => (d.dropDelay thread).wakeUp thread
      | some id => match d.inst id, d.wb id with
        | some c, some w => d.wakeCall thread id c w
        | _, _ => d

/-! ## Expiries (R354, R356) -/

/-- The thread of an expired entry resumes: a delay with OK, a wait with TIMEOUT, or with its operation if that has ended
too. -/
def Dev.expire (d : Dev) (e : DelayE) : Dev :=
  let id := ((d.thread e.thread).wb).getD 0
  match (d.thread e.thread).wb.bind d.inst with
  | none => d
  | some c =>
    match c.block with
    | .delay => d.modInst id (fun c => c.svcEnd 0)
    | .wait t => match c.endedTicket t with
      | some x => d.modInst id (fun c => c.takeTicket x Ctx.svcEnd)
      | none => d.modInst id (fun c => c.timedOut Ctx.svcEnd)
    | _ => d

/-- The head of a delay list moves to the ready lists; a full Hearth holds it back. -/
def Dev.moveExpired (d : Dev) (h : Nat) (e : DelayE) (rest : List DelayE) : Dev :=
  if d.readyFull h then
    (d.modDh h (fun q => { q with delay := { e with late := true } :: rest })).refuse h .expiry
  else
    let d := d.modDh h (fun q => { q with
      delay := rest, expiries := q.expiries + 1, late := if e.late then satAdd 32 q.late 1 else q.late })
    ((d.giveBack 19 0 1).expire e).wakeUp e.thread

/-- Moves every entry that is due at boundary `at'`, in list order. -/
def Dev.moveDue (d : Dev) (h at' fuel : Nat) : Dev :=
  match fuel with
  | 0 => d
  | k + 1 =>
    match (d.dh h).delay with
    | e :: rest => if e.expiry ≤ at' then
        let f := d.moveExpired h e rest
        if d.readyFull h then f else f.moveDue h at' k
      else d
    | [] => d

/-- DRV_TICK_BOUNDARY: DRV_NOW has reached a multiple of the Hearth's tick. -/
def execDrvTickBoundary (hearth now : Nat) (s : State) : Host.Outcome State Fault Refusal :=
  act s fun d =>
    if 6 ≤ hearth ∨ now < d.drv.now ∨ now % (d.dh hearth).tickA ≠ 0 ∨ d.domOn .control = false then d
    else ({ d with drv := { d.drv with now := now } }).moveDue hearth now 4096

/-- DELAY_ENTRY_EXPIRY: an entry that a full Hearth held back moves. -/
def execDelayEntryExpiry (hearth : Nat) (s : State) : Host.Outcome State Fault Refusal :=
  act s fun d =>
    match (d.dh hearth).delay with
    | e :: rest =>
      let t := (d.dh hearth).tickA
      if e.expiry ≤ d.drv.now / t * t ∧ d.readyFull hearth = false then
        (d.moveExpired hearth e rest).modDh hearth (fun q => { q with held := q.held.filter (fun x => decide (x ≠ Held.expiry)) })
      else d
    | [] => d

/-! ## Cancels (R357) -/

/-- THREAD_CANCEL: an instance without an end cause ends with ABORTED. -/
def execThreadCancel (thread : Nat) (s : State) : Host.Outcome State Fault Refusal :=
  act s fun d =>
    let t := d.thread thread
    let stop (d : Dev) : Dev := match t.wb with
      | some id => d.endCause id 7
      | none => (d.endThread thread).retryHeld t.hearth
    match t.state with
    | .free => d.emit (.cancelled .noThread)
    | .ready | .flowHeld =>
      (stop { d with drv := { d.drv with cancelsBefore := satAdd 32 d.drv.cancelsBefore 1 } }).emit (.cancelled .beforeDispatch)
    | .waiting => (stop d).emit (.cancelled .waiting)
    | .running => (stop d).emit (.cancelled .running)

end Sys2Proof.Machine
end

