-- ==== Sys2Proof/Machine/Squash.lean ====
section
/-! DEFINITION. The squash of old-epoch work after a function reset (R65 step 3, R66, R296, R333). -/

namespace Sys2Proof.Machine

/-- Whether a write granule is at a NAND page already: its program finishes and updates no map (R65 step 5, R186). -/
def WGran.placed (g : WGran) : Bool := decide (g.pga ≠ 0 ∨ g.stage ∈ [.qlcCopy, .program, .journal, .done])

/-- A write granule of an old epoch leaves the pipeline with its units; one that is placed goes on to the end of its
program. -/
def Dev.squashWg (d : Dev) (id : Nat) : Dev :=
  match d.wg id with
  | none => d
  | some g => if g.placed then d else ((d.withdraw 2 (.wgran id)).freeWg g).dropWg id

/-- A read granule of an old epoch leaves the pipeline with its units. -/
def Dev.squashRg (d : Dev) (id : Nat) : Dev :=
  match d.rg id with
  | none => d
  | some g => ((d.withdraw 3 (.rgran id)).freeRg g).dropRg id

/-- The AEE job of a command of an old epoch ends with nothing stored: its unit of pool 27 goes back, and with a new slot
that of pool 28 (R333). -/
def Dev.squashUnwrap (d : Dev) (ref : CmdRef) (target : Nat) : Dev :=
  let mine (j : AJob) : Bool := decide (j.state ≠ 0 ∧ j.ref = some ref)
  let held := (d.aee.jobs.map (·.2) ++ d.aee.waiting).filter mine
  let hit := (d.aee.jobs.filter (fun p => mine p.2)).map (·.1)
  let engs := hit.foldl (fun m k => fmod m {} (k / 16) (fun (e : Eng) => { e with squashed := satAdd 32 e.squashed 1 })) d.aee.engs
  let d : Dev := { d with aee := { d.aee with
    jobs := d.aee.jobs.filter (fun p => !mine p.2), waiting := d.aee.waiting.filter (fun j => decide (j.ref ≠ some ref))
    engs := engs } }
  let d := (d.giveBack 27 ref.fix held.length).withdraw 27 (.cmd ref)
  if target = 4096 then d.giveBack 28 ref.fix 1 else d

/-- Whether a table write stands at a segment boundary: 1,024 changes of entries, none half done (R296). -/
def TUnit.atSegment (u : TUnit) : Bool := decide (u.shift = 0 ∧ u.wrote % 1024 = 0)

/-- Whether a command of an old epoch may be squashed now. A table write goes on to its next segment boundary (R296); a
destroy or unbind, whose vault write has been made, to the end of the commands that use the key (R332, R333). -/
def Dev.maySquash (d : Dev) (c : Cmd) : Bool :=
  match c.job with
  | .tongsWrite unit => decide ((d.tu unit).writer ≠ some c.ref) || (d.tu unit).atSegment
  | .keyRelease _ => !c.after.any (fun r => (d.cmd r).isSome)
  | _ => true

/-- What a command of an old epoch lets go of. Entry changes made stay, with the claim (R110, R296); operations on media,
images, firmware and groups that have begun go on without it. -/
def Dev.releaseJob (d : Dev) (c : Cmd) : Dev :=
  match c.job with
  | .share p => d.withdraw p (.cmd c.ref)
  | .keyUnwrap target => d.squashUnwrap c.ref target
  | .keyRelease slot =>
    let d := d.flushLaneKeys (c.args.getD 0 0)
    if slot = 4096 then d else d.giveBack 28 c.ref.fix 1
  | .tongsWrite unit =>
    if (d.tu unit).writer = some c.ref then
      d.modTu unit (fun u => { u with updates := [], writer := none, shift := 0, wrote := 0, sorted := tSorted u.table })
    else d
  | .tongsRelease unit => d.modTu unit (fun u => { u with releasing := false })
  | _ => d

/-- A command of an old epoch ends without a completion (R66). -/
def Dev.squashCmd (d : Dev) (ref : CmdRef) : Dev :=
  match d.cmd ref with
  | none => d
  | some c => (d.releaseJob c).completeOne ref .abortRequested 0 0

/-- A job or call that waits for a context of CXE or DGE leaves with its unit: one that was issued goes back, and a request
is withdrawn. -/
def Dev.squashQueued (d : Dev) (fix k : Nat) : Dev :=
  if k < 5000 then
    let mine (j : CJob) : Bool := decide (j.fix = fix ∧ j.queuedAs = k)
    ({ d with cxe := { d.cxe with waiting := d.cxe.waiting.filter (fun j => !mine j) } }).forEach (d.cxe.waiting.filter mine)
      (fun d j => if j.state = 1 then d.giveBack 25 fix 1 else d.withdraw 25 (.waybill j.wb))
  else
    let mine (j : DCtx) : Bool := decide (j.fix = fix ∧ j.queuedAs = k)
    ({ d with dge := { d.dge with waiting := d.dge.waiting.filter (fun j => !mine j) } }).forEach (d.dge.waiting.filter mine)
      (fun d j => if j.state = 1 then d.giveBack 26 fix 1 else d.withdraw 26 (.waybill j.wb))

/-- A job of an engine: CXE `i`, DGE 1,000 + `i`, AEE 2,000 + `i`. A context that another function has taken since is left
alone. -/
def Dev.squashJob (d : Dev) (fix k : Nat) : Dev :=
  if 3000 ≤ k then d.squashQueued fix k
  else if k < 1000 then
    let j := d.cjob k
    if j.state ≠ 0 ∧ j.fix = fix then
      ((d.freeCjob k).giveBack 25 fix 1).modEng 0 (k / 16) (fun e => { e with squashed := satAdd 32 e.squashed 1 })
    else d
  else if k < 2000 then
    let j := d.dctx (k - 1000)
    if j.state ≠ 0 ∧ j.fix = fix then
      ((d.freeDctx (k - 1000)).giveBack 26 fix 1).modEng 1 ((k - 1000) / 16) (fun e =>
        { e with squashed := satAdd 32 e.squashed 1 })
    else d
  else
    let j := d.ajob (k - 2000)
    if j.state ≠ 0 ∧ j.fix = fix then
      match j.ref with
      | some r => d.squashCmd r
      | none => d
    else d

/-- A thread of an old epoch: its instance is terminated, or the thread alone ends (R65 steps 3 and 4). -/
def Dev.squashThread (d : Dev) (fix n : Nat) : Dev :=
  let t := d.thread n
  if t.fix ≠ some fix ∨ t.state = .free then d
  else match t.wb with
    | some id => if (d.inst id).isSome then d.stopInstance id else d.endThread n
    | none => d.endThread n

/-- A search of an old epoch: its results not yet written are discarded, and its unit of pool 24 goes back (R296). -/
def Dev.squashSearch (d : Dev) (fix unit caller : Nat) : Dev :=
  let mine (s : TSearch) : Bool := decide (s.caller = caller) && d.hrt.wbs.any (fun w => decide (w.id = s.wb ∧ w.ref.fix = fix))
  let n := ((d.tu unit).searches.filter mine).length
  (d.modTu unit (fun u => { u with searches := u.searches.filter (fun s => !mine s) })).giveBack 24 0 n

/-- Whether a search stands at a segment boundary: 2,048 keys (R296). -/
def TSearch.atSegment (s : TSearch) : Bool := s.stepping || decide ((s.asked - s.keys.length) % 2048 = 0)

/-- Whether an item stands at a boundary at which it may be squashed: a granule, once it has left the lane that computes it
(R114). -/
def Dev.itemReady (d : Dev) (w : Waiter) : Bool :=
  match w with
  | .wgran id => match d.wg id with
    | some g => g.placed || g.lane.isNone
    | none => true
  | .rgran id => match d.rg id with
    | some g => g.lane.isNone
    | none => true
  | .cmd r => match d.cmd r with
    | some c => d.maySquash c
    | none => true
  | .search unit caller => (d.tu unit).searches.all (fun s => decide (s.caller ≠ caller) || s.atSegment)
  | _ => true

/-- Squashes one item of a function. -/
def Dev.squashItem (d : Dev) (fix : Nat) (w : Waiter) : Dev :=
  match w with
  | .cmd r => (d.squashCmd r).giveBack 0 fix (if isTunnel r then 0 else 1)
  | .wgran id => d.squashWg id
  | .rgran id => d.squashRg id
  | .waybill id => d.squashWaybill id
  | .job k => d.squashJob fix k
  | .thread n => d.squashThread fix n
  | .search unit caller => d.squashSearch fix unit caller

/-- EPOCH_ITEM_SQUASH: an old-epoch item at its segment boundary, which holds a unit of pool 31, is squashed, and its unit
returns (R65). -/
def execEpochItemSquash (fix : Nat) (w : Waiter) (s : State) : Host.Outcome State Fault Refusal :=
  act s fun d =>
    if w ∈ (d.fn fix).oldItems ∧ 0 < (d.fn fix).fence ∧ d.itemReady w then
      let d := (d.squashItem fix w).giveBack 31 fix 1
      let d := d.modFn fix (fun f => { f with oldItems := f.oldItems.filter (· ≠ w), fence := f.fence - 1 })
      let d := d.issueFences
      d.quiescePort (d.portOf fix)
    else d

end Sys2Proof.Machine
end

