-- ==== Sys2Proof/Machine/Vector.lean ====
section
/-! DEFINITION. Feresk vector operations (R271) and predicates (R262, R272). -/

namespace Sys2Proof.Machine

/-! ## Lane by lane -/

/-- Lane `i` of operand A. -/
def Ctx.laneA (c : Ctx) (f : Fw) (i : Nat) : Nat := laneOf f.esz (c.getV f.a) i

/-- Bits of a lane. -/
def Fw.laneBits (f : Fw) : Nat := 8 * f.size

/-- An instruction of the form lane ← g A B; results are cut to the lane by `ofLanes`. -/
def Dev.valu (d : Dev) (ctx op : Nat) (g : Fw → Nat → Nat → Nat) : Dev :=
  d.plain ctx op (fun c f => c.putLanes f (fun i => g f (c.laneA f i) (c.laneB f i)))

/-- A comparison of the form predicate lane ← g A B. -/
def Dev.vcmp (d : Dev) (ctx op : Nat) (g : Fw → Nat → Nat → Bool) : Dev :=
  d.plain ctx op (fun c f => c.putPred f (fun i => g f (c.laneA f i) (c.laneB f i)))

/-- Signed comparisons of lanes. -/
def laneLt (f : Fw) (a b : Nat) : Bool := decide (laneInt f.esz a < laneInt f.esz b)
def laneLe (f : Fw) (a b : Nat) : Bool := decide (laneInt f.esz a ≤ laneInt f.esz b)

/-- A shifted right arithmetically within its lane. -/
def laneSra (f : Fw) (a b : Nat) : Nat := (laneInt f.esz a / 2 ^ (b % f.laneBits) % 2 ^ f.laneBits).toNat

def execVadd (ctx : Nat) (s : State) : Host.Outcome State Fault Refusal := act s fun d => d.valu ctx 0x50 (fun _ a b => a + b)
def execVsub (ctx : Nat) (s : State) : Host.Outcome State Fault Refusal :=
  act s fun d => d.valu ctx 0x51 (fun f a b => a + (2 ^ f.laneBits - b))
def execVand (ctx : Nat) (s : State) : Host.Outcome State Fault Refusal := act s fun d => d.valu ctx 0x52 (fun _ a b => a &&& b)
def execVor (ctx : Nat) (s : State) : Host.Outcome State Fault Refusal := act s fun d => d.valu ctx 0x53 (fun _ a b => a ||| b)
def execVxor (ctx : Nat) (s : State) : Host.Outcome State Fault Refusal := act s fun d => d.valu ctx 0x54 (fun _ a b => a ^^^ b)
def execVandn (ctx : Nat) (s : State) : Host.Outcome State Fault Refusal :=
  act s fun d => d.valu ctx 0x55 (fun f a b => a &&& (2 ^ f.laneBits - 1 - b))
def execVmin (ctx : Nat) (s : State) : Host.Outcome State Fault Refusal :=
  act s fun d => d.valu ctx 0x56 (fun f a b => if laneLe f a b then a else b)
def execVmax (ctx : Nat) (s : State) : Host.Outcome State Fault Refusal :=
  act s fun d => d.valu ctx 0x57 (fun f a b => if laneLe f a b then b else a)
def execVminu (ctx : Nat) (s : State) : Host.Outcome State Fault Refusal := act s fun d => d.valu ctx 0x58 (fun _ a b => min a b)
def execVmaxu (ctx : Nat) (s : State) : Host.Outcome State Fault Refusal := act s fun d => d.valu ctx 0x59 (fun _ a b => max a b)
def execVmul (ctx : Nat) (s : State) : Host.Outcome State Fault Refusal := act s fun d => d.valu ctx 0x5A (fun _ a b => a * b)
def execVsll (ctx : Nat) (s : State) : Host.Outcome State Fault Refusal :=
  act s fun d => d.valu ctx 0x5B (fun f a b => a * 2 ^ (b % f.laneBits))
def execVsrl (ctx : Nat) (s : State) : Host.Outcome State Fault Refusal :=
  act s fun d => d.valu ctx 0x5C (fun f a b => a / 2 ^ (b % f.laneBits))
def execVsra (ctx : Nat) (s : State) : Host.Outcome State Fault Refusal := act s fun d => d.valu ctx 0x5D laneSra
def execVmov (ctx : Nat) (s : State) : Host.Outcome State Fault Refusal :=
  act s fun d => d.plain ctx 0x6F (fun c f => c.putLanes f (fun i => if f.idx then c.laneB f i else c.laneA f i))

def execVcmpeq (ctx : Nat) (s : State) : Host.Outcome State Fault Refusal := act s fun d => d.vcmp ctx 0x69 (fun _ a b => a == b)
def execVcmpne (ctx : Nat) (s : State) : Host.Outcome State Fault Refusal := act s fun d => d.vcmp ctx 0x6A (fun _ a b => a != b)
def execVcmplt (ctx : Nat) (s : State) : Host.Outcome State Fault Refusal := act s fun d => d.vcmp ctx 0x6B laneLt
def execVcmpltu (ctx : Nat) (s : State) : Host.Outcome State Fault Refusal :=
  act s fun d => d.vcmp ctx 0x6C (fun _ a b => decide (a < b))
def execVcmple (ctx : Nat) (s : State) : Host.Outcome State Fault Refusal := act s fun d => d.vcmp ctx 0x6D laneLe
def execVcmpleu (ctx : Nat) (s : State) : Host.Outcome State Fault Refusal :=
  act s fun d => d.vcmp ctx 0x6E (fun _ a b => decide (a ≤ b))

/-! ## Lanes and registers, permutations -/

def execVsplat (ctx : Nat) (s : State) : Host.Outcome State Fault Refusal :=
  act s fun d => d.plain ctx 0x60 (fun c f => c.putLanes f (fun _ => (c.getX f.a).toNat))
def execVext (ctx : Nat) (s : State) : Host.Outcome State Fault Refusal :=
  act s fun d => d.plain ctx 0x61 (fun c f => c.setX f.dst (extLane f.esz f.sg (laneOf f.esz (c.getV f.a) f.imm)))
def execVins (ctx : Nat) (s : State) : Host.Outcome State Fault Refusal :=
  act s fun d => d.plain ctx 0x62 (fun c f =>
    c.setV f.dst (ofLanes f.esz ((List.range (laneCount f.esz)).map (fun i =>
      if i = f.imm then (c.getX f.a).toNat else laneOf f.esz (c.getV f.dst) i))))

/-- Byte `i` of v[dst] is the byte of A that byte `i` of B names modulo 64. -/
def execVperm (ctx : Nat) (s : State) : Host.Outcome State Fault Refusal :=
  act s fun d => d.plain ctx 0x63 (fun c f =>
    c.setV f.dst (ofLanes 0 ((List.range 64).map (fun i => laneOf 0 (c.getV f.a) (laneOf 0 (c.getV f.b) i % 64)))))

/-- Bytes imm to imm + 63 of A followed by B. -/
def execValign (ctx : Nat) (s : State) : Host.Outcome State Fault Refusal :=
  act s fun d => d.plain ctx 0x64 (fun c f =>
    c.setV f.dst (BitVec.ofNat 512 (((c.getV f.a).toNat + (c.getV f.b).toNat * 2 ^ 512) / 2 ^ (8 * f.imm))))

/-- VPACK: active lanes of A in lanes 0 upward, the rest 0. -/
def execVpack (ctx : Nat) (s : State) : Host.Outcome State Fault Refusal :=
  act s fun d => d.plain ctx 0x68 (fun c f => c.setV f.dst (ofLanes f.esz ((c.activeLanes f).map (c.laneA f))))

/-! ## Reductions -/

/-- The active lanes of A as numbers, signed where SIGNED is set. -/
def Ctx.active (c : Ctx) (f : Fw) : List Int :=
  (c.activeLanes f).map (fun i => if f.sg then laneInt f.esz (c.laneA f i) else c.laneA f i)

/-- Smallest and largest value of a lane. -/
def Fw.least (f : Fw) : Int := if f.sg then -2 ^ (f.laneBits - 1) else 0
def Fw.most (f : Fw) : Int := if f.sg then 2 ^ (f.laneBits - 1) - 1 else 2 ^ f.laneBits - 1

def execVredadd (ctx : Nat) (s : State) : Host.Outcome State Fault Refusal :=
  act s fun d => d.plain ctx 0x65 (fun c f => c.setX f.dst (BitVec.ofInt 64 (c.active f).sum))
def execVredmin (ctx : Nat) (s : State) : Host.Outcome State Fault Refusal :=
  act s fun d => d.plain ctx 0x66 (fun c f => c.setX f.dst (BitVec.ofInt 64 ((c.active f).foldl min f.most)))
def execVredmax (ctx : Nat) (s : State) : Host.Outcome State Fault Refusal :=
  act s fun d => d.plain ctx 0x67 (fun c f => c.setX f.dst (BitVec.ofInt 64 ((c.active f).foldl max f.least)))

/-! ## Predicates -/

/-- An operation on two predicates, both read at the smaller of their lane sizes. -/
def Dev.palu (d : Dev) (ctx op : Nat) (g : Bool → Bool → Bool) : Dev :=
  d.plain ctx op (fun c f =>
    let a := c.getP f.a
    let b := c.getP f.b
    let z := min a.psz b.psz
    c.setP f.dst (Pred.of z (fun i => g (a.bitAt z i) (b.bitAt z i))))

def execPand (ctx : Nat) (s : State) : Host.Outcome State Fault Refusal := act s fun d => d.palu ctx 0x70 (· && ·)
def execPor (ctx : Nat) (s : State) : Host.Outcome State Fault Refusal := act s fun d => d.palu ctx 0x71 (· || ·)
def execPxor (ctx : Nat) (s : State) : Host.Outcome State Fault Refusal := act s fun d => d.palu ctx 0x72 (· != ·)
def execPandn (ctx : Nat) (s : State) : Host.Outcome State Fault Refusal := act s fun d => d.palu ctx 0x73 (fun a b => a && !b)
def execPrange (ctx : Nat) (s : State) : Host.Outcome State Fault Refusal :=
  act s fun d => d.plain ctx 0x74 (fun c f => c.setP f.dst (Pred.of f.esz (fun i => decide (i < (c.getX f.a).toNat))))
def execPcnt (ctx : Nat) (s : State) : Host.Outcome State Fault Refusal :=
  act s fun d => d.plain ctx 0x75 (fun c f =>
    c.setX f.dst (BitVec.ofNat 64 (((c.getP f.a).bits f.esz).filter id).length))
def execPfirst (ctx : Nat) (s : State) : Host.Outcome State Fault Refusal :=
  act s fun d => d.plain ctx 0x76 (fun c f => c.setX f.dst (BitVec.ofNat 64
    (((List.range (laneCount f.esz)).find? ((c.getP f.a).bitAt f.esz)).getD (laneCount f.esz))))
def execPtox (ctx : Nat) (s : State) : Host.Outcome State Fault Refusal :=
  act s fun d => d.plain ctx 0x77 (fun c f => c.setX f.dst (BitVec.ofNat 64 (ofBits ((c.getP f.a).bits f.esz))))
def execXtop (ctx : Nat) (s : State) : Host.Outcome State Fault Refusal :=
  act s fun d => d.plain ctx 0x78 (fun c f => c.setP f.dst (Pred.of f.esz (fun i => (c.getX f.a).getLsbD i)))

end Sys2Proof.Machine
end

