-- ==== Sys2Proof/Machine/Dispatch.lean ====
section
/-! DEFINITION. One arm per command: the direct call of its meaning. -/

namespace Sys2Proof.Machine

def exec (i : Instr) (s : State) : Host.Outcome State Fault Refusal :=
  match i with
  | .registerWrite space addr wide value => Sys2Proof.Machine.execRegisterWrite space addr wide value s
  | .rcCounterRead space addr => Sys2Proof.Machine.execRcCounterRead space addr s
  | .upperWordLatch space spot => Sys2Proof.Machine.execUpperWordLatch space spot s
  | .stagedCommit window => Sys2Proof.Machine.execStagedCommit window s
  | .bar2WriteDiscarded fix offset wide => Sys2Proof.Machine.execBar2WriteDiscarded fix offset wide s
  | .bar2UnsupportedAccess fix offset len => Sys2Proof.Machine.execBar2UnsupportedAccess fix offset len s
  | .coreBusError core addr kind journal => Sys2Proof.Machine.execCoreBusError core addr kind journal s
  | .mailboxSend ring ty urgent unit payload => Sys2Proof.Machine.execMailboxSend ring ty urgent unit payload s
  | .mailboxSlotGranted ring => Sys2Proof.Machine.execMailboxSlotGranted ring s
  | .mailboxReceive ring => Sys2Proof.Machine.execMailboxReceive ring s
  | .handoffBufferPass buffer data => Sys2Proof.Machine.execHandoffBufferPass buffer data s
  | .handoffForeignAccess buffer offset core => Sys2Proof.Machine.execHandoffForeignAccess buffer offset core s
  | .bridgeAccess dir source addr wide isWrite value => Sys2Proof.Machine.execBridgeAccess dir source addr wide isWrite value s
  | .bridgeReadReturn dir => Sys2Proof.Machine.execBridgeReadReturn dir s
  | .accountingEpochBoundary tj sensor top margins => Sys2Proof.Machine.execAccountingEpochBoundary tj sensor top margins s
  | .tolViolatedClear mask => Sys2Proof.Machine.execTolViolatedClear mask s
  | .shareUnitsIssued pool => Sys2Proof.Machine.execShareUnitsIssued pool s
  | .linkTraining port partnerMax passing lanes flit => Sys2Proof.Machine.execLinkTraining port partnerMax passing lanes flit s
  | .linkRecoveryEntry port us => Sys2Proof.Machine.execLinkRecoveryEntry port us s
  | .fecUncorrectableFlit port us => Sys2Proof.Machine.execFecUncorrectableFlit port us s
  | .linkRateDowngrade port => Sys2Proof.Machine.execLinkRateDowngrade port s
  | .retrainLink port target => Sys2Proof.Machine.execRetrainLink port target s
  | .l0pWidthChange port width => Sys2Proof.Machine.execL0pWidthChange port width s
  | .linkPowerStateChange port state => Sys2Proof.Machine.execLinkPowerStateChange port state s
  | .functionPowerStateWrite fix d0 => Sys2Proof.Machine.execFunctionPowerStateWrite fix d0 s
  | .msixVectorUnmask fix vec => Sys2Proof.Machine.execMsixVectorUnmask fix vec s
  | .perstAssert port failed => Sys2Proof.Machine.execPerstAssert port failed s
  | .perstDeassert port => Sys2Proof.Machine.execPerstDeassert port s
  | .hotReset port failed => Sys2Proof.Machine.execHotReset port failed s
  | .linkDown port failed => Sys2Proof.Machine.execLinkDown port failed s
  | .portLinkUp port => Sys2Proof.Machine.execPortLinkUp port s
  | .vfEnableWrite port enable => Sys2Proof.Machine.execVfEnableWrite port enable s
  | .functionLevelReset fix => Sys2Proof.Machine.execFunctionLevelReset fix s
  | .controllerEnable fix css ams mps => Sys2Proof.Machine.execControllerEnable fix css ams mps s
  | .controllerDisable fix => Sys2Proof.Machine.execControllerDisable fix s
  | .epochItemSquash fix item => Sys2Proof.Machine.execEpochItemSquash fix item s
  | .functionResetComplete fix us => Sys2Proof.Machine.execFunctionResetComplete fix us s
  | .nvmSubsystemReset failed => Sys2Proof.Machine.execNvmSubsystemReset failed s
  | .sqTailDoorbell fix qid value => Sys2Proof.Machine.execSqTailDoorbell fix qid value s
  | .cqHeadDoorbell fix qid value => Sys2Proof.Machine.execCqHeadDoorbell fix qid value s
  | .submissionFetch cid sgl fused => Sys2Proof.Machine.execSubmissionFetch cid sgl fused s
  | .moderationTimerExpiry fix vec => Sys2Proof.Machine.execModerationTimerExpiry fix vec s
  | .controllerShutdownNormal fix => Sys2Proof.Machine.execControllerShutdownNormal fix s
  | .controllerShutdownAbrupt fix => Sys2Proof.Machine.execControllerShutdownAbrupt fix s
  | .shutdownComplete fix => Sys2Proof.Machine.execShutdownComplete fix s
  | .unsupportedCommand ref => Sys2Proof.Machine.execUnsupportedCommand ref s
  | .createIoSq ref contiguous qid entries base cqid => Sys2Proof.Machine.execCreateIoSq ref contiguous qid entries base cqid s
  | .createIoCq ref contiguous ien qid entries base vector => Sys2Proof.Machine.execCreateIoCq ref contiguous ien qid entries base vector s
  | .deleteIoSq ref qid => Sys2Proof.Machine.execDeleteIoSq ref qid s
  | .deleteIoCq ref qid => Sys2Proof.Machine.execDeleteIoCq ref qid s
  | .getLogPage ref lid offset len rae capture => Sys2Proof.Machine.execGetLogPage ref lid offset len rae capture s
  | .identify ref cns nsid cntid => Sys2Proof.Machine.execIdentify ref cns nsid cntid s
  | .abort ref sqid cid => Sys2Proof.Machine.execAbort ref sqid cid s
  | .setFeatures ref fid save nsid value data => Sys2Proof.Machine.execSetFeatures ref fid save nsid value data s
  | .getFeatures ref fid sel nsid value => Sys2Proof.Machine.execGetFeatures ref fid sel nsid value s
  | .asynchronousEventRequest ref => Sys2Proof.Machine.execAsynchronousEventRequest ref s
  | .namespaceCreate ref nsze ncap lbaf extended kpio shared sent => Sys2Proof.Machine.execNamespaceCreate ref nsze ncap lbaf extended kpio shared sent s
  | .namespaceDelete ref nsid => Sys2Proof.Machine.execNamespaceDelete ref nsid s
  | .namespaceAttach ref nsid ctrls => Sys2Proof.Machine.execNamespaceAttach ref nsid ctrls s
  | .namespaceDetach ref nsid ctrls => Sys2Proof.Machine.execNamespaceDetach ref nsid ctrls s
  | .firmwareImageDownload ref offset data => Sys2Proof.Machine.execFirmwareImageDownload ref offset data s
  | .firmwareCommitReplace ref action fs cert profiles => Sys2Proof.Machine.execFirmwareCommitReplace ref action fs cert profiles s
  | .firmwareCommitReplaceActivate ref fs cert profiles => Sys2Proof.Machine.execFirmwareCommitReplaceActivate ref fs cert profiles s
  | .firmwareCommitActivate ref fs => Sys2Proof.Machine.execFirmwareCommitActivate ref fs s
  | .firmwareCommitActivateNow ref fs us cert profiles => Sys2Proof.Machine.execFirmwareCommitActivateNow ref fs us cert profiles s
  | .firmwareSlotWritten ok => Sys2Proof.Machine.execFirmwareSlotWritten ok s
  | .deviceSelfTestShort ref => Sys2Proof.Machine.execDeviceSelfTestShort ref s
  | .deviceSelfTestExtended ref => Sys2Proof.Machine.execDeviceSelfTestExtended ref s
  | .formatNvm ref nsid lbaf ses extended pi => Sys2Proof.Machine.execFormatNvm ref nsid lbaf ses extended pi s
  | .formatClearComplete nsid => Sys2Proof.Machine.execFormatClearComplete nsid s
  | .sanitizeCryptoErase ref => Sys2Proof.Machine.execSanitizeCryptoErase ref s
  | .sanitizeBlockErase ref => Sys2Proof.Machine.execSanitizeBlockErase ref s
  | .sanitizeOverwrite ref => Sys2Proof.Machine.execSanitizeOverwrite ref s
  | .sanitizeComplete => Sys2Proof.Machine.execSanitizeComplete s
  | .flush ref nsid => Sys2Proof.Machine.execFlush ref nsid s
  | .write ref nsid slba nlb tag dp mp data metadata => Sys2Proof.Machine.execWrite ref nsid slba nlb tag dp mp data metadata s
  | .read ref nsid slba nlb tag dp mp => Sys2Proof.Machine.execRead ref nsid slba nlb tag dp mp s
  | .compare ref nsid slba nlb tag dp mp data metadata => Sys2Proof.Machine.execCompare ref nsid slba nlb tag dp mp data metadata s
  | .writeZeroes ref nsid slba nlb deallocate => Sys2Proof.Machine.execWriteZeroes ref nsid slba nlb deallocate s
  | .datasetManagement ref nsid deallocate dp ranges => Sys2Proof.Machine.execDatasetManagement ref nsid deallocate dp ranges s
  | .verify ref nsid slba nlb tag => Sys2Proof.Machine.execVerify ref nsid slba nlb tag s
  | .reservationRegister ref nsid action iekey cptpl keys => Sys2Proof.Machine.execReservationRegister ref nsid action iekey cptpl keys s
  | .reservationReport ref nsid len extended ptr => Sys2Proof.Machine.execReservationReport ref nsid len extended ptr s
  | .reservationAcquire ref nsid action iekey rtype keys => Sys2Proof.Machine.execReservationAcquire ref nsid action iekey rtype keys s
  | .reservationRelease ref nsid action iekey rtype key => Sys2Proof.Machine.execReservationRelease ref nsid action iekey rtype key s
  | .policyTableLoad ref table action len data => Sys2Proof.Machine.execPolicyTableLoad ref table action len data s
  | .policyTableReadActive ref table len => Sys2Proof.Machine.execPolicyTableReadActive ref table len s
  | .policyTableReadFactory ref table len => Sys2Proof.Machine.execPolicyTableReadFactory ref table len s
  | .nolobImageLoad ref len mustSign data col set grp => Sys2Proof.Machine.execNolobImageLoad ref len mustSign data col set grp s
  | .nolobImageUnload ref handle => Sys2Proof.Machine.execNolobImageUnload ref handle s
  | .imageUnloadComplete slot => Sys2Proof.Machine.execImageUnloadComplete slot s
  | .keySlotImport ref len cdw15 data => Sys2Proof.Machine.execKeySlotImport ref len cdw15 data s
  | .keySlotGenerate ref len cdw15 => Sys2Proof.Machine.execKeySlotGenerate ref len cdw15 s
  | .keySlotDestroy ref slot => Sys2Proof.Machine.execKeySlotDestroy ref slot s
  | .keySlotQuery ref slot len => Sys2Proof.Machine.execKeySlotQuery ref slot len s
  | .keySlotRekey ref slot len cdw15 data => Sys2Proof.Machine.execKeySlotRekey ref slot len cdw15 data s
  | .keySlotBind ref slot nsid tag => Sys2Proof.Machine.execKeySlotBind ref slot nsid tag s
  | .keySlotUnbind ref slot nsid tag => Sys2Proof.Machine.execKeySlotUnbind ref slot nsid tag s
  | .keyReleaseComplete ref => Sys2Proof.Machine.execKeyReleaseComplete ref s
  | .cartridgeQuery ref group => Sys2Proof.Machine.execCartridgeQuery ref group s
  | .cartridgePrepareRemoval ref group gen => Sys2Proof.Machine.execCartridgePrepareRemoval ref group gen s
  | .cartridgeAdmit ref group gen => Sys2Proof.Machine.execCartridgeAdmit ref group gen s
  | .cartridgeCancelRemoval ref group gen => Sys2Proof.Machine.execCartridgeCancelRemoval ref group gen s
  | .manifestQuery ref first count len => Sys2Proof.Machine.execManifestQuery ref first count len s
  | .tollgateReport ref mask clear len => Sys2Proof.Machine.execTollgateReport ref mask clear len s
  | .computeSubmit ref addr waybill out => Sys2Proof.Machine.execComputeSubmit ref addr waybill out s
  | .tongsInsertByPriority ref unit count len ptr data => Sys2Proof.Machine.execTongsInsertByPriority ref unit count len ptr data s
  | .tongsWriteAt ref unit first count len ptr data => Sys2Proof.Machine.execTongsWriteAt ref unit first count len ptr data s
  | .tongsDelete ref unit first count len => Sys2Proof.Machine.execTongsDelete ref unit first count len s
  | .tongsReleaseUnit ref unit count len => Sys2Proof.Machine.execTongsReleaseUnit ref unit count len s
  | .tongsReleaseComplete unit => Sys2Proof.Machine.execTongsReleaseComplete unit s
  | .tongsTableRead ref unit first count len ptr => Sys2Proof.Machine.execTongsTableRead ref unit first count len ptr s
  | .laneGrant kind lane => Sys2Proof.Machine.execLaneGrant kind lane s
  | .granuleCompress lane => Sys2Proof.Machine.execGranuleCompress lane s
  | .granuleLockRelease gtag => Sys2Proof.Machine.execGranuleLockRelease gtag s
  | .xtsLaneCompute lane first second col set grp => Sys2Proof.Machine.execXtsLaneCompute lane first second col set grp s
  | .qlcCopyComplete id => Sys2Proof.Machine.execQlcCopyComplete id s
  | .stripeCloseTimer col set pu => Sys2Proof.Machine.execStripeCloseTimer col set pu s
  | .creditGrant pool id col set grp => Sys2Proof.Machine.execCreditGrant pool id col set grp s
  | .nandReadComplete id => Sys2Proof.Machine.execNandReadComplete id s
  | .codewordDecode id cw ok => Sys2Proof.Machine.execCodewordDecode id cw ok s
  | .readRetryRung id cw ok => Sys2Proof.Machine.execReadRetryRung id cw ok s
  | .softDecode id cw decoder ok => Sys2Proof.Machine.execSoftDecode id cw decoder ok s
  | .stripeReconstruct id cw failed => Sys2Proof.Machine.execStripeReconstruct id cw failed s
  | .granuleDecompress lane sizeOk restOk => Sys2Proof.Machine.execGranuleDecompress lane sizeOk restOk s
  | .hostDmaComplete id => Sys2Proof.Machine.execHostDmaComplete id s
  | .handoffDelivery wb => Sys2Proof.Machine.execHandoffDelivery wb s
  | .checkVerdictFinal wb id => Sys2Proof.Machine.execCheckVerdictFinal wb id s
  | .channelTraining chan passing tj => Sys2Proof.Machine.execChannelTraining chan passing tj s
  | .zqCalibrationTimer chan => Sys2Proof.Machine.execZqCalibrationTimer chan s
  | .readDqRetrain chan tj => Sys2Proof.Machine.execReadDqRetrain chan tj s
  | .nandProgramComplete die pass verifyOk => Sys2Proof.Machine.execNandProgramComplete die pass verifyOk s
  | .nandEraseComplete die pass => Sys2Proof.Machine.execNandEraseComplete die pass s
  | .nandOperationTimeout die us read => Sys2Proof.Machine.execNandOperationTimeout die us read s
  | .eraseSuspend die us => Sys2Proof.Machine.execEraseSuspend die us s
  | .programSuspend die us => Sys2Proof.Machine.execProgramSuspend die us s
  | .suspendReady die completed => Sys2Proof.Machine.execSuspendReady die completed s
  | .suspendResume die => Sys2Proof.Machine.execSuspendResume die s
  | .cartPresenceChange group seated => Sys2Proof.Machine.execCartPresenceChange group seated s
  | .insertionDebounced group => Sys2Proof.Machine.execInsertionDebounced group s
  | .removalCounted group => Sys2Proof.Machine.execRemovalCounted group s
  | .pgoodFall group => Sys2Proof.Machine.execPgoodFall group s
  | .cartridgeAdmission group found => Sys2Proof.Machine.execCartridgeAdmission group found s
  | .pgoodRise group => Sys2Proof.Machine.execPgoodRise group s
  | .pgoodTimeout group => Sys2Proof.Machine.execPgoodTimeout group s
  | .cartridgePowerUpDone group => Sys2Proof.Machine.execCartridgePowerUpDone group s
  | .cartridgePowerDown group => Sys2Proof.Machine.execCartridgePowerDown group s
  | .cartridgeAttnAssert group => Sys2Proof.Machine.execCartridgeAttnAssert group s
  | .journalRecordDurable => Sys2Proof.Machine.execJournalRecordDurable s
  | .journalCheckpoint => Sys2Proof.Machine.execJournalCheckpoint s
  | .mapItemLoad kind index => Sys2Proof.Machine.execMapItemLoad kind index s
  | .mapItemFlush kind index col set grp => Sys2Proof.Machine.execMapItemFlush kind index col set grp s
  | .gcVictimSelect cls => Sys2Proof.Machine.execGcVictimSelect cls s
  | .pslcFoldStart => Sys2Proof.Machine.execPslcFoldStart s
  | .recoveryStart valid stop => Sys2Proof.Machine.execRecoveryStart valid stop s
  | .recoveryBlockTableLoad => Sys2Proof.Machine.execRecoveryBlockTableLoad s
  | .recoveryComplete us seqUs => Sys2Proof.Machine.execRecoveryComplete us seqUs s
  | .rebuildSet group pass failed => Sys2Proof.Machine.execRebuildSet group pass failed s
  | .patrolZone samples => Sys2Proof.Machine.execPatrolZone samples s
  | .waybillAdmitted wb => Sys2Proof.Machine.execWaybillAdmitted wb s
  | .instanceStart wb => Sys2Proof.Machine.execInstanceStart wb s
  | .imageFetch slot => Sys2Proof.Machine.execImageFetch slot s
  | .segmentBoundary wb => Sys2Proof.Machine.execSegmentBoundary wb s
  | .timeLimitExpiry wb => Sys2Proof.Machine.execTimeLimitExpiry wb s
  | .instanceEnd wb => Sys2Proof.Machine.execInstanceEnd wb s
  | .hearthDrainComplete hearth => Sys2Proof.Machine.execHearthDrainComplete hearth s
  | .svcYield ctx => Sys2Proof.Machine.execSvcYield ctx s
  | .svcNextInput ctx => Sys2Proof.Machine.execSvcNextInput ctx s
  | .svcEmitOutput ctx => Sys2Proof.Machine.execSvcEmitOutput ctx s
  | .svcTongsQuery ctx => Sys2Proof.Machine.execSvcTongsQuery ctx s
  | .svcDigest ctx tagOk => Sys2Proof.Machine.execSvcDigest ctx tagOk s
  | .svcCompress ctx => Sys2Proof.Machine.execSvcCompress ctx s
  | .svcDecompress ctx => Sys2Proof.Machine.execSvcDecompress ctx s
  | .svcDelay ctx => Sys2Proof.Machine.execSvcDelay ctx s
  | .svcWaitTimeout ctx => Sys2Proof.Machine.execSvcWaitTimeout ctx s
  | .svcLogRecord ctx => Sys2Proof.Machine.execSvcLogRecord ctx s
  | .svcProgramExit ctx => Sys2Proof.Machine.execSvcProgramExit ctx s
  | .asyncOperationEnd wb ticket => Sys2Proof.Machine.execAsyncOperationEnd wb ticket s
  | .nop ctx => Sys2Proof.Machine.execNop ctx s
  | .add ctx => Sys2Proof.Machine.execAdd ctx s
  | .sub ctx => Sys2Proof.Machine.execSub ctx s
  | .and ctx => Sys2Proof.Machine.execAnd ctx s
  | .or ctx => Sys2Proof.Machine.execOr ctx s
  | .xor ctx => Sys2Proof.Machine.execXor ctx s
  | .andn ctx => Sys2Proof.Machine.execAndn ctx s
  | .min ctx => Sys2Proof.Machine.execMin ctx s
  | .max ctx => Sys2Proof.Machine.execMax ctx s
  | .minu ctx => Sys2Proof.Machine.execMinu ctx s
  | .maxu ctx => Sys2Proof.Machine.execMaxu ctx s
  | .sll ctx => Sys2Proof.Machine.execSll ctx s
  | .srl ctx => Sys2Proof.Machine.execSrl ctx s
  | .sra ctx => Sys2Proof.Machine.execSra ctx s
  | .ror ctx => Sys2Proof.Machine.execRor ctx s
  | .slt ctx => Sys2Proof.Machine.execSlt ctx s
  | .sltu ctx => Sys2Proof.Machine.execSltu ctx s
  | .seq ctx => Sys2Proof.Machine.execSeq ctx s
  | .mul ctx => Sys2Proof.Machine.execMul ctx s
  | .mulh ctx => Sys2Proof.Machine.execMulh ctx s
  | .mulhu ctx => Sys2Proof.Machine.execMulhu ctx s
  | .div ctx => Sys2Proof.Machine.execDiv ctx s
  | .divu ctx => Sys2Proof.Machine.execDivu ctx s
  | .rem ctx => Sys2Proof.Machine.execRem ctx s
  | .remu ctx => Sys2Proof.Machine.execRemu ctx s
  | .clz ctx => Sys2Proof.Machine.execClz ctx s
  | .ctz ctx => Sys2Proof.Machine.execCtz ctx s
  | .popc ctx => Sys2Proof.Machine.execPopc ctx s
  | .bswap ctx => Sys2Proof.Machine.execBswap ctx s
  | .ext ctx => Sys2Proof.Machine.execExt ctx s
  | .movi ctx => Sys2Proof.Machine.execMovi ctx s
  | .movhi ctx => Sys2Proof.Machine.execMovhi ctx s
  | .b ctx => Sys2Proof.Machine.execB ctx s
  | .beq ctx => Sys2Proof.Machine.execBeq ctx s
  | .bne ctx => Sys2Proof.Machine.execBne ctx s
  | .blt ctx => Sys2Proof.Machine.execBlt ctx s
  | .bge ctx => Sys2Proof.Machine.execBge ctx s
  | .bltu ctx => Sys2Proof.Machine.execBltu ctx s
  | .bgeu ctx => Sys2Proof.Machine.execBgeu ctx s
  | .bpany ctx => Sys2Proof.Machine.execBpany ctx s
  | .bpnone ctx => Sys2Proof.Machine.execBpnone ctx s
  | .ld ctx => Sys2Proof.Machine.execLd ctx s
  | .st ctx => Sys2Proof.Machine.execSt ctx s
  | .vld ctx => Sys2Proof.Machine.execVld ctx s
  | .vst ctx => Sys2Proof.Machine.execVst ctx s
  | .vgather ctx => Sys2Proof.Machine.execVgather ctx s
  | .vscatter ctx => Sys2Proof.Machine.execVscatter ctx s
  | .vldb ctx => Sys2Proof.Machine.execVldb ctx s
  | .vadd ctx => Sys2Proof.Machine.execVadd ctx s
  | .vsub ctx => Sys2Proof.Machine.execVsub ctx s
  | .vand ctx => Sys2Proof.Machine.execVand ctx s
  | .vor ctx => Sys2Proof.Machine.execVor ctx s
  | .vxor ctx => Sys2Proof.Machine.execVxor ctx s
  | .vandn ctx => Sys2Proof.Machine.execVandn ctx s
  | .vmin ctx => Sys2Proof.Machine.execVmin ctx s
  | .vmax ctx => Sys2Proof.Machine.execVmax ctx s
  | .vminu ctx => Sys2Proof.Machine.execVminu ctx s
  | .vmaxu ctx => Sys2Proof.Machine.execVmaxu ctx s
  | .vmul ctx => Sys2Proof.Machine.execVmul ctx s
  | .vsll ctx => Sys2Proof.Machine.execVsll ctx s
  | .vsrl ctx => Sys2Proof.Machine.execVsrl ctx s
  | .vsra ctx => Sys2Proof.Machine.execVsra ctx s
  | .vsplat ctx => Sys2Proof.Machine.execVsplat ctx s
  | .vext ctx => Sys2Proof.Machine.execVext ctx s
  | .vins ctx => Sys2Proof.Machine.execVins ctx s
  | .vperm ctx => Sys2Proof.Machine.execVperm ctx s
  | .valign ctx => Sys2Proof.Machine.execValign ctx s
  | .vredadd ctx => Sys2Proof.Machine.execVredadd ctx s
  | .vredmin ctx => Sys2Proof.Machine.execVredmin ctx s
  | .vredmax ctx => Sys2Proof.Machine.execVredmax ctx s
  | .vpack ctx => Sys2Proof.Machine.execVpack ctx s
  | .vcmpeq ctx => Sys2Proof.Machine.execVcmpeq ctx s
  | .vcmpne ctx => Sys2Proof.Machine.execVcmpne ctx s
  | .vcmplt ctx => Sys2Proof.Machine.execVcmplt ctx s
  | .vcmpltu ctx => Sys2Proof.Machine.execVcmpltu ctx s
  | .vcmple ctx => Sys2Proof.Machine.execVcmple ctx s
  | .vcmpleu ctx => Sys2Proof.Machine.execVcmpleu ctx s
  | .vmov ctx => Sys2Proof.Machine.execVmov ctx s
  | .pand ctx => Sys2Proof.Machine.execPand ctx s
  | .por ctx => Sys2Proof.Machine.execPor ctx s
  | .pxor ctx => Sys2Proof.Machine.execPxor ctx s
  | .pandn ctx => Sys2Proof.Machine.execPandn ctx s
  | .prange ctx => Sys2Proof.Machine.execPrange ctx s
  | .pcnt ctx => Sys2Proof.Machine.execPcnt ctx s
  | .pfirst ctx => Sys2Proof.Machine.execPfirst ctx s
  | .ptox ctx => Sys2Proof.Machine.execPtox ctx s
  | .xtop ctx => Sys2Proof.Machine.execXtop ctx s
  | .loop ctx => Sys2Proof.Machine.execLoop ctx s
  | .endloop ctx => Sys2Proof.Machine.execEndloop ctx s
  | .brk ctx => Sys2Proof.Machine.execBrk ctx s
  | .brknz ctx => Sys2Proof.Machine.execBrknz ctx s
  | .call ctx => Sys2Proof.Machine.execCall ctx s
  | .ret ctx => Sys2Proof.Machine.execRet ctx s
  | .aadd ctx => Sys2Proof.Machine.execAadd ctx s
  | .aand ctx => Sys2Proof.Machine.execAand ctx s
  | .aor ctx => Sys2Proof.Machine.execAor ctx s
  | .axor ctx => Sys2Proof.Machine.execAxor ctx s
  | .aminu ctx => Sys2Proof.Machine.execAminu ctx s
  | .amaxu ctx => Sys2Proof.Machine.execAmaxu ctx s
  | .axchg ctx => Sys2Proof.Machine.execAxchg ctx s
  | .acas ctx => Sys2Proof.Machine.execAcas ctx s
  | .vaadd ctx => Sys2Proof.Machine.execVaadd ctx s
  | .tongsSearch unit bad => Sys2Proof.Machine.execTongsSearch unit bad s
  | .tongsStep unit bad => Sys2Proof.Machine.execTongsStep unit bad s
  | .tongsEntryUpdate unit => Sys2Proof.Machine.execTongsEntryUpdate unit s
  | .tongsScrub unit bad => Sys2Proof.Machine.execTongsScrub unit bad s
  | .cxeContextPlace => Sys2Proof.Machine.execCxeContextPlace s
  | .cxeSegment inst => Sys2Proof.Machine.execCxeSegment inst s
  | .cxeJobEnd job => Sys2Proof.Machine.execCxeJobEnd job s
  | .engineEccRetire engine inst => Sys2Proof.Machine.execEngineEccRetire engine inst s
  | .dgeSegment inst => Sys2Proof.Machine.execDgeSegment inst s
  | .dgeStatePark ctx => Sys2Proof.Machine.execDgeStatePark ctx s
  | .aeeSegment inst first second => Sys2Proof.Machine.execAeeSegment inst first second s
  | .aeeJobEnd job => Sys2Proof.Machine.execAeeJobEnd job s
  | .contextBusError engine ctx => Sys2Proof.Machine.execContextBusError engine ctx s
  | .keyAlarm source => Sys2Proof.Machine.execKeyAlarm source s
  | .drbgReseed => Sys2Proof.Machine.execDrbgReseed s
  | .mxtKeyCacheMiss lane => Sys2Proof.Machine.execMxtKeyCacheMiss lane s
  | .threadCreate hearth level flow => Sys2Proof.Machine.execThreadCreate hearth level flow s
  | .threadDispatch ctx => Sys2Proof.Machine.execThreadDispatch ctx s
  | .threadPreempt hearth => Sys2Proof.Machine.execThreadPreempt hearth s
  | .threadWake thread => Sys2Proof.Machine.execThreadWake thread s
  | .flowRelease thread => Sys2Proof.Machine.execFlowRelease thread s
  | .orderedRelease thread => Sys2Proof.Machine.execOrderedRelease thread s
  | .threadCancel thread => Sys2Proof.Machine.execThreadCancel thread s
  | .drvTickBoundary hearth now => Sys2Proof.Machine.execDrvTickBoundary hearth now s
  | .delayEntryExpiry hearth => Sys2Proof.Machine.execDelayEntryExpiry hearth s
  | .flowModeChange hearth => Sys2Proof.Machine.execFlowModeChange hearth s
  | .nodeFiring ctx => Sys2Proof.Machine.execNodeFiring ctx s
  | .graphQuiescent ctx => Sys2Proof.Machine.execGraphQuiescent ctx s
  | .interruptSourceEvent bank id => Sys2Proof.Machine.execInterruptSourceEvent bank id s
  | .levelRequestWithdraw bank id => Sys2Proof.Machine.execLevelRequestWithdraw bank id s
  | .icuClaim bank => Sys2Proof.Machine.execIcuClaim bank s
  | .icuComplete bank id => Sys2Proof.Machine.execIcuComplete bank id s
  | .icuNudge nudge bank => Sys2Proof.Machine.execIcuNudge nudge bank s
  | .icuRaise id => Sys2Proof.Machine.execIcuRaise id s
  | .icuCommit => Sys2Proof.Machine.execIcuCommit s
  | .wakeWatcherFire => Sys2Proof.Machine.execWakeWatcherFire s
  | .flashReadInfo sector => Sys2Proof.Machine.execFlashReadInfo sector s
  | .flashProgram sector offset data => Sys2Proof.Machine.execFlashProgram sector offset data s
  | .flashErase sector => Sys2Proof.Machine.execFlashErase sector s
  | .flashSuspend ran => Sys2Proof.Machine.execFlashSuspend ran s
  | .flashResume us => Sys2Proof.Machine.execFlashResume us s
  | .flashStatus => Sys2Proof.Machine.execFlashStatus s
  | .flashReadCal offset len => Sys2Proof.Machine.execFlashReadCal offset len s
  | .flashOperationDone failed pulses us => Sys2Proof.Machine.execFlashOperationDone failed pulses us s
  | .flashAutoResume us => Sys2Proof.Machine.execFlashAutoResume us s
  | .flashOperationAbandoned unit => Sys2Proof.Machine.execFlashOperationAbandoned unit s
  | .codeFlashReadFault offset fetch ecc => Sys2Proof.Machine.execCodeFlashReadFault offset fetch ecc s
  | .xoUnlock fromRom => Sys2Proof.Machine.execXoUnlock fromRom s
  | .boot us => Sys2Proof.Machine.execBoot us s
  | .trialConfirm => Sys2Proof.Machine.execTrialConfirm s
  | .activationTimeout failed => Sys2Proof.Machine.execActivationTimeout failed s
  | .wdtKick key => Sys2Proof.Machine.execWdtKick key s
  | .wdtStage1Expiry => Sys2Proof.Machine.execWdtStage1Expiry s
  | .wdtStage2Expiry failed => Sys2Proof.Machine.execWdtStage2Expiry failed s
  | .wdtDeferredReset us failed => Sys2Proof.Machine.execWdtDeferredReset us failed s
  | .spdmGetVersion bus => Sys2Proof.Machine.execSpdmGetVersion bus s
  | .spdmGetCapabilities bus => Sys2Proof.Machine.execSpdmGetCapabilities bus s
  | .spdmNegotiateAlgorithms bus offered => Sys2Proof.Machine.execSpdmNegotiateAlgorithms bus offered s
  | .spdmGetDigests bus => Sys2Proof.Machine.execSpdmGetDigests bus s
  | .spdmGetCertificate bus slot offset len => Sys2Proof.Machine.execSpdmGetCertificate bus slot offset len s
  | .spdmChallenge bus slot => Sys2Proof.Machine.execSpdmChallenge bus slot s
  | .spdmGetMeasurements bus index signed => Sys2Proof.Machine.execSpdmGetMeasurements bus index signed s
  | .spdmKeyExchange bus ident => Sys2Proof.Machine.execSpdmKeyExchange bus ident s
  | .spdmFinish bus ok => Sys2Proof.Machine.execSpdmFinish bus ok s
  | .spdmHeartbeat bus => Sys2Proof.Machine.execSpdmHeartbeat bus s
  | .spdmKeyUpdate bus => Sys2Proof.Machine.execSpdmKeyUpdate bus s
  | .spdmEndSession bus => Sys2Proof.Machine.execSpdmEndSession bus s
  | .setEndpointId bus eid => Sys2Proof.Machine.execSetEndpointId bus eid s
  | .getEndpointId bus => Sys2Proof.Machine.execGetEndpointId bus s
  | .getMctpVersionSupport bus => Sys2Proof.Machine.execGetMctpVersionSupport bus s
  | .getMessageTypeSupport bus => Sys2Proof.Machine.execGetMessageTypeSupport bus s
  | .mctpMessageDiscarded len checkOk => Sys2Proof.Machine.execMctpMessageDiscarded len checkOk s
  | .readNvmeMiDataStructure bus slot dtype => Sys2Proof.Machine.execReadNvmeMiDataStructure bus slot dtype s
  | .nvmSubsystemHealthStatusPoll bus slot => Sys2Proof.Machine.execNvmSubsystemHealthStatusPoll bus slot s
  | .controllerHealthStatusPoll bus slot ctrl => Sys2Proof.Machine.execControllerHealthStatusPoll bus slot ctrl s
  | .configurationSet bus slot ident value => Sys2Proof.Machine.execConfigurationSet bus slot ident value s
  | .configurationGet bus slot ident => Sys2Proof.Machine.execConfigurationGet bus slot ident s
  | .vpdRead bus slot offset len => Sys2Proof.Machine.execVpdRead bus slot offset len s
  | .vpdWrite bus slot offset data => Sys2Proof.Machine.execVpdWrite bus slot offset data s
  | .nvmeMiReset bus slot failed => Sys2Proof.Machine.execNvmeMiReset bus slot failed s
  | .tunnelledAdminCommand bus slot opcode ctrl => Sys2Proof.Machine.execTunnelledAdminCommand bus slot opcode ctrl s
  | .recoveryImageWrite bus slot offset data => Sys2Proof.Machine.execRecoveryImageWrite bus slot offset data s
  | .recoveryCommit bus slot target cert profiles failed => Sys2Proof.Machine.execRecoveryCommit bus slot target cert profiles failed s
  | .miUnsupportedCommand bus slot => Sys2Proof.Machine.execMiUnsupportedCommand bus slot s
  | .miEndpointBusy bus slot => Sys2Proof.Machine.execMiEndpointBusy bus slot s
  | .i3cModeSwitch da => Sys2Proof.Machine.execI3cModeSwitch da s
  | .quiesceComplete unit => Sys2Proof.Machine.execQuiesceComplete unit s
  | .sleepEntry us => Sys2Proof.Machine.execSleepEntry us s
  | .deepAfterExpiry => Sys2Proof.Machine.execDeepAfterExpiry s
  | .wakeFromDormant crcOk us failed => Sys2Proof.Machine.execWakeFromDormant crcOk us failed s
  | .wakeFromDeep failed => Sys2Proof.Machine.execWakeFromDeep failed s
  | .coldStart failed => Sys2Proof.Machine.execColdStart failed s
  | .emberRailLoss rail => Sys2Proof.Machine.execEmberRailLoss rail s
  | .fastRailLoss rail => Sys2Proof.Machine.execFastRailLoss rail s
  | .supplyRestoredReset failed => Sys2Proof.Machine.execSupplyRestoredReset failed s
  | .supplyGlitch rail => Sys2Proof.Machine.execSupplyGlitch rail s
  | .xtalSwitch => Sys2Proof.Machine.execXtalSwitch s
  | .xtalFail => Sys2Proof.Machine.execXtalFail s
  | .thermalTrip tj sensor => Sys2Proof.Machine.execThermalTrip tj sensor s
  | .tripRecoveryReset tj failed => Sys2Proof.Machine.execTripRecoveryReset tj failed s
  | .deviceResetAbrupt causes failed => Sys2Proof.Machine.execDeviceResetAbrupt causes failed s
  | .deviceResetOrderly us => Sys2Proof.Machine.execDeviceResetOrderly us s
  | .powerCycle => Sys2Proof.Machine.execPowerCycle s
  | .threadEnd thread => Sys2Proof.Machine.execThreadEnd thread s
  | .coreUncorrectableError ctx => Sys2Proof.Machine.execCoreUncorrectableError ctx s
  | .deviceSelfTestComplete failedCore => Sys2Proof.Machine.execDeviceSelfTestComplete failedCore s
  | .smbusArp cmd addr udidOk => Sys2Proof.Machine.execSmbusArp cmd addr udidOk s

end Sys2Proof.Machine
end

