-- ==== Sys2Proof/Safety.lean ====
section
/-! DEFINITION. The words that the statements use: how a row answers, the commands and queues it needs, sound states. -/

namespace Sys2Proof.Machine

/-! ## How a row answers -/

/-- The device as a row finds it: the outputs of the row before it are gone. -/
def State.dev0 (s : State) : Dev := { s.dev with out := [] }

/-- The state with another device and the same queue of waiting rows. -/
def State.withDev (s : State) (d : Dev) : State := { s with dev := d }

/-- Row `i` completes wherever `h` holds of the device: exec answers a next state, in which the queue is as before and the
device is `e` of the device before. -/
def Does (i : Instr) (h : Dev → Prop) (e : Dev → Dev) : Prop :=
  ∀ s : State, h s.dev0 → exec i s = .next (s.withDev (e s.dev0))

/-- Row `i` completes wherever `h` holds of the device: exec answers a next state, in which the queue is as before and `p`
relates the device before to the device after. -/
def Makes (i : Instr) (h : Dev → Prop) (p : Dev → Dev → Prop) : Prop :=
  ∀ s : State, h s.dev0 → ∃ d, exec i s = .next (s.withDev d) ∧ p s.dev0 d

/-! ## Fetched commands -/

/-- A command stands fetched with its function's present epoch, its row has not been run, and nothing has been begun for
it. -/
def Dev.waits (d : Dev) (ref : CmdRef) : Prop := ∃ c, d.live ref = some c ∧ c.ran = false ∧ c.job = .plain

/-- Row `i` of a fetched command `ref` that has not run: where the command may run under `may`, and `h` holds once it counts
as run, the device becomes `e` of it. -/
def RunsCmd (may : Dev → CmdRef → Prop) (i : Instr) (ref : CmdRef) (h : Dev → Prop) (e : Dev → Dev) : Prop :=
  Does i (fun d => d.waits ref ∧ may d ref ∧ h (d.ran ref)) (fun d => e (d.ran ref))

/-- An I/O command may run: the device is NVMe ready and no Sanitize runs (R91, R421). -/
def Dev.ioMay (d : Dev) (_ : CmdRef) : Prop := d.nvm.ready = true ∧ d.nvm.sanitize = 0

/-- Every admin command may run. -/
def Dev.adminMay (_ : Dev) (_ : CmdRef) : Prop := True

/-- An admin command of PFs alone may run (R73, R93). -/
def Dev.pfMay (d : Dev) (ref : CmdRef) : Prop := d.isPf ref.fix = true

/-- An admin command that changes namespaces may run (R73, R91, R421). -/
def Dev.nsMay (d : Dev) (ref : CmdRef) : Prop := d.isPf ref.fix = true ∧ d.nvm.ready = true ∧ d.nvm.sanitize = 0

/-! ## Feresk -/

/-- The instruction at hand on a context is of opcode `op`, in instance `id` with state `c` and fields `f` (R263). -/
def Dev.at (d : Dev) (ctx op id : Nat) (c : Ctx) (f : Fw) : Prop := ∃ im, d.fetch ctx op = some (id, c, f, im)

/-- An instruction that ends with instance state `c`: it counts as retired (R279), and nothing else changes. -/
def Dev.leaves (d : Dev) (id : Nat) (c : Ctx) : Dev := d.setInst id c.retire

/-- Call `q` of service `n` is at hand on its context: an instance that has no end cause calls it (R242, R276). -/
def Dev.calls (d : Dev) (n : Nat) (q : Call) : Prop :=
  (∃ f im, d.fetch q.ctx 0x86 = some (q.w.id, q.c, f, im) ∧ f.imm = n) ∧ d.busyOf q.ctx = some q.th ∧
    d.wb q.w.id = some q.w ∧ q.w.state ≠ .ending

/-! ## Sound states -/

/-- The accumulator stays below its modulus and the epoch counts from 1 (R38). -/
def Clock.ok (c : Clock) : Prop := c.accum < 1000 ∧ 1 ≤ c.epoch

end Sys2Proof.Machine
end

