-- ==== Sys2Proof/Certificates/Slice0/Obligations.lean ====
section
/-! DEFINITION. The statements for the provers. Each is a claim over every state; `Does i h e` says that command `i`
completes wherever `h` holds of the device, with device `e` of the one before, and leaves the queue as it is. -/

open Sys2Proof Sys2Proof.Machine

/-! ## Feresk: scalar instructions -/

/-- R266: ADD, SUB, the bitwise operations, the minima and maxima, the shifts and comparisons write x[dst] from A =
x[srcA] and B, go on at PC + 8 and change nothing else. -/
def Obligations.ScalarArithmeticWritesDst : Prop :=
  ∀ (ctx id : Nat) (c : Ctx) (f : Fw),
    let A := c.getX f.a
    let B := c.opB f
    let row (i : Instr) (op : Nat) (v : BitVec 64) : Prop :=
      Does i (fun d => d.at ctx op id c f) (fun d => d.leaves id (c.setX f.dst v).next)
    row (.add ctx) 0x01 (A + B) ∧ row (.sub ctx) 0x02 (A - B) ∧ row (.and ctx) 0x03 (A &&& B) ∧
    row (.or ctx) 0x04 (A ||| B) ∧ row (.xor ctx) 0x05 (A ^^^ B) ∧ row (.andn ctx) 0x06 (A &&& ~~~B) ∧
    row (.min ctx) 0x07 (if A.toInt ≤ B.toInt then A else B) ∧ row (.max ctx) 0x08 (if A.toInt ≤ B.toInt then B else A) ∧
    row (.minu ctx) 0x09 (if A.toNat ≤ B.toNat then A else B) ∧ row (.maxu ctx) 0x0A (if A.toNat ≤ B.toNat then B else A) ∧
    row (.sll ctx) 0x0B (A <<< (B.toNat % 64)) ∧ row (.srl ctx) 0x0C (A >>> (B.toNat % 64)) ∧
    row (.sra ctx) 0x0D (A.sshiftRight (B.toNat % 64)) ∧ row (.ror ctx) 0x0E (A.rotateRight (B.toNat % 64)) ∧
    row (.slt ctx) 0x0F (if A.toInt < B.toInt then 1 else 0) ∧ row (.sltu ctx) 0x10 (if A.toNat < B.toNat then 1 else 0) ∧
    row (.seq ctx) 0x11 (if A = B then 1 else 0)

/-- R266, R267: products, quotients and remainders. A division by zero gives all ones, its remainder A; DIV and REM
truncate toward zero. -/
def Obligations.MultiplyDivideWriteDst : Prop :=
  ∀ (ctx id : Nat) (c : Ctx) (f : Fw),
    let A := c.getX f.a
    let B := c.opB f
    let row (i : Instr) (op : Nat) (v : BitVec 64) : Prop :=
      Does i (fun d => d.at ctx op id c f) (fun d => d.leaves id (c.setX f.dst v).next)
    row (.mul ctx) 0x12 (A * B) ∧
    row (.mulh ctx) 0x13 (BitVec.ofInt 64 (A.toInt * B.toInt / 2 ^ 64)) ∧
    row (.mulhu ctx) 0x14 (BitVec.ofNat 64 (A.toNat * B.toNat / 2 ^ 64)) ∧
    row (.div ctx) 0x15 (if B = 0 then BitVec.allOnes 64 else BitVec.ofInt 64 (A.toInt.tdiv B.toInt)) ∧
    row (.divu ctx) 0x16 (if B = 0 then BitVec.allOnes 64 else BitVec.ofNat 64 (A.toNat / B.toNat)) ∧
    row (.rem ctx) 0x17 (if B = 0 then A else BitVec.ofInt 64 (A.toInt.tmod B.toInt)) ∧
    row (.remu ctx) 0x18 (if B = 0 then A else BitVec.ofNat 64 (A.toNat % B.toNat)) ∧
    (A = BitVec.intMin 64 → B = BitVec.allOnes 64 →
      row (.div ctx) 0x15 (BitVec.intMin 64) ∧ row (.rem ctx) 0x17 0)

/-- R266: NOP changes nothing but PC; CLZ, CTZ, POPC, BSWAP, EXT, MOVI and MOVHI write x[dst]. -/
def Obligations.CountsAndMovesWriteDst : Prop :=
  ∀ (ctx id : Nat) (c : Ctx) (f : Fw),
    let A := c.getX f.a
    let row (i : Instr) (op : Nat) (x : Ctx) : Prop := Does i (fun d => d.at ctx op id c f) (fun d => d.leaves id x.next)
    let field := A.toNat / 2 ^ bitsOf f.imm 0 6 % 2 ^ bitsOf f.imm 8 7
    row (.nop ctx) 0x00 c ∧
    row (.clz ctx) 0x19 (c.setX f.dst
      (BitVec.ofNat 64 (((List.range 64).find? (fun i => A.getLsbD (63 - i))).getD 64))) ∧
    row (.ctz ctx) 0x1A (c.setX f.dst (BitVec.ofNat 64 (((List.range 64).find? (fun i => A.getLsbD i)).getD 64))) ∧
    row (.popc ctx) 0x1B (c.setX f.dst (BitVec.ofNat 64 ((List.range 64).countP (fun i => A.getLsbD i)))) ∧
    row (.bswap ctx) 0x1C (c.setX f.dst (BitVec.ofNat 64 (ofLe (leBytes 8 A.toNat).reverse))) ∧
    row (.ext ctx) 0x1D (c.setX f.dst (if f.sg = true ∧ field.testBit (bitsOf f.imm 8 7 - 1) = true
      then BitVec.ofInt 64 ((field : Int) - 2 ^ bitsOf f.imm 8 7) else BitVec.ofNat 64 field)) ∧
    row (.movi ctx) 0x1E (c.setX f.dst ((BitVec.ofNat 32 f.imm).signExtend 64)) ∧
    row (.movhi ctx) 0x1F (c.setX f.dst (BitVec.ofNat 64 ((c.getX f.dst).toNat % 2 ^ 32 + 2 ^ 32 * f.imm)))

/-- R268: a branch goes to PC + 8 × imm where its condition holds, else to PC + 8; no register changes. -/
def Obligations.BranchesMovePcOnly : Prop :=
  ∀ (ctx id : Nat) (c : Ctx) (f : Fw),
    let A := c.getX f.a
    let B := c.getX f.b
    let row (i : Instr) (op : Nat) (p : Prop) : Prop :=
      (p → Does i (fun d => d.at ctx op id c f) (fun d => d.leaves id { c with pc := c.pc + BitVec.ofNat 64 (8 * f.imm) })) ∧
      (¬p → Does i (fun d => d.at ctx op id c f) (fun d => d.leaves id { c with pc := c.pc + 8 }))
    row (.b ctx) 0x20 True ∧ row (.beq ctx) 0x21 (A = B) ∧ row (.bne ctx) 0x22 (A ≠ B) ∧
    row (.blt ctx) 0x23 (A.toInt < B.toInt) ∧ row (.bge ctx) 0x24 (B.toInt ≤ A.toInt) ∧
    row (.bltu ctx) 0x25 (A.toNat < B.toNat) ∧ row (.bgeu ctx) 0x26 (B.toNat ≤ A.toNat) ∧
    row (.bpany ctx) 0x27 ((c.getP f.a).mask ≠ 0) ∧ row (.bpnone ctx) 0x28 ((c.getP f.a).mask = 0)

/-! ## Feresk: vectors and predicates -/

/-- R271: a lane-by-lane operation writes the active lanes of v[dst] from the lanes of A and B, modulo the lane size;
putLanes zeroes or keeps the others. -/
def Obligations.VectorLanesWritten : Prop :=
  ∀ (ctx id : Nat) (c : Ctx) (f : Fw),
    let A (i : Nat) := laneOf f.esz (c.getV f.a) i
    let B (i : Nat) := c.laneB f i
    let w := 8 * 2 ^ f.esz
    let S (n : Nat) := laneInt f.esz n
    let row (i : Instr) (op : Nat) (g : Nat → Nat) : Prop :=
      Does i (fun d => d.at ctx op id c f) (fun d => d.leaves id (c.putLanes f g).next)
    row (.vadd ctx) 0x50 (fun i => A i + B i) ∧ row (.vsub ctx) 0x51 (fun i => A i + (2 ^ w - B i)) ∧
    row (.vand ctx) 0x52 (fun i => A i &&& B i) ∧ row (.vor ctx) 0x53 (fun i => A i ||| B i) ∧
    row (.vxor ctx) 0x54 (fun i => A i ^^^ B i) ∧ row (.vandn ctx) 0x55 (fun i => A i &&& (2 ^ w - 1 - B i)) ∧
    row (.vmin ctx) 0x56 (fun i => if S (A i) ≤ S (B i) then A i else B i) ∧
    row (.vmax ctx) 0x57 (fun i => if S (A i) ≤ S (B i) then B i else A i) ∧
    row (.vminu ctx) 0x58 (fun i => min (A i) (B i)) ∧ row (.vmaxu ctx) 0x59 (fun i => max (A i) (B i)) ∧
    row (.vmul ctx) 0x5A (fun i => A i * B i) ∧ row (.vsll ctx) 0x5B (fun i => A i * 2 ^ (B i % w)) ∧
    row (.vsrl ctx) 0x5C (fun i => A i / 2 ^ (B i % w)) ∧
    row (.vsra ctx) 0x5D (fun i => (S (A i) / 2 ^ (B i % w) % 2 ^ w).toNat) ∧
    row (.vmov ctx) 0x6F (fun i => if f.idx = true then B i else A i) ∧
    row (.vsplat ctx) 0x60 (fun _ => (c.getX f.a).toNat)

/-- R271: a comparison writes p[dst] at its lane size, with inactive lanes clear. -/
def Obligations.VectorComparesWritePredicate : Prop :=
  ∀ (ctx id : Nat) (c : Ctx) (f : Fw),
    let A (i : Nat) := laneOf f.esz (c.getV f.a) i
    let B (i : Nat) := c.laneB f i
    let S (n : Nat) := laneInt f.esz n
    let row (i : Instr) (op : Nat) (g : Nat → Bool) : Prop :=
      Does i (fun d => d.at ctx op id c f)
        (fun d => d.leaves id (c.setP f.dst (Pred.of f.esz (fun i => c.activeLane f i && g i))).next)
    row (.vcmpeq ctx) 0x69 (fun i => decide (A i = B i)) ∧ row (.vcmpne ctx) 0x6A (fun i => decide (A i ≠ B i)) ∧
    row (.vcmplt ctx) 0x6B (fun i => decide (S (A i) < S (B i))) ∧ row (.vcmpltu ctx) 0x6C (fun i => decide (A i < B i)) ∧
    row (.vcmple ctx) 0x6D (fun i => decide (S (A i) ≤ S (B i))) ∧ row (.vcmpleu ctx) 0x6E (fun i => decide (A i ≤ B i))

/-- R271: VEXT, VINS, VPERM, VALIGN, VPACK and the reductions. -/
def Obligations.VectorRearranges : Prop :=
  ∀ (ctx id : Nat) (c : Ctx) (f : Fw),
    let A (i : Nat) := laneOf f.esz (c.getV f.a) i
    let value (i : Nat) : Int := if f.sg = true then laneInt f.esz (A i) else A i
    let w := 8 * 2 ^ f.esz
    let lanes := List.range (laneCount f.esz)
    let row (i : Instr) (op : Nat) (x : Ctx) : Prop := Does i (fun d => d.at ctx op id c f) (fun d => d.leaves id x.next)
    row (.vext ctx) 0x61 (c.setX f.dst (extLane f.esz f.sg (A f.imm))) ∧
    row (.vins ctx) 0x62 (c.setV f.dst (ofLanes f.esz (lanes.map (fun i =>
      if i = f.imm then (c.getX f.a).toNat else laneOf f.esz (c.getV f.dst) i)))) ∧
    row (.vperm ctx) 0x63 (c.setV f.dst (ofLanes 0 ((List.range 64).map (fun i =>
      laneOf 0 (c.getV f.a) (laneOf 0 (c.getV f.b) i % 64))))) ∧
    row (.valign ctx) 0x64 (c.setV f.dst (BitVec.ofNat 512
      (((c.getV f.a).toNat + (c.getV f.b).toNat * 2 ^ 512) / 2 ^ (8 * f.imm)))) ∧
    row (.vpack ctx) 0x68 (c.setV f.dst (ofLanes f.esz ((c.activeLanes f).map A))) ∧
    row (.vredadd ctx) 0x65 (c.setX f.dst (BitVec.ofInt 64 ((c.activeLanes f).map value).sum)) ∧
    row (.vredmin ctx) 0x66 (c.setX f.dst (BitVec.ofInt 64 (((c.activeLanes f).map value).foldl min
      (if f.sg = true then 2 ^ (w - 1) - 1 else 2 ^ w - 1)))) ∧
    row (.vredmax ctx) 0x67 (c.setX f.dst (BitVec.ofInt 64 (((c.activeLanes f).map value).foldl max
      (if f.sg = true then -2 ^ (w - 1) else 0))))

/-- R272: operations on predicates; two predicates meet at the smaller of their lane sizes. -/
def Obligations.PredicateInstructions : Prop :=
  ∀ (ctx id : Nat) (c : Ctx) (f : Fw),
    let P := c.getP f.a
    let Q := c.getP f.b
    let z := min P.psz Q.psz
    let n := laneCount f.esz
    let row (i : Instr) (op : Nat) (x : Ctx) : Prop := Does i (fun d => d.at ctx op id c f) (fun d => d.leaves id x.next)
    let two (g : Bool → Bool → Bool) : Ctx := c.setP f.dst (Pred.of z (fun i => g (P.bitAt z i) (Q.bitAt z i)))
    row (.pand ctx) 0x70 (two (fun a b => a && b)) ∧ row (.por ctx) 0x71 (two (fun a b => a || b)) ∧
    row (.pxor ctx) 0x72 (two (fun a b => a ^^ b)) ∧ row (.pandn ctx) 0x73 (two (fun a b => a && !b)) ∧
    row (.prange ctx) 0x74 (c.setP f.dst (Pred.of f.esz (fun i => decide (i < (c.getX f.a).toNat)))) ∧
    row (.pcnt ctx) 0x75 (c.setX f.dst (BitVec.ofNat 64 ((List.range n).countP (P.bitAt f.esz)))) ∧
    row (.pfirst ctx) 0x76 (c.setX f.dst (BitVec.ofNat 64 (((List.range n).find? (P.bitAt f.esz)).getD n))) ∧
    row (.ptox ctx) 0x77 (c.setX f.dst (BitVec.ofNat 64 (ofBits ((List.range n).map (P.bitAt f.esz))))) ∧
    row (.xtop ctx) 0x78 (c.setP f.dst (Pred.of f.esz (fun i => (c.getX f.a).getLsbD i)))

/-! ## Feresk: memory -/

/-- R269, R270: a load or store whose (active) bytes are wholly valid writes x[dst] or v[dst], or the bytes stored;
one with an invalid byte writes nothing and ends the instance with cause code 1 at its address. -/
def Obligations.LoadsAndStores : Prop :=
  ∀ (ctx id : Nat) (c : Ctx) (f : Fw),
    let n := 2 ^ f.esz
    let on := c.activeLanes f
    let row (i : Instr) (op : Nat) (ok : Prop) (x : Ctx) : Prop :=
      (ok → Does i (fun d => d.at ctx op id c f) (fun d => d.leaves id x.next)) ∧
      (¬ok → Does i (fun d => d.at ctx op id c f) (fun d => d.faultInstance id 1 c.pc.toNat))
    let scaled := ((c.getX f.a + f.val) + if f.idx = true then c.getX f.b <<< f.esz else 0).toNat
    let plain := ((c.getX f.a + f.val) + if f.idx = true then c.getX f.b else 0).toNat
    let lane (i : Nat) := ((c.getX f.a + f.val) + BitVec.ofNat 64 (laneOf f.esz (c.getV f.b) i)).toNat
    let vload (i : Instr) (op : Nat) (addr : Nat → Nat) : Prop :=
      row i op (∀ k ∈ on, c.valid (addr k) n false = true)
        (on.foldl (fun r k => if r.free = c.free then r.draw (addr k) n else r)
          (c.putLanes f (fun k => ofLe (c.readBytes (addr k) n))))
    let vstore (i : Instr) (op : Nat) (addr : Nat → Nat) : Prop :=
      row i op (∀ k ∈ on, c.valid (addr k) n true = true)
        (on.foldl (fun r k => r.store (addr k) (leBytes n (laneOf f.esz (c.getV f.dst) k))) c)
    row (.ld ctx) 0x30 (c.valid scaled n false = true)
      ((c.setX f.dst (extLane f.esz f.sg (ofLe (c.readBytes scaled n)))).draw scaled n) ∧
    row (.st ctx) 0x31 (c.valid scaled n true = true) (c.store scaled (leBytes n (c.getX f.dst).toNat)) ∧
    vload (.vld ctx) 0x40 (fun k => plain + n * k) ∧ vload (.vldb ctx) 0x44 (fun _ => plain) ∧
    vload (.vgather ctx) 0x42 lane ∧
    vstore (.vst ctx) 0x41 (fun k => plain + n * k) ∧ vstore (.vscatter ctx) 0x43 lane

/-- R275: an atomic on an aligned valid word stores the new value and puts the old one, zero-extended, in x[dst]; a
word that is not aligned has cause code 2, an invalid one cause code 1, and neither writes anything. -/
def Obligations.AtomicsReadModifyWrite : Prop :=
  ∀ (ctx id : Nat) (c : Ctx) (f : Fw),
    let n := 2 ^ f.esz
    let a := (c.getX f.a + f.val).toNat
    let old := ofLe (c.readBytes a n)
    let B := (c.getX f.b).toNat % 2 ^ (8 * n)
    let row (i : Instr) (op new : Nat) : Prop :=
      (a % n = 0 → c.valid a n true = true → Does i (fun d => d.at ctx op id c f) (fun d =>
        d.leaves id ((((c.draw a n).store a (leBytes n new)).setX f.dst (BitVec.ofNat 64 old)).next))) ∧
      (a % n ≠ 0 → Does i (fun d => d.at ctx op id c f) (fun d => d.faultInstance id 2 c.pc.toNat)) ∧
      (a % n = 0 → c.valid a n true = false →
        Does i (fun d => d.at ctx op id c f) (fun d => d.faultInstance id 1 c.pc.toNat))
    row (.aadd ctx) 0x90 (old + B) ∧ row (.aand ctx) 0x91 (old &&& B) ∧ row (.aor ctx) 0x92 (old ||| B) ∧
    row (.axor ctx) 0x93 (old ^^^ B) ∧ row (.aminu ctx) 0x94 (min old B) ∧ row (.amaxu ctx) 0x95 (max old B) ∧
    row (.axchg ctx) 0x96 B ∧
    row (.acas ctx) 0x97 (if old = (c.getX f.dst).toNat % 2 ^ (8 * n) then B else old) ∧
    ((∀ k ∈ c.activeLanes f, c.laneAddr f k % n = 0 ∧ c.valid (c.laneAddr f k) n true = true) →
      Does (.vaadd ctx) (fun d => d.at ctx 0x98 id c f) (fun d => d.leaves id (((c.activeLanes f).foldl (fun r k =>
        (r.draw (c.laneAddr f k) n).store (c.laneAddr f k)
          (leBytes n (ofLe (r.readBytes (c.laneAddr f k) n) + laneOf f.esz (c.getV f.dst) k))) c).next))) ∧
    (∀ code, (c.activeLanes f).findSome? (fun k => if c.laneAddr f k % n ≠ 0 then some 2
        else if c.valid (c.laneAddr f k) n true = true then none else some 1) = some code →
      Does (.vaadd ctx) (fun d => d.at ctx 0x98 id c f) (fun d => d.faultInstance id code c.pc.toNat))

/-! ## Feresk: loops, calls and graphs -/

/-- R273, R274: LOOP opens a loop or skips one of 0 trips; ENDLOOP goes back or closes it; BRK and BRKNZ leave it;
CALL and RET use the return stack; ENDLOOP and BRK outside a loop, and RET with an empty stack outside a firing, end
the instance with cause code 4. -/
def Obligations.LoopsAndCalls : Prop :=
  ∀ (ctx id : Nat) (c : Ctx) (f : Fw) (im : Image),
    let here (op : Nat) (d : Dev) : Prop := d.fetch ctx op = some (id, c, f, im)
    let row (i : Instr) (op : Nat) (x : Ctx) : Prop := Does i (here op) (fun d => d.leaves id x)
    let bad (i : Instr) (op addr : Nat) : Prop := Does i (here op) (fun d => d.faultInstance id 4 addr)
    let trips := if f.sg = true then f.imm + 1 else min (c.getX f.a).toNat (f.imm + 1)
    let after := codeAddr (loopExit im.code (im.code.length / 8) (c.pc.toNat - 0x10000000000 + 8) 0)
    (trips = 0 → row (.loop ctx) 0x80 { c with pc := after }) ∧
    (0 < trips → row (.loop ctx) 0x80 (({ c with loops :=
      { body := c.pc + 8, exit := after, left := trips, trips := trips, reg := f.dst } :: c.loops }.setX f.dst 0).next)) ∧
    (∀ e t, c.loops = e :: t →
      (1 < e.left → row (.endloop ctx) 0x81 { c.setX e.reg (BitVec.ofNat 64 (e.trips - (e.left - 1))) with
        pc := e.body, loops := { e with left := e.left - 1 } :: t }) ∧
      (e.left ≤ 1 → row (.endloop ctx) 0x81 { c.setX e.reg (BitVec.ofNat 64 (e.trips - 1)) with
        pc := c.pc + 8, loops := t }) ∧
      row (.brk ctx) 0x82 { c with pc := e.exit, loops := t } ∧
      (c.getX f.a ≠ 0 → row (.brknz ctx) 0x83 { c with pc := e.exit, loops := t })) ∧
    (c.getX f.a = 0 → row (.brknz ctx) 0x83 c.next) ∧
    (c.loops = [] → bad (.endloop ctx) 0x81 c.pc.toNat ∧ bad (.brk ctx) 0x82 c.pc.toNat ∧
      (c.getX f.a ≠ 0 → bad (.brknz ctx) 0x83 c.pc.toNat)) ∧
    row (.call ctx) 0x84 { c with pc := codeAddr f.imm, ret := (c.pc + 8) :: c.ret } ∧
    (∀ a t, c.ret = a :: t → row (.ret ctx) 0x85 { c with pc := a, ret := t }) ∧
    (c.ret = [] → c.firing = none → bad (.ret ctx) 0x85 0)

/-- R274, R361, R363: the ready node of the lowest number fires, with x1 its number and both stacks empty; with no
node ready the entry function runs with x1 all ones; a firing's RET gives the output edges their tokens. The checks of
the tokens hold here. -/
def Obligations.GraphFirings : Prop :=
  ∀ (ctx id n : Nat) (c : Ctx) (im : Image),
    let idle (d : Dev) : Prop :=
      d.instOn ctx = some id ∧ d.inst id = some c ∧ (d.wb id).bind (fun w => d.image w.slot) = some im ∧
        im.graph = true ∧ c.firing = none ∧ c.quiescent = false ∧ c.block = .none
    ((c.readyNode im = some n ∧ (c.fire im n).tokensGood im = true) →
      Does (.nodeFiring ctx) (fun d => idle d ∧ ∃ w, d.wb id = some w ∧ w.state ≠ .ending) (fun d =>
        ({ d with drv := { d.drv with firings := d.drv.firings + 1 } }).setInst id (c.fire im n))) ∧
    (c.readyNode im = none → Does (.graphQuiescent ctx) idle (fun d =>
      d.setInst id { c.setX 1 (BitVec.allOnes 64) with pc := codeAddr im.entry, quiescent := true })) ∧
    (∀ f : Fw, c.ret = [] → c.firing = some n →
      let x : Ctx := { (im.outOf n).foldl Ctx.giveToken c with firing := none }
      x.retire.tokensGood im = true →
      Does (.ret ctx) (fun d => d.fetch ctx 0x85 = some (id, c, f, im)) (fun d => d.leaves id x))

/-! ## Feresk: service calls -/

/-- R252, R253, R257: yield, delay, wait, log record and exit. -/
def Obligations.ShortServices : Prop :=
  ∀ q : Call,
    let id := q.w.id
    let n := q.c.arg 3
    let us2 := q.c.arg 2
    let row (i : Instr) (no : Nat) (h : Dev → Prop) (e : Dev → Dev) : Prop := Does i (fun d => d.calls no q ∧ h d) e
    let refused (i : Instr) (no : Nat) (h : Dev → Prop) (status : Nat) : Prop := row i no h (fun d => d.svcRet q status)
    row (.svcYield q.ctx) 0 (fun _ => True) (fun d => ((d.svcRet q 0).blockThread q.th).enqueue q.th false (.wake q.th)) ∧
    row (.svcProgramExit q.ctx) 9 (fun _ => True) (fun d => (d.modWb id (fun w =>
      { w with state := .ending, cause := some 0, exitCode := q.c.arg 2 % 2 ^ 32 })).stopInstance id) ∧
    refused (.svcDelay q.ctx) 6 (fun _ => us2 = 0 ∨ 60000000 < us2) 3 ∧
    row (.svcDelay q.ctx) 6 (fun _ => 1 ≤ us2 ∧ us2 ≤ 60000000) (fun d =>
      ((d.takeDelay q.th us2 false).getD d).svcWait q .delay) ∧
    refused (.svcLogRecord q.ctx) 8 (fun _ => n = 0 ∨ 240 < n) 3 ∧
    row (.svcLogRecord q.ctx) 8 (fun _ => 1 ≤ n ∧ n ≤ 240 ∧ q.c.valid us2 n false = false) (fun d => d.svcFault q) ∧
    row (.svcLogRecord q.ctx) 8 (fun d => 1 ≤ n ∧ n ≤ 240 ∧ q.c.valid us2 n false = true ∧ d.tf 8 0x23 1 ≤ q.w.logs)
      (fun d => ({ d with hrt := { d.hrt with logDropped := satAdd 32 d.hrt.logDropped 1 } }).svcRet q 10) ∧
    row (.svcLogRecord q.ctx) 8 (fun d => 1 ≤ n ∧ n ≤ 240 ∧ q.c.valid us2 n false = true ∧ q.w.logs < d.tf 8 0x23 1)
      (fun d => (((d.log 0x0202 noUnit (fields [(2, q.w.ref.fix), (4, q.w.handle), (8, q.w.epoch), (1, n)] ++
        q.c.readBytes us2 n)).modWb id (fun w => { w with logs := w.logs + 1 })).modInst id
          (fun c => c.draw us2 n)).svcRet q 0) ∧
    refused (.svcWaitTimeout q.ctx) 7 (fun _ => 4 < us2 ∨ 60000000 < n ∨ q.c.outstanding us2 = false) 3 ∧
    (us2 ≤ 4 → n ≤ 60000000 → q.c.outstanding us2 = true →
      (∀ x, q.c.endedTicket us2 = some x → row (.svcWaitTimeout q.ctx) 7 (fun _ => True)
        (fun d => d.modInst id (fun c => c.takeTicket x Ctx.svcDone))) ∧
      (q.c.endedTicket us2 = none → n = 0 → row (.svcWaitTimeout q.ctx) 7 (fun _ => True)
        (fun d => d.modInst id (fun c => c.timedOut Ctx.svcDone))) ∧
      (q.c.endedTicket us2 = none → 1 ≤ n → row (.svcWaitTimeout q.ctx) 7 (fun _ => True) (fun d =>
        (if (d.dh (d.thread q.th).hearth).timerModeA = 0 then d else (d.takeDelay q.th n true).getD d).svcWait q
          (.wait us2))))

/-- R247, R248, R249: the next input chunk is mapped, or the end of the input is reported, or the call waits; an emit hands
its buffer over and returns once a fresh buffer stands; one that has ended its instance stops it at the call. -/
def Obligations.InputAndOutputServices : Prop :=
  ∀ q : Call,
    let id := q.w.id
    let len := q.c.arg 2
    let row (i : Instr) (no : Nat) (h : Dev → Prop) (e : Dev → Dev) : Prop := Does i (fun d => d.calls no q ∧ h d) e
    let back (d : Dev) : Dev := match q.w.cur with
      | some i => (d.dropBuf i).modWb id (fun w => { w with cur := none })
      | none => d
    let out (d : Dev) : Dev := d.emitOut id len (q.w.emitAt q.c)
    let after (d : Dev) : Option Dev :=
      let e := out d
      if ((e.wb id).bind (fun w => w.outBuf)).isSome then some e else e.freshOut id
    (∀ i t, q.w.ready = i :: t → row (.svcNextInput q.ctx) 1 (fun _ => True) (fun d => (back d).mapChunk id i Ctx.svcDone)) ∧
    (q.w.ready = [] → row (.svcNextInput q.ctx) 1 (fun d => q.c.endOfInput = true ∨ (back d).inputDone q.w = true)
      (fun d => (back d).noInput id Ctx.svcDone)) ∧
    (q.w.ready = [] → row (.svcNextInput q.ctx) 1 (fun d => q.c.endOfInput = false ∧ (back d).inputDone q.w = false)
      (fun d => (((back d).modInst id (fun c => { c with w0 := [] })).svcWait q .input).feed id)) ∧
    row (.svcEmitOutput q.ctx) 2 (fun _ => 65536 < len) (fun d => d.svcRet q 3) ∧
    row (.svcEmitOutput q.ctx) 2 (fun _ => len = 0) (fun d => d.svcRet q 0 (fun c => c.res 2 q.w.bytesOut)) ∧
    (1 ≤ len → len ≤ 65536 → q.w.outBuf.isSome = true →
      row (.svcEmitOutput q.ctx) 2 (fun d => fullStop (out d) id = true) (fun d => (out d).stopInstance id) ∧
      (∀ x, row (.svcEmitOutput q.ctx) 2 (fun d => fullStop (out d) id = false ∧ after d = some x)
        (fun _ => x.svcRet q 0 (fun c => c.res 2 (x.bytesOut id)))) ∧
      row (.svcEmitOutput q.ctx) 2 (fun d => fullStop (out d) id = false ∧ after d = none) (fun d =>
        (out d).svcWait q .output)) ∧
    (1 ≤ len → len ≤ 65536 → q.w.outBuf = none →
      row (.svcEmitOutput q.ctx) 2 (fun d => d.freshOut id = none) (fun d => d.svcWait q .emit))

/-- R254, R255, R303, R305: an accepted call of service 3, 4 or 5 hands its operation to the Tongs unit or the engine
with a ticket; an asynchronous one returns the ticket, any other blocks. -/
def Obligations.EngineServices : Prop :=
  ∀ (q : Call) (no : Nat),
    let c := q.c
    let src := c.arg 3
    let n := c.arg 4
    let cap := c.arg 6
    let x2 := c.arg 2
    let row (i : Instr) (k : Nat) (h : Dev → Prop) (e : Dev → Dev) : Prop := Does i (fun d => d.calls k q ∧ h d) e
    let cxe (i : Instr) (op : Nat) : Prop :=
      row i 5 (fun d => b2n (bit x2 0) = op ∧ (op = 0 → 1 ≤ bitsOf x2 4 4 ∧ bitsOf x2 4 4 ≤ 12) ∧ n ≤ 2 ^ 26 ∧ cap ≤ 2 ^ 26 ∧
        ¬(src < c.arg 5 + cap ∧ c.arg 5 < src + n) ∧ c.valid src n false = true ∧ c.valid (c.arg 5) cap true = true ∧
        c.newTicket (bit (c.arg 7) 0) = some no ∧ d.aliveEngs 0 ≠ [])
      (fun d =>
        let r := d.request 25 q.w.ref.fix 1 (.waybill q.w.id)
        let j : CJob := { op := op, level := if op = 0 then bitsOf x2 4 4 else 0, ticket := no, fix := q.w.ref.fix
                          epoch := q.w.epoch % 65536, caller := q.ctx, wb := q.w.id, state := b2n r.2, src := c.getX 3
                          srcLen := n, dst := c.getX 5, dstCap := cap }
        ({ r.1 with cxe := { r.1.cxe with waiting := r.1.cxe.waiting ++ [j] } }).startOp q
          { no := no, svc := 5, src := src, srcLen := n, dst := c.arg 5, dstLen := cap })
    cxe (.svcCompress q.ctx) 0 ∧ cxe (.svcDecompress q.ctx) 1 ∧
    row (.svcTongsQuery q.ctx) 3 (fun d => x2 < 16 ∧ 1 ≤ n ∧ n ≤ 4096 ∧ cap = 0 ∧ c.valid src (32 * n) false = true ∧
        c.valid (c.arg 5) (16 * n) true = true ∧ (d.tu x2).fix = some q.w.ref.fix ∧ (d.tu x2).releasing = false ∧
        c.newTicket (bit (c.arg 7) 0) = some no ∧ d.canIssue 24 0 1 = true)
      (fun d => ((d.issue 24 0 1).modTu x2 (fun u => { u with searches := u.searches ++ [{
          caller := q.ctx, wb := q.w.id, ticket := no, asked := n, stepping := false, limit := 0, dest := c.getX 5
          keys := (List.range n).map (fun i => BitVec.ofNat 160 (c.readVal (src + 32 * i) 20)) }] })).startOp q
        { no := no, svc := 3, src := src, srcLen := 32 * n, dst := c.arg 5, dstLen := 16 * n }) ∧
    row (.svcDigest q.ctx true) 4 (fun d => c.digesting = false ∧ n ≤ 2 ^ 26 ∧ bitsOf x2 0 4 < 4 ∧ bit x2 8 = true ∧
        bit x2 9 = false ∧ c.valid src n false = true ∧ d.key.locked = false ∧ c.newTicket (bit (c.arg 7) 0) = some no ∧
        d.aliveEngs 1 ≠ [])
      (fun d =>
        let e := d.modDigest q.w.id (fun _ => some { alg := bitsOf x2 0 4 })
        let r := e.request 26 q.w.ref.fix 1 (.waybill q.w.id)
        let j : DCtx := { alg := bitsOf x2 0 4, state := b2n r.2, fix := q.w.ref.fix, epoch := q.w.epoch % 65536
                          caller := q.ctx, wb := q.w.id, ticket := no, src := c.getX 3, len := n, dst := c.getX 5
                          final := false, keyed := false, opened := true }
        (({ r.1 with dge := { r.1.dge with waiting := r.1.dge.waiting ++ [j] } }).placeDge).startOp q
          { no := no, svc := 4, src := src, srcLen := n, dst := c.arg 5, dstLen := 0 })

/-! ## Instances -/

/-- R236, R243: the units of an admitted Waybill are requested together; with all of them and its image read, the
instance starts on the owner Hearth of the most free contexts with the start values of R240, and its reads begin. -/
def Obligations.WaybillStarts : Prop :=
  ∀ (wb n h : Nat) (w : Waybill) (im : Image),
    let who := Waiter.waybill wb
    let fix := w.ref.fix
    Does (.waybillAdmitted wb) (fun d => d.wb wb = some w ∧ d.image w.slot = some im ∧ w.state = .admitting ∧ 20 ∈ w.got)
      (fun d =>
        let a := d.request 21 fix 1 who
        let b := a.1.request 22 fix im.scratch who
        let c := b.1.request 17 fix 1 who
        c.1.modWb wb (fun w => { w with
          state := .waiting
          got := [20] ++ (if a.2 = true then [21] else []) ++ (if b.2 = true then [22] else []) ++
            (if c.2 = true then [17] else []) })) ∧
    Does (.imageFetch w.slot) (fun d => (∃ x ∈ d.hrt.wbs, x.slot = w.slot ∧ x.state = .waiting) ∧ d.image w.slot = some im ∧
        im.fetched = false ∧ d.canRead (pgaDie im.pga) (pgaBlock im.pga) = true)
      (fun d => (d.readPages (pgaDie im.pga) (pgaBlock im.pga) im.pages (4 * im.pages)).modImage w.slot (fun im => { im with fetched := true })) ∧
    Does (.instanceStart wb) (fun d => d.wb wb = some w ∧ d.image w.slot = some im ∧ im.fetched = true ∧
        w.state = .waiting ∧ 17 ∈ w.got ∧ 21 ∈ w.got ∧ 22 ∈ w.got ∧ d.startHearth = some h ∧ d.freeThread = some n ∧
        d.readyFull h = false)
      (fun d =>
        let e := d.modDh h (fun q => { q with held := q.held.filter (fun x => decide (x ≠ Held.start wb)) })
        let e := e.modThread n (fun _ =>
          { hearth := h, level := e.tf 8 0x22 1, fix := some fix, epoch := w.epoch % 65536, wb := some wb })
        let e := (e.place' n false).setInst wb (startCtx w im)
        let out := e.takeBuf { owner := .control, wb := wb, kind := 2 }
        let e := (out.map (·.1)).getD e
        let e := e.modWb wb (fun w => { w with state := .running, startTick := e.clk.ticks, outBuf := out.map (·.2) })
        let e := e.modCmd w.ref (fun c => { c with started := true })
        ({ e with hrt := { e.hrt with started := e.hrt.started + 1 } }).feed wb)

/-- R129, R130, R242, R244, R246, R253, R258, R277: the events of a running instance and its end. -/
def Obligations.WaybillRunsAndEnds : Prop :=
  ∀ (wb : Nat) (w : Waybill),
    let have' (d : Dev) : Prop := d.wb wb = some w
    -- a chunk that is complete is handed over in a buffer
    (∀ i e, Does (.handoffDelivery wb) (fun d =>
        let l := d.divertReads wb
        let total := d.inputLen w.extents
        let hi := min (w.pos + 65536) total
        have' d ∧ w.state = .running ∧ w.ready.length + (if w.cur.isSome = true then 1 else 0) < 2 ∧ w.pos < total ∧
          hi ≤ readyTo l w.pos ∧
          d.nextBuf w { owner := .control, wb := wb, kind := 1, bytes := inputBytes l w.pos hi
                        extent := (d.extentOf w.extents w.pos).1, offset := (d.extentOf w.extents w.pos).2 } = some (e, i))
      (fun d =>
        let l := d.divertReads wb
        let hi := min (w.pos + 65536) (d.inputLen w.extents)
        let e := e.forEach l (fun d g => d.passGranule wb hi g)
        ((e.modWb wb (fun w => { w with
          pos := hi, ready := w.ready ++ [i], bytesIn := hi
          lastExtent := (e.extentOf w.extents (hi - 1)).1 })).emit (.doorbell 0)).feed wb)) ∧
    -- a failing verdict taints the result, ends the instance with SIZE_MISMATCH or MEDIA_UNRECOVERED, and queues a repair
    (∀ id out size t x, w.verdicts.find? (fun v => v.1 = id) = some (id, out, some (size, t, x)) →
      Does (.checkVerdictFinal wb id) have' (fun d =>
        (((d.modWb wb (fun w => { w with verdicts := w.verdicts.filter (fun v => v.1 ≠ id) })).taint wb
          (if size = true then 3 else 6) out).endCause wb (if size = true then 3 else 6)).startRepair t x)) ∧
    -- a good verdict only goes
    (∀ id out, w.verdicts.find? (fun v => v.1 = id) = some (id, out, none) →
      Does (.checkVerdictFinal wb id) have' (fun d =>
        d.modWb wb (fun w => { w with verdicts := w.verdicts.filter (fun v => v.1 ≠ id) }))) ∧
    Does (.segmentBoundary wb) (fun d => have' d ∧ d.wbRuns wb = true ∧ w.state ≠ .ending)
      (fun d => d.modInst wb (fun c => { c with retired := 0, boundary := false })) ∧
    Does (.segmentBoundary wb) (fun d => have' d ∧ d.wbRuns wb = true ∧ w.state = .ending) (fun d => d.stopInstance wb) ∧
    Does (.timeLimitExpiry wb) (fun d => have' d ∧ w.overtime = true) (fun d => d.endCause wb 2) ∧
    (∀ no t, Does (.asyncOperationEnd wb no) (fun d => (d.inst wb).bind (fun c => c.ticket no) = some t ∧
        t.unitDone = true ∧ t.ended = false ∧ 1 ≤ no)
      (fun d => d.modInst wb (fun c => { c.spoil t with
        tickets := mapWhere (c.spoil t).tickets (fun x => x.no = no) (fun x => { x with ended := true }) }))) ∧
    Does (.instanceEnd wb) (fun d => have' d ∧ w.state = .ending ∧ d.inst wb = none ∧ w.verdicts = [] ∧ w.lent = [])
      (fun d =>
        let d := (d.dropInput wb).dropScratch w
        let d := match w.outBuf with
          | some i => d.dropBuf i
          | none => d
        let d := if w.epoch = (d.fn w.ref.fix).epoch then d.emit (.hostWrite w.ref.fix w.resultAddr w.record) else d
        let d := { d with hrt := { d.hrt with ends := fmod d.hrt.ends 0 w.status (· + 1) } }
        ((d.giveBack 20 w.ref.fix 1).dropWb wb).complete w.ref (if w.byAbort = true then .abortRequested else .success)) ∧
    (∀ h, Does (.hearthDrainComplete h) (fun d => d.hearthRole h = 2 ∧ d.instancesOn h = 0) (fun d =>
      ({ d with hrt := { d.hrt with hearths := fset d.hrt.hearths h { role := 0 } } }).transition (uid 2 h) .alive .none)) ∧
    (∀ ctx, ctx < 192 →
      let hit (d : Dev) : Dev := (d.transition (uid 1 (ctx / 4)) .degraded .hardware).privEvent (ctx / 4) 2
      Does (.coreUncorrectableError ctx) (fun d => ((hit d).busyOf ctx).bind (fun n => ((hit d).thread n).wb) = some wb)
        (fun d => (hit d).faultInstance wb 4 0))

/-! ## The Drover -/

/-- R346, R347, R348, R351, R352, R353: creation, dispatch of the head of the most urgent level, preemption, flows and
ends of threads; a create that finds no room is held. -/
def Obligations.DroverSchedules : Prop :=
  ∀ (h level flow ctx n lv : Nat),
    (h < 6 → level < 64 → flow < 2 ^ 20 →
      Does (.threadCreate h level flow) (fun d => d.domOn .control = true ∧ d.canCreate h flow = true)
        (fun d => d.create h level flow) ∧
      Does (.threadCreate h level flow) (fun d => d.domOn .control = true ∧ d.canCreate h flow = false)
        (fun d => d.refuse h (.create level flow))) ∧
    (ctx < 192 → Does (.threadDispatch ctx)
      (fun d => d.busyOf ctx = none ∧ d.domOn .control = true ∧ (d.dh (hearthOf ctx)).top = some (lv, n))
      (fun d =>
        let e := (d.unready n).modThread n (fun t => { t with state := .running, ctx := some ctx, since := d.drv.dispatchNo })
        let e := { e with drv := { e.drv with
          busy := fset e.drv.busy ctx (some n), dispatchNo := e.drv.dispatchNo + 1 } }
        let e := e.modDh (hearthOf ctx) (fun q => { q with dispatches := q.dispatches + 1 })
        (if (d.thread n).release = true then e.returnTicket n else e).retryHeld (hearthOf ctx))) ∧
    (h < 6 → ∀ m, Does (.threadPreempt h) (fun d => (d.dh h).top = some (lv, m) ∧ d.victim h = some n ∧ d.hearthRole h = 0 ∧
        (∀ c ∈ ctxsOf h, (d.busyOf c).isSome = true) ∧ lv < (d.thread n).level ∧ (d.thread n).wb = none)
      (fun d => (((d.preemptEvent n).leaveCtx n).place' n true).modDh h (fun q => { q with preempts := q.preempts + 1 }))) ∧
    Does (.flowRelease n) (fun d => (d.thread n).state = .running) (fun d => d.releaseFlow n) ∧
    Does (.orderedRelease n) (fun d => (d.thread n).state = .running ∧ (d.thread n).ticket.isSome = true) (fun d =>
      let e := (d.blockThread n).modThread n (fun t => { t with release := true })
      ({ e with drv := { e.drv with released := setIns e.drv.released n } }).runReleases
        (flowKey (d.thread n).hearth (d.thread n).flow)) ∧
    Does (.threadEnd n) (fun d => (d.thread n).state = .running ∧ (d.thread n).wb = none)
      (fun d => (d.endThread n).retryHeld (d.thread n).hearth) ∧
    (∀ m, Does (.flowModeChange h) (fun d => (d.dh h).flowNext = some m ∧
        ∀ p ∈ d.drv.threads, p.2.state = .free ∨ p.2.hearth ≠ h ∨ p.2.flow = 0)
      (fun d => (d.modDh h (fun q => { q with flowModeA := m, flowNext := none })).retryHeld h))

/-- R346, R356, R357: a tick moves the entries that are due to the ready lists, an entry held back moves once there is
room, a blocked call ends when its event comes, and a cancel answers with the state it found. -/
def Obligations.WakesAndCancels : Prop :=
  ∀ (h now n id : Nat) (c : Ctx) (w : Waybill),
    (h < 6 → Does (.drvTickBoundary h now) (fun d => d.drv.now ≤ now ∧ now % (d.dh h).tickA = 0 ∧ d.domOn .control = true)
      (fun d => ({ d with drv := { d.drv with now := now } }).moveDue h now 4096)) ∧
    (∀ e t, Does (.delayEntryExpiry h) (fun d => (d.dh h).delay = e :: t ∧
        e.expiry ≤ d.drv.now / (d.dh h).tickA * (d.dh h).tickA ∧ d.readyFull h = false)
      (fun d => (d.moveExpired h e t).modDh h (fun q =>
        { q with held := q.held.filter (fun x => decide (x ≠ Held.expiry)) }))) ∧
    Does (.threadWake n) (fun d => (d.thread n).state = .waiting ∧ (d.thread n).release = false ∧
        (d.thread n).wb = some id ∧ d.inst id = some c ∧ d.wb id = some w) (fun d => d.wakeCall n id c w) ∧
    Does (.threadWake n) (fun d => (d.thread n).state = .waiting ∧ (d.thread n).release = false ∧ (d.thread n).wb = none)
      (fun d => (d.dropDelay n).wakeUp n) ∧
    Does (.threadCancel n) (fun d => (d.thread n).state = .free) (fun d => d.emit (.cancelled .noThread)) ∧
    Does (.threadCancel n) (fun d => (d.thread n).state = .waiting ∧ (d.thread n).wb = some id)
      (fun d => (d.endCause id 7).emit (.cancelled .waiting)) ∧
    Does (.threadCancel n) (fun d => (d.thread n).state = .running ∧ (d.thread n).wb = some id)
      (fun d => (d.endCause id 7).emit (.cancelled .running)) ∧
    Does (.threadCancel n) (fun d => (d.thread n).state = .ready ∧ (d.thread n).wb = some id)
      (fun d => (({ d with drv := { d.drv with cancelsBefore := satAdd 32 d.drv.cancelsBefore 1 } }).endCause id 7).emit
        (.cancelled .beforeDispatch))

/-! ## Queues and I/O commands -/

/-- R78, R79, R86, R472: doorbells, the fetch of the next entry, a timer that runs out, the end of a shutdown. -/
def Obligations.QueuesMove : Prop :=
  ∀ (fix qid v cid : Nat),
    (∀ q : Sq, v < q.size →
      Does (.sqTailDoorbell fix qid v) (fun d => d.doorbellTaken fix = true ∧ (d.fn fix).sq qid = some q)
        (fun d => d.modFn fix (fun f => { f with sqs := fset f.sqs qid (some { q with tail := v, ready := true }) }))) ∧
    Does (.sqTailDoorbell fix qid v) (fun d => d.doorbellTaken fix = true ∧ ∃ q, (d.fn fix).sq qid = some q ∧ q.size ≤ v)
      (fun d => ({ d with qen := { d.qen with dbInvalid := satAdd 32 d.qen.dbInvalid 1 } }).postAen fix 0 1 1) ∧
    (∀ c : Cq, v < c.size → c.inSpan v = true →
      Does (.cqHeadDoorbell fix qid v) (fun d => d.doorbellTaken fix = true ∧ (d.fn fix).cq qid = some c)
        (fun d => ((d.modFn fix (fun f => { f with cqs := fset f.cqs qid (some { c with head := v }) })).releaseHeld fix qid
          c.held.length).endDeletes fix)) ∧
    (∀ (drr : Drr) (q : Sq) (sgl fused : Bool),
      Does (.submissionFetch cid sgl fused) (fun d => d.qen.drr.next entryBytes d.fetchable = some (fix, drr) ∧
          (d.fn fix).pickSq (decide (fix = d.qen.drr.cur ∧ entryBytes ≤ d.qen.drr.deficit)) = some (qid, q) ∧
          d.cmd ⟨fix, qid, cid⟩ = none)
        (fun d =>
          let h := (q.head + 1) % q.size
          let e := d.modFn fix (fun f => { f with
            lastSq := qid
            sqs := fset f.sqs qid (some { q with head := h, burst := q.burst + 1, ready := decide (h ≠ q.tail) }) })
          let e : Dev := { e with
            qen := { e.qen.touch (fix, qid) with drr := drr }
            nvm := { e.nvm with cmds := e.nvm.cmds ++ [{ ref := ⟨fix, qid, cid⟩, epoch := (e.fn fix).epoch }] } }
          let e := (e.issue 0 fix 1).hostRead fix entryBytes
          if (fused || (sgl && decide (qid = 0))) = true then e.complete ⟨fix, qid, cid⟩ .invalidField else e)) ∧
    Does (.moderationTimerExpiry fix v) (fun d => ((d.fn fix).vec v).timer = true) (fun d => d.sendMsg fix v) ∧
    Does (.shutdownComplete fix) (fun d => (d.fn fix).shst = 1 ∧ (∀ c ∈ d.nvm.cmds, c.ref.fix = fix → c.job = .aer) ∧
        (d.fn fix).holdsFor none = false)
      (fun d => d.modFn fix (fun f => { f with shst := 2 }))

/-- R74, R128, R184, R187: READ, COMPARE and VERIFY begin a read of each granule part; WRITE counts its bytes and
begins a write of each; FLUSH completes at once; Write Zeroes and Deallocate clear the ranges; a refused transfer
completes with its status. -/
def Obligations.IoCommandsBegin : Prop :=
  ∀ (ref : CmdRef) (nsid slba nlb key : Nat) (tag : Option Nat) (dp mp : DataPtr) (b m : Bytes) (n : Ns),
    let row := RunsCmd Dev.ioMay
    let moved := nlb * (n.unit + n.apart)
    let ok (u : PtrUse) (w : Bool) (d : Dev) : Prop := d.transferFor ref nsid slba nlb tag w u dp mp = .ok (n, key)
    let bad (u : PtrUse) (w : Bool) (st : Status) (d : Dev) : Prop :=
      d.transferFor ref nsid slba nlb tag w u dp mp = .error st
    (∀ st, row (.read ref nsid slba nlb tag dp mp) ref (bad .toHost false st) (fun d => d.complete ref st) ∧
      row (.write ref nsid slba nlb tag dp mp (some b) (some m)) ref (bad .toDevice true st) (fun d => d.complete ref st) ∧
      row (.compare ref nsid slba nlb tag dp mp (some b) (some m)) ref (bad .toDevice false st)
        (fun d => d.complete ref st)) ∧
    row (.read ref nsid slba nlb tag dp mp) ref (ok .toHost false)
      (fun d => d.countRead.readParts ref n nsid key slba nlb .read .host) ∧
    row (.compare ref nsid slba nlb tag dp mp (some b) (some m)) ref (ok .toDevice false)
      (fun d => ((d.hostRead ref.fix moved).modCmd ref (fun c => { c with data := b, info := m })).countRead.readParts ref n nsid key slba nlb
        .compare .compare) ∧
    row (.write ref nsid slba nlb tag dp mp (some b) (some m)) ref
      (fun d => ok .toDevice true d ∧ d.stageCheck n nsid tag (parts (lbasPer n.lbaf) slba nlb).length = none)
      (fun d =>
        let ps := parts (lbasPer n.lbaf) slba nlb
        let e := match tag.bind (d.boundTo nsid) with
          | some slot => d.useSlot slot ps.length
          | none => d
        let e := (e.hostRead ref.fix moved).modCmd ref (fun c => { c with job := .write, waits := ps.length, started := true })
        let e := { e with
          wrp := { e.wrp with userBytes := e.wrp.userBytes + nlb * lbaSize n.lbaf }
          nvm := { e.nvm with
            writeCmds := e.nvm.writeCmds + 1, bytesWritten := e.nvm.bytesWritten + nlb * lbaSize n.lbaf } }
        (e.forEach ps (fun d p =>
          let x := n.dataOf b m p.2.2.2 p.2.2.1
          d.addWrite ref n nsid key p x.1 x.2)).stageAll ref) ∧
    row (.write ref nsid slba nlb tag dp mp none (some m)) ref (ok .toDevice true)
      (fun d => d.complete ref .dataTransferError) ∧
    row (.verify ref nsid slba nlb tag) ref (fun d => d.rangeFor ref nsid slba nlb false = .ok n ∧
        d.keyRefFor n nsid tag = .ok key ∧ d.key.locked = false ∧ nlb ≠ 0)
      (fun d => d.readParts ref n nsid key slba nlb .verify .verify) ∧
    row (.flush ref nsid) ref (fun d => nsid = 0xFFFFFFFF ∨ d.nsFor ref nsid = .ok n) (fun d => d.complete ref .success) ∧
    (∀ dealloc, row (.writeZeroes ref nsid slba nlb dealloc) ref
      (fun d => d.rangeFor ref nsid slba nlb true = .ok n ∧ nlb ≠ 0)
      (fun d => d.clearRanges ref nsid n [(slba, nlb)])) ∧
    (∀ dealloc l, row (.datasetManagement ref nsid dealloc dp (some l)) ref
      (fun d => d.nsFor ref nsid = .ok n ∧ sglCheck .toDevice dp (16 * l.length) none = none ∧ 1 ≤ l.length ∧
        l.length ≤ 256 ∧ n.resv.mayWrite (d.hostOf ref.fix) = true ∧ ∀ r ∈ l, r.1 + r.2 ≤ n.nsze)
      (fun d => if dealloc = true then (d.hostRead ref.fix (16 * l.length)).clearRanges ref nsid n (l.filter (fun r => decide (r.2 ≠ 0)))
        else d.complete ref .success))

/-! ## The write and the read pipeline -/

/-- R114, R116, R119, R122, R123, R124, R132, R180, R335: the lanes take granules and end them, credits and locks are
taken up, a stripe closes on time, the oldest journal record becomes durable. -/
def Obligations.WritePipelineMoves : Prop :=
  ∀ (id lane col set grp pu fix : Nat) (g : WGran) (drr : Drr),
    let compressing (d : Dev) : Prop := d.wrp.grans.find? (fun g => decide (g.stage = .compress ∧ g.lane = some lane)) = some g
    let next (kind : Nat) (d : Dev) : Prop := d.laneFree kind lane = true ∧
      (fget d.wrp.drr {} kind).next 32768 (d.laneWork kind) = some (fix, drr) ∧
      d.wrp.grans.find? (fun g => g.readyFor kind && decide (g.ref.fix = fix)) = some g
    let grant (kind pool : Nat) (d : Dev) : Dev :=
      ({ d with wrp := { d.wrp with drr := fset d.wrp.drr kind drr } }).issue pool 0 1
    Does (.granuleLockRelease g.gtag) (fun d =>
        d.wrp.grans.find? (fun h => decide (h.gtag = g.gtag ∧ h.stage = .locked)) = some g) (fun d => d.tryStage2 g.id) ∧
    Does (.laneGrant 0 lane) (next 0)
      (fun d => (grant 0 10 d).modWg g.id (fun x => { x with lane := some lane, seq := (grant 0 10 d).jrn.next })) ∧
    -- an encrypting lane frees the compression lane that holds the granule
    Does (.laneGrant 1 lane) (next 1)
      (fun d => ((grant 1 12 d).leaveLane g.id 10).modWg g.id (fun x => { x with lane := some lane, seq := x.seq })) ∧
    Does (.granuleCompress lane) compressing (fun d =>
      let r := storedForm g.data g.info.length d.icm.minSavingA
      let e := d.modWg g.id (fun g => { g with
        form := r.1, frame := r.2.1, units := r.2.2, check := granuleCheck g.data g.info, lane := none, holds := some lane })
      let e : Dev := { e with icm := { e.icm with
        clane := fmod e.icm.clane 0 lane (· + 1), storedForm := e.icm.storedForm + r.1 } }
      e.wgReady g.id .encrypt) ∧
    (lane < 16 → Does (.xtsLaneCompute lane true true col set grp)
      (fun d => d.laneHasKey lane = true ∧ d.laneW lane = some g ∧ d.mxt.railMismatch < 2 ^ 32)
      (fun d =>
        let e := d.modWg g.id (fun g => { g with lane := none, holds := some lane, stage := .parity })
        ({ e with wrp := { e.wrp with storedBytes := e.wrp.storedBytes + 64 * g.units } }).place g.id col set grp)) ∧
    (∀ k, Does (.mxtKeyCacheMiss lane) (fun d => d.laneKey lane = some k ∧ d.laneHasKey lane = false ∧ d.key.locked = false)
      (fun d => d.modLane lane (fun l => { l with keys := (k :: l.keys).take 64 }))) ∧
    (∀ e, Does (.creditGrant 2 id col set grp) (fun d => d.takeGrant 2 (.wgran id) = some e) (fun _ => e.afterCredit id)) ∧
    (∀ e, Does (.creditGrant 3 id col set grp) (fun d => d.takeGrant 3 (.rgran id) = some e)
      (fun _ => (e.modRg id (fun g => { g with hasR := true })).toMedia id)) ∧
    (∀ p, p = 4 ∨ p = 14 → g.stage = .parity →
      (g.pga = 0 → Does (.creditGrant p id col set grp) (fun d => d.wg id = some g)
        (fun d => (d.repath id col set grp).place id col set grp)) ∧
      (g.pga ≠ 0 → Does (.creditGrant p id col set grp) (fun d => d.wg id = some g ∧ d.canIssue 4 0 1 = true)
        (fun d => (d.issue 4 0 1).modWg id (fun g => { g with hasQ := true, stage := .qlcCopy })))) ∧
    (g.stage = .qlcCopy → Does (.qlcCopyComplete id) (fun d => d.wg id = some g) (fun d =>
      let e := d.modWg id (fun g => { g with stage := .program, hasW := false })
      (if g.hasW = true then e.giveBack 2 g.ref.fix 1 else e).pushSet (colOf (pgaDie g.pga)) (pgaBlock g.pga) setUnits)) ∧
    (∀ t : Stripe, t.closed = false → Does (.stripeCloseTimer col set pu) (fun d => d.stripe col set pu = some t) (fun d =>
      let groups := (dataGroups t.geom set pu t.voids).filter (fun g => decide (g ∉ t.filled))
      let e := d.forEach groups (fun d g =>
        let stop := d.memberEnd col set g pu t.mode
        let empty := decide (d.fillOf (dieOf col g) set + d.puUnits col t.mode ≤ stop)
        let e := if d.fillOf (dieOf col g) set < stop then d.setFill (dieOf col g) set stop else d
        { e with wrp := { e.wrp with padMembers := e.wrp.padMembers + b2n empty } })
      e.pushSet col set setUnits)) ∧
    Does .journalRecordDurable (fun _ => True) Dev.recordDurable

/-- R114, R126, R127, R131, R139, R157, R211: the steps of a granule on its way from the media to the host. -/
def Obligations.ReadPipelineMoves : Prop :=
  ∀ (id cw lane decoder fix : Nat) (g : RGran) (drr : Drr),
    let here (d : Dev) : Prop := d.rg id = some g
    let die := pgaDie g.entry.pga
    let b := pgaBlock g.entry.pga
    let mode := pgaMode g.entry.pga
    let c := g.cw cw
    let decoding (step pool : Nat) (d : Dev) : Prop :=
      here d ∧ g.stage = .decode ∧ c.ok = false ∧ c.step = step ∧ d.canIssue pool 0 1 = true
    let next (kind : Nat) (d : Dev) : Prop := d.laneFree kind lane = true ∧
      (fget d.wrp.drr {} kind).next 32768 (d.laneWork kind) = some (fix, drr) ∧
      d.rdp.grans.find? (fun g => d.readyFor g kind && decide (g.ref.fix = fix)) = some g
    let turned (kind : Nat) (d : Dev) : Dev := { d with wrp := { d.wrp with drr := fset d.wrp.drr kind drr } }
    let inLane (keep : Bool) (d : Dev) : Dev := d.modRg g.id (fun x => { x with
      lane := some lane, holds := if keep = true then x.holds else none })
    let rung (d : Dev) : Dev :=
      let off := d.rungOffsets (d.die die).profile mode c.rung
      let e := (((d.tellRead .readRetry die b off).ticket 13).ticket 8).countPages die b 1
      let e := (e.hardDecodes (chanOf die) 1).readDone die
      { e with ldc := { e.ldc with rungs := e.ldc.rungs + 1 } }
    let decompressing (d : Dev) : Prop :=
      d.rdp.grans.find? (fun g => decide (g.stage = .decompress ∧ g.lane = some lane)) = some g
    let stored (d : Dev) : Stored := d.content g.entry
    -- the granule with what its lane has made of it, and the device once the lane is free
    let got (x : Stored) (clear region : List (Nat × Byte)) : RGran := { g with
      lane := none, data := (x.verdict g.gtag (g.key.map (·.2)) clear region).2.1
      info := (x.verdict g.gtag (g.key.map (·.2)) clear region).2.2 }
    let left (clear region : List (Nat × Byte)) (d : Dev) : Dev :=
      let e := (d.giveBack 11 0 1).modRg g.id (fun _ => got (stored d) clear region)
      { e with icm := { e.icm with dlane := fmod e.icm.dlane 0 lane (· + 1) } }
    -- the read that its die serves next is complete
    (∀ e, Does (.nandReadComplete id) (fun d => here d ∧ g.stage = .media ∧ g.tag = true ∧ d.dieReads die b = true ∧
        d.serveRead g = some e)
      (fun _ =>
        let r := (e.tell .changeColumn die b).modDie die (fun x => { x with reads := x.reads.filter (· ≠ id) })
        let r := (r.modRg id (fun g => { g with stage := .decode, tag := false })).endTag (chanOf die)
        (r.countPages die b (pageCount g.entry.pga g.entry.units)).readDone die)) ∧
    -- step 1 of R126
    (∀ ok, Does (.codewordDecode id cw ok) (decoding 1 8)
      (fun d => (((d.ticket 8).hardDecodes (chanOf die) 1).setCw id cw (if ok = true then { c with ok := true }
        else { c with step := 2, rung := 0 })).afterDecode id)) ∧
    -- step 2: a rung that decodes is a sample of tracking; one that does not leaves the next, or step 3
    Does (.readRetryRung id cw true) (fun d => decoding 2 8 d ∧ d.canRead die b = true)
      (fun d => (((rung d).sampleRung die mode c.rung).setCw id cw { c with ok := true }).afterDecode id) ∧
    Does (.readRetryRung id cw false) (fun d => decoding 2 8 d ∧ d.canRead die b = true)
      (fun d => if c.rung + 1 < (rung d).rungCount g.entry.pga then (rung d).setCw id cw { c with rung := c.rung + 1 }
        else ((rung d).setCw id cw { c with step := 3, rung := 0 }).escalate) ∧
    -- step 3: a soft decode that succeeds
    Does (.softDecode id cw decoder true)
      (fun d => decoding 3 9 d ∧ g.lane = some decoder ∧ d.canRead die b = true) (fun d =>
      let e := ((d.ticket 9).readSoft die b mode (c.rung + 1)).readDone die
      (((e.softDone decoder true).setCw id cw { c with ok := true }).queueRefresh die b).afterDecode id) ∧
    -- step 4
    (∀ failed, Does (.stripeReconstruct id cw failed) (fun d =>
        let m := d.memberOf g.entry cw
        here d ∧ g.stage = .rebuild ∧ g.lane.isSome = true ∧ c.ok = false ∧ c.step = 4 ∧
          d.othersRead m.1 m.2.1 m.2.2.2 = true ∧
          (d.readStripe m.1 m.2.1 m.2.2.2 mode failed).1.canRebuild m.1 m.2.1 m.2.2.1 m.2.2.2
            (d.readStripe m.1 m.2.1 m.2.2.2 mode failed).2 = true)
      (fun d =>
        let m := d.memberOf g.entry cw
        let e := (d.readStripe m.1 m.2.1 m.2.2.2 mode failed).1
        let e : Dev := { e with
          par := { e.par with reconCw := e.par.reconCw + 1 }
          rdp := { e.rdp with reconstructed := satAdd 32 e.rdp.reconstructed (b2n (!e.memberDone g cw)) } }
        let e := (e.setCw id cw { c with ok := true }).queueRefresh die m.2.1
        (e.modRg id (fun g => { g with rebuilt := true })).afterDecode id)) ∧
    -- lanes, soft decoders and accumulators
    Does (.laneGrant 2 lane) (next 2) (fun d => inLane true ((turned 2 d).issue 12 0 1)) ∧
    ((∀ w, g.dest ≠ .divert w) → Does (.laneGrant 3 lane) (next 3) (fun d =>
      let e := (turned 3 d).issue 11 0 1
      inLane false (if g.holds.isSome = true then e.giveBack 12 0 1 else e))) ∧
    Does (.laneGrant 4 lane) (next 4) (fun d => inLane true (turned 4 d)) ∧
    Does (.laneGrant 5 lane) (next 5) (fun d => inLane true ((turned 5 d).issue 14 0 1)) ∧
    -- a decrypting lane ends: it holds its output
    (16 ≤ lane → ∀ col set grp, Does (.xtsLaneCompute lane true true col set grp)
      (fun d => d.laneHasKey lane = true ∧ d.laneR lane = some g ∧ d.mxt.railMismatch < 2 ^ 32)
      (fun d => (d.modRg g.id (fun h => { h with lane := none, holds := some lane, key := d.headerKey g })).rgReady g.id
        .decompress)) ∧
    -- a host read that passes its checks waits for the transfer to the host
    (g.dest = .host → g.checkFail = none → ∀ clear region, Does (.granuleDecompress lane clear region)
      (fun d => decompressing d ∧ (got (stored d) clear region).keyRefused (stored d) ((stored d).headOk g.gtag clear) = false ∧
        ((stored d).verdict g.gtag (g.key.map (·.2)) clear region).1 = .pass)
      (fun d => (left clear region d).countGranule.modRg g.id (fun g => { g with stage := .deliver }))) ∧
    -- one that fails them is rebuilt by step 4, once
    (g.dest = .host → g.checkFail = none → ∀ clear region, Does (.granuleDecompress lane clear region)
      (fun d => decompressing d ∧ (got (stored d) clear region).keyRefused (stored d) ((stored d).headOk g.gtag clear) = false ∧
        ((stored d).verdict g.gtag (g.key.map (·.2)) clear region).1 = .other ∧ d.rdp.reconA = true)
      (fun d =>
        let e := left clear region d
        let e : Dev := { e with
          rdp := { e.rdp with checkFail := satAdd 32 e.rdp.checkFail 1 }
          icm := { e.icm with lenMismatch := satAdd 32 e.icm.lenMismatch 0 } }
        e.modRg g.id (fun g => { g.toStep4 true with checkFail := some false }))) ∧
    -- a granule whose data are in host memory leaves, and its command goes on
    (g.id = id → Does (.hostDmaComplete id) (fun d => d.nextDma = some (g, drr) ∧ g.epoch = (d.fn g.ref.fix).epoch)
      (fun d => ((turned 6 d).endRg g).finishRead g.ref .host g.gtag g.data g.info g.first g.count g.hostPos))

/-! ## Media, journal and map -/

/-- R141, R149, R150, R151, R152: training, calibration, the ends, suspends and resumes of programs and erases. -/
def Obligations.DiesOperate : Prop :=
  ∀ (chan die us : Nat) (tj : Int) (o : DieOp),
    let runs (d : Dev) : Prop := (d.die die).op = some o
    let active (d : Dev) : Prop := (d.unit (uid 3 chan)).state = .alive ∨ (d.unit (uid 3 chan)).state = .degraded
    let driven (d : Dev) : Prop := (d.grp (chan / 8)).pgood = true ∧ (d.grp (chan / 8)).drivers = true
    let trained (n : Nat) (d : Dev) : Dev := iter n (fun d => d.trainOnce chan) (d.srcEvent (96 + chan))
    -- the highest rate that passes, after one training for each rate tried
    (chan < 64 → ∀ passing r, Does (.channelTraining chan passing tj) (fun d => driven d ∧
        ((List.range ((d.srcEvent (96 + chan)).mch.maxRateA + 1)).reverse).find? (fun r => decide (r ∈ passing)) = some r)
      (fun d =>
        let top := (d.srcEvent (96 + chan)).mch.maxRateA
        let e := (trained (top + 1 - r) d).modChan chan (fun c => { c with
          rate := r, trained := true, nvLpddr4 := true, trainTj := tj
          retrains := satAdd 32 c.retrains (top - r + b2n c.trained) })
        let st := (e.unit (uid 3 chan)).state
        if st = .alive ∨ st = .degraded then
          (if r = 4 then e.transition (uid 3 chan) .alive .none else e.transition (uid 3 chan) .degraded .rateDown)
        else e)) ∧
    (chan < 64 → ∀ passing, Does (.channelTraining chan passing tj) (fun d => driven d ∧
        ((List.range ((d.srcEvent (96 + chan)).mch.maxRateA + 1)).reverse).find? (fun r => decide (r ∈ passing)) = none)
      (fun d =>
        let top := (d.srcEvent (96 + chan)).mch.maxRateA
        ((trained (top + 1) d).modChan chan (fun c => { c with
          trained := false, nvLpddr4 := false, retrains := satAdd 32 c.retrains (top + b2n c.trained) })).retireChan chan)) ∧
    Does (.zqCalibrationTimer chan) (fun d => (d.chan chan).trained = true ∧ active d)
      (fun d =>
        let e := d.modChan chan (fun c => { c with zq := c.zq + c.ce })
        e.forEach (d.cesOf chan) (fun d x => d.tell .zqShort (ceDie chan x) 0)) ∧
    Does (.readDqRetrain chan tj) (fun d => (d.chan chan).trained = true ∧ 10 < (tj - (d.chan chan).trainTj).natAbs)
      (fun d => (d.modChan chan (fun c => { c with trainTj := tj, retrains := satAdd 32 c.retrains 1 })).tell .readDqTraining
        (64 * chan) 0) ∧
    (o.kind ≠ .erase → o.suspended = 0 ∨ o.suspended = 3 → ∀ ok, Does (.nandProgramComplete die false ok) runs
      (fun d => (d.endOp die).programFailure die o.block 1)) ∧
    (o.kind = .pslcProgram → o.suspended = 0 → Does (.nandProgramComplete die true true)
      (fun d => runs d ∧ ((d.endOp die).modChan (chanOf die) (fun c => { c with programs := c.programs + 1 })).stripe
        (colOf die) o.block o.pu = none)
      (fun d => (((d.endOp die).modChan (chanOf die) (fun c => { c with programs := c.programs + 1 })).lastPu die o.block
        o.pu).afterVerify)) ∧
    (o.kind = .erase → o.suspended = 0 ∨ o.suspended = 3 →
      Does (.nandEraseComplete die true) runs (fun d => ((d.endOp die).eraseDone die o.block).admitNext die) ∧
      Does (.nandEraseComplete die false) runs (fun d => ((d.endOp die).eraseFailure die o.block 2).admitNext die)) ∧
    (o.kind = .erase → Does (.eraseSuspend die us) runs (fun d => d.suspend die us d.mch.ersMinRunA d.mch.ersMaxSuspA)) ∧
    (o.kind = .program → Does (.programSuspend die us) runs (fun d => d.suspend die us d.mch.pgmMinRunA d.mch.pgmMaxSuspA)) ∧
    (o.suspended = 1 →
      Does (.suspendReady die false) runs (fun d => d.modDie die (fun x => { x with op := some { o with suspended := 2 } })) ∧
      Does (.suspendReady die true) runs (fun d => (d.modDie die (fun x =>
        { x with op := some { o with suspended := 3, suspends := o.suspends - 1 } })).modChan (chanOf die) (fun c =>
          { c with suspends := c.suspends - 1 }))) ∧
    (o.suspended = 2 → Does (.suspendResume die) (fun d => runs d ∧ d.mch.suspMaxReadsA ≤ o.reads)
      (fun d => (d.modDie die (fun x => { x with op := some { o with suspended := 0, ranUs := 0, reads := 0 } })).tell .resume
        die o.block)) ∧
    (o.kind = .erase → Does (.nandOperationTimeout die us none)
      (fun d => runs d ∧ ((d.die die).timeouts.filter (fun t => us < t + 60000000)).length < 3 ∧
        ((((d.modChan (chanOf die) (fun c => { c with timeouts := satAdd 32 c.timeouts 1 })).tell .dieReset die 0).modDie die
          (fun x => { x with timeouts := ((d.die die).timeouts.filter (fun t => us < t + 60000000)) ++ [us] })).die die).op =
          some o)
      (fun d =>
        let times := ((d.die die).timeouts.filter (fun t => us < t + 60000000)) ++ [us]
        let e := (d.modChan (chanOf die) (fun c => { c with timeouts := satAdd 32 c.timeouts 1 })).tell .dieReset die 0
        ((e.modDie die (fun x => { x with timeouts := times })).endOp die).eraseFailure die o.block 4))

/-- R174, R181, R191, R194, R223: the map cache, garbage collection, the checkpoint, the patrol and the steps of
recovery. -/
def Obligations.MapAndRecoveryMove : Prop :=
  ∀ (index col set grp key : Nat) (k : Block),
    (∀ e, Does (.mapItemLoad 2 index) (fun d => (d.item 2 index).cached = false ∧ (d.item 2 index).there = true ∧
        d.flushesFirst = false ∧ d.itemReads (d.item 2 index) = true ∧ d.roomFor (d.itemChunks 2 index) 1048576 = some e)
      (fun d =>
        let r := e.readPages (pgaDie (d.item 2 index).ptr) (pgaBlock (d.item 2 index).ptr) 1 4
        (r.modItem 2 index (fun i => { i with cached := true, chunks := r.itemChunks 2 index })).useItem 2 index)) ∧
    (∀ kind e pga, kind ≤ 2 → Does (.mapItemFlush kind index col set grp) (fun d => d.flushable kind index = true ∧
        d.flushTurn kind index = true ∧ d.placePages col set grp 2 1 = some (e, pga))
      (fun _ => e.layPages
        { kind := kind, index := index, pga := pga, code := e.kindCode kind index, seq := e.appliedSeq kind index }
        (e.itemPage kind index (e.appliedSeq kind index)))) ∧
    Does (.mapItemFlush 3 index col set grp) (fun _ => True) (fun d => d.moveImage index col set grp) ∧
    (∀ cls, cls ≤ 2 → Does (.gcVictimSelect cls) (fun d => d.freeBelow d.gcStartBp = true ∧
        leastValid (d.gcCandidates cls) = some (key, k) ∧ k.valid ≠ 0) (fun d => d.moveBlock (key / 8160) (key % 8160) 1)) ∧
    (∀ cls, cls ≤ 2 → Does (.gcVictimSelect cls) (fun d => d.freeBelow d.gcStartBp = true ∧
        leastValid (d.gcCandidates cls) = some (key, k) ∧ k.valid = 0) (fun d => d.sweepBlock key)) ∧
    Does .pslcFoldStart (fun d => (d.pslcSize * d.tf 2 0x28 1 ≤ d.pslcHeld * 100 ∨ d.freeBelow d.gcStartBp = true) ∧
        d.oldestPslc = some (key, k)) (fun d => d.moveBlock (key / 8160) (key % 8160) 2) ∧
    Does .journalCheckpoint (fun d => d.nvm.ready = true ∧ d.nvm.noSuperblock = false) Dev.checkpoint ∧
    (∀ samples, Does (.patrolZone samples) (fun d => bit (d.tf 4 0x20 4) 0 = true ∧ d.domOn .data = true ∧
        ∀ p ∈ d.zoneBlocks d.oldestZone, d.canRead p.1 p.2 = true) (fun d =>
      let z := d.oldestZone
      let e := d.forEach (samples.filter (fun x => decide ((d.blk x.die x.block).state = 3))) Dev.patrolSample
      let e := e.forEach (e.zoneBlocks z) (fun d p => d.patrolBlock p.1 p.2 samples)
      { e with outr := { e.outr with stamps := fset e.outr.stamps z (e.nowMs / 3600000) } })) ∧
    (∀ torn, Does (.recoveryStart [] torn)
      (fun d => d.domOn .data = true ∧ d.nvm.ready = false ∧ d.jrn.step = 0 ∧ d.losePending.jrn.sbOk = true)
      (fun d => d.losePending.readRing torn)) ∧
    (∀ torn, Does (.recoveryStart [0, 1] torn)
      (fun d => d.domOn .data = true ∧ d.nvm.ready = false ∧ d.jrn.step = 0 ∧ ∀ p ∈ d.losePending.jrn.supers, p.1 ≤ 1)
      (fun d =>
        let e := d.losePending
        let e : Dev := { e with jrn := { e.jrn with
          supers := e.jrn.supers.map (fun p => (p.1, {})), step := 2, replayed := 0, stop := 0, ring := [] } }
        e.lostSuperblock)) ∧
    Does .recoveryBlockTableLoad (fun d => d.jrn.step = 2 ∧ d.admitting = false)
      (fun d => { d with
        jrn := { d.jrn with step := 3 }
        map := { d.map with chunkItems := d.map.chunkItems.map (fun p =>
          (p.1, { p.2 with cached := true, chunks := d.itemChunks 2 p.1 })) } }) ∧
    (∀ us seqUs, Does (.recoveryComplete us seqUs) (fun d => d.jrn.step = 3 ∧ d.bot.stage = 1) (fun d =>
      let e := (d.completeRecovery us).sequenceDone seqUs
      { e with emb := { e.emb with mode := .idleReady } }))

/-! ## Tongs -/

/-- R285, R287, R289, R291, R293, R295, R297: table writes are taken up, each slot makes one change or one search, and
the scrub goes round; the record of a search reports its match of the highest priority. -/
def Obligations.TongsUnitsWork : Prop :=
  ∀ (ref : CmdRef) (unit first count len : Nat) (ptr : DataPtr) (b : Bytes),
    let cmd (i : Instr) (h : Dev → Prop) (e : Dev → Dev) : Prop :=
      RunsCmd Dev.ioMay i ref (fun d => d.tongsWaits ref unit = false ∧ (d.tu unit).foreign ref.fix = false ∧ h d) e
    let goodData : Prop := len = 64 * (count + 1) ∧ b.length = len ∧ ptrWalk ptr .toDevice = none ∧
      ptrLengthBad ptr len = false ∧ tFirstFaulty b (count + 1) = none
    let datas := (List.range (count + 1)).map (tData b)
    let used (d : Dev) := (tValid (d.tu unit).table).length
    let slot (d : Dev) : Dev := d.modTu unit (fun u => { u with
      nSearch := u.nSearch + 1, lastWasSearch := !u.updates.isEmpty })
    (unit < 16 → goodData → count < 32768 →
      cmd (.tongsInsertByPriority ref unit count len ptr (some b))
        (fun d => used d + (count + 1) ≤ 65536 ∧ (d.tu unit).sorted = true)
        (fun d => d.startWrite ref unit (if used d = 0 then spread (datas.map tEntryOf)
          else tInsertions (d.tu unit).table (datas.map tEntryOf)))) ∧
    (unit < 16 → goodData → first + count ≤ 65535 → count < 32768 →
      cmd (.tongsWriteAt ref unit first count len ptr (some b)) (fun _ => True)
        (fun d => d.startWrite ref unit (datas.zipIdx.map (fun p => writeAt (first + p.2) p.1)))) ∧
    (unit < 16 → first + count ≤ 65535 → count < 32768 →
      cmd (.tongsDelete ref unit first count 0) (fun _ => True)
        (fun d => d.startWrite ref unit ((List.range (count + 1)).map (fun i => .free (first + i)))) ∧
      (ptrWalk ptr .toHost = none → len = 64 * (count + 1) → ptrLengthBad ptr len = false →
        cmd (.tongsTableRead ref unit first count len ptr) (fun _ => True) (fun d =>
          let u := d.tu unit
          (d.emit (.toHost ref 0 ((List.range (count + 1)).map (fun i =>
            tEntryBytes (tEntryAt u.table (first + i)))).flatten)).complete ref .success (u.updateSeq % 2 ^ 32)
              (u.updateSeq % 2 ^ 32)))) ∧
    (unit < 16 → count < 32768 →
      cmd (.tongsReleaseUnit ref unit count 0) (fun d => (d.tu unit).fix = some ref.fix)
        (fun d => (d.modTu unit (fun u => { u with releasing := true })).modCmd ref (fun c =>
          { c with started := true, job := .tongsRelease unit })) ∧
      cmd (.tongsReleaseUnit ref unit count 0) (fun d => (d.tu unit).fix = none) (fun d => d.complete ref .success)) ∧
    (∀ c : Cmd, Does (.tongsReleaseComplete unit) (fun d => (d.tu unit).releasing = true ∧ (d.tu unit).searches = [] ∧
        (d.modTu unit TUnit.cleared).nvm.cmds.find? (fun c => c.job = .tongsRelease unit) = some c)
      (fun d => (d.modTu unit TUnit.cleared).complete c.ref .success)) ∧
    -- a change that is not a move and not the last
    (∀ i e x t, Does (.tongsEntryUpdate unit) (fun d => (d.tu unit).updates = .write i e :: x :: t ∧
        (d.tu unit).updateTurn = true)
      (fun d => d.modTu unit (fun u => { u with
        table := tPut u.table i (some e), updates := x :: t, updateSeq := u.updateSeq + 1, nUpdate := u.nUpdate + 1
        maxShift := max u.maxShift (min u.shift 65535), shift := 0, wrote := u.wrote + 1, lastWasSearch := false }))) ∧
    -- a move
    (∀ src dst x t, Does (.tongsEntryUpdate unit) (fun d => (d.tu unit).updates = .move src dst :: x :: t ∧
        (d.tu unit).updateTurn = true)
      (fun d => d.modTu unit (fun u => { u with
        table := tPut (tPut u.table dst (tEntryAt u.table src)) src none, updates := x :: t
        updateSeq := u.updateSeq + 1, nUpdate := u.nUpdate + 1, nMove := u.nMove + 1, shift := u.shift + 1
        lastWasSearch := false }))) ∧
    -- one key of a search, with more to come
    (∀ q key k2 rest t, q.keys = key :: k2 :: rest → q.stepping = false →
      Does (.tongsSearch unit false) (fun d => (d.tu unit).searches = q :: t ∧ (d.tu unit).searchTurn = true)
        (fun d =>
          let ranked := tRanked (d.tu unit).table key
          let n := ranked.length
          let e := (slot d).modTu unit (fun u => { u with
            multi := if 1 < n then satAdd 32 u.multi 1 else u.multi
            searches := { q with keys := k2 :: rest, dest := q.dest + 16
                                 matched := q.matched + (if n = 0 then 0 else 1) } :: t })
          e.putInst q.wb q.dest (tRecord ranked.head? n (d.tu unit).updateSeq false))) ∧
    -- a stepping without a match ends
    (∀ q t, q.stepping = true → q.begun = true → q.set = [] →
      Does (.tongsStep unit false) (fun d => (d.tu unit).searches = q :: t ∧ (d.tu unit).searchTurn = true)
        (fun d => (slot d).searchOver unit)) ∧
    -- a stepping reports its next match
    (∀ q i j r t, q.stepping = true → q.begun = true → q.set = i :: j :: r → q.matched + 1 < q.limit →
      Does (.tongsStep unit false) (fun d => (d.tu unit).searches = q :: t ∧ (d.tu unit).searchTurn = true)
        (fun d => ((slot d).modTu unit (fun u => { u with
          searches := { q with set := j :: r, matched := q.matched + 1, dest := q.dest + 16 } :: t })).putInst q.wb q.dest
            (tRecord ((tEntryAt (d.tu unit).table i).map (fun e => (i, e))) q.total q.seq0 false))) ∧
    (unit < 16 → Does (.tongsScrub unit false) (fun d => d.domOn .control = true ∧ (d.tu unit).scrub + 1 < 65536)
      (fun d => d.modTu unit (fun u => { u with scrub := u.scrub + 1 })))

/-! ## Admin commands -/

/-- R73, R75, R76, R79, R82, R353, R443, R472: queues, log pages, Identify, features, events, aborts, shutdown and
self-test. -/
def Obligations.AdminCommandsComplete : Prop :=
  ∀ (ref : CmdRef) (qid entries base cqid vector fid value nsid : Nat),
    let row := RunsCmd Dev.adminMay
    let fn (d : Dev) := d.fn ref.fix
    let done (d : Dev) : Dev := d.complete ref .success
    let inRange : Prop := 1 ≤ qid ∧ qid ≤ 256 ∧ 2 ≤ entries ∧ entries ≤ 65536
    row (.unsupportedCommand ref) ref (fun _ => True) (fun d => d.complete ref .invalidOpcode) ∧
    (inRange → 1 ≤ cqid → cqid ≤ 256 → row (.createIoSq ref true qid entries base cqid) ref
      (fun d => (fn d).sq qid = none ∧ ((fn d).cq cqid).isSome = true)
      (fun d => done (d.modFn ref.fix (fun f => { f with
        sqs := fset f.sqs qid (some { base := base, size := entries, cqid := cqid }) })))) ∧
    (inRange → vector ≤ 256 → ∀ ien, row (.createIoCq ref true ien qid entries base vector) ref (fun d => (fn d).cq qid = none)
      (fun d => done (d.modFn ref.fix (fun f => { f with
        cqs := fset f.cqs qid (some { base := base, size := entries, vector := vector, ien := ien }) })))) ∧
    (qid ≠ 0 → row (.deleteIoSq ref qid) ref (fun d => ((fn d).sq qid).isSome = true) (fun d =>
      let e := d.modFn ref.fix (fun f => { f with
        sqs := fset f.sqs qid ((f.sq qid).map (fun q => { q with ready := false, head := q.tail })) })
      let mine := e.nvm.cmds.filter (fun c => decide (c.ref.fix = ref.fix ∧ c.ref.qid = qid) && !c.begun)
      let e := (e.forEach mine (fun d c => d.cancelCmd c .abortedSqDeletion)).modCmd ref (fun c => { c with job := .sqDelete qid })
      ((e.cmd ref).map e.endDelete).getD e)) ∧
    (qid ≠ 0 → ∀ q : Cq, row (.deleteIoCq ref qid) ref
      (fun d => (fn d).cq qid = some q ∧ ∀ p ∈ (fn d).sqs, ∀ x, p.2 = some x → p.1 = 0 ∨ x.cqid ≠ qid)
      (fun d =>
        let e := d.modCmd ref (fun c => { c with job := .cqDelete qid })
        ((e.cmd ref).map e.endDelete).getD e)) ∧
    (∀ lid offset len rae page, lid ≠ 7 → row (.getLogPage ref lid offset len rae false) ref
      (fun d => d.logPage ref.fix lid = some page ∧ offset ≤ page.length)
      (fun d =>
        let e := d.emit (.toHost ref 0 (slice page offset len))
        done (if rae = true then e else e.clearEvents ref.fix lid))) ∧
    (∀ cns cntid b, row (.identify ref cns nsid cntid) ref (fun d => d.identify72 ref.fix cns nsid cntid = .ok b)
      (fun d => done (d.emit (.toHost ref 0 b)))) ∧
    row (.abort ref qid value) ref (fun d => d.cmd ⟨ref.fix, qid, value⟩ = none) (fun d => d.complete ref .success 1) ∧
    (∀ c : Cmd, c.job = .aer → row (.abort ref qid value) ref (fun d => d.cmd ⟨ref.fix, qid, value⟩ = some c)
      (fun d => done (d.cancelCmd c .abortRequested))) ∧
    (∀ data, row (.setFeatures ref 0x01 false nsid value data) ref (fun _ => True)
        (fun d => done (d.modFn ref.fix (fun f => { f with feat := { f.feat with burst := value % 8 } }))) ∧
      row (.setFeatures ref 0x0B false nsid value data) ref (fun _ => True)
        (fun d => done (d.modFn ref.fix (fun f => { f with feat := { f.feat with asyncCfg := value } }))) ∧
      row (.setFeatures ref 0x08 false nsid value data) ref (fun _ => True)
        (fun d => done (d.setCoalescing ref.fix (value % 256) (value / 256 % 256)))) ∧
    (∀ b, row (.setFeatures ref 0x0E false nsid value (some b)) ref (fun _ => True)
      (fun d => done (({ d with clk := { d.clk with stamp := some (fieldAt b 0 6, d.clk.ticks) } }).hostRead ref.fix b.length))) ∧
    (fid ∈ [0x01, 0x02, 0x04, 0x05, 0x07, 0x08, 0x0B] → (fid = 0x04 → tempSelBad value = false) → row (.getFeatures ref fid 0 nsid value) ref (fun _ => True)
      (fun d => d.complete ref .success (d.featureValue ref.fix (fn d).feat fid nsid value))) ∧
    (∀ ty info page t, row (.asynchronousEventRequest ref) ref (fun d => (fn d).events = (ty, info, page) :: t)
      (fun d => ((d.modFn ref.fix (fun f => { f with events := t })).emit (.aen ref.fix ty info page)).complete ref .success
        (ty + 256 * info + 65536 * page))) ∧
    row (.asynchronousEventRequest ref) ref (fun d => (fn d).events = [] ∧ (fn d).aers.length < 8)
      (fun d => (d.modFn ref.fix (fun f => { f with aers := f.aers ++ [ref] })).modCmd ref (fun c => { c with job := .aer })) ∧
    row (.deviceSelfTestShort ref) ref (fun d => d.nvm.selfTest.running = 0) (fun d => done
      (({ d with nvm := { d.nvm with selfTest := { d.nvm.selfTest with running := 1, fix := ref.fix } } }).firmwareFlowMode 1)) ∧
    row (.deviceSelfTestExtended ref) ref (fun d => d.nvm.selfTest.running = 0) (fun d => done
      (({ d with nvm := { d.nvm with selfTest := { d.nvm.selfTest with running := 2, fix := ref.fix } } }).firmwareFlowMode 1)) ∧
    Does (.deviceSelfTestComplete none) (fun d => d.nvm.selfTest.running ≠ 0) (fun d => (d.endSelfTest 0).firmwareFlowMode 0) ∧
    Does (.controllerShutdownNormal ref.fix) (fun d => d.canShutDown ref.fix = true) (fun d => d.beginShutdown ref.fix 1) ∧
    Does (.controllerShutdownAbrupt ref.fix) (fun d => d.canShutDown ref.fix = true) (fun d =>
      let e := d.beginShutdown ref.fix 2
      e.forEach (e.nvm.cmds.filter (fun c => decide (c.ref.fix = ref.fix) && (!c.begun || decide (c.job = .aer))))
        (fun d c => d.cancelCmd c .abortRequested))

/-! ## Namespaces and reservations -/

/-- R73, R91, R92, R188, R476: creating, deleting, attaching and formatting namespaces, and Sanitize. -/
def Obligations.NamespaceCommands : Prop :=
  ∀ (ref : CmdRef) (nsid : Nat) (n : Ns),
    let row := RunsCmd Dev.nsMay
    let h (d : Dev) := d.hostOf ref.fix
    let job (j : Job) (k : Nat) (d : Dev) : Dev := d.modCmd ref (fun c => { c with job := j, waits := k, started := true })
    (∀ nsze ncap lbaf first ext kpio sh, lbaf ≤ 5 → nsze ≠ 0 → ncap ≤ nsze →
      let granules := ceilDiv nsze (lbasPer lbaf)
      let count := ceilDiv granules (2 ^ 20)
      row (.namespaceCreate ref nsze ncap lbaf ext kpio sh true) ref
        (fun d => d.nvm.noSuperblock = false ∧ d.canIssue 29 0 1 = true ∧ d.freeNsid = some nsid ∧
          lowestRun d.map.rootUsed count = some first ∧ d.key.locked = false)
        (fun d =>
          let n : Ns := { lbaf := lbaf, extended := ext, kpio := kpio, granules := granules, rootFirst := first
                          rootCount := count, nsze := nsze, shared := sh }
          let e := (d.issue 29 0 1).modPool 30 (fun q => { q with capacity := q.capacity + granules })
          let e : Dev := { e with map := { e.map with rootUsed := e.map.rootUsed ++ [(first, count)] } }
          let e := (e.setNs nsid (some n)).newMediaKey nsid
          ((e.hostRead ref.fix 4096).modCmd ref (fun c =>
            { c with job := .nsCreate nsid, waits := 1, dw0 := nsid })).record 6 nsid 0 lbaf granules
            (some ref))) ∧
    row (.namespaceDelete ref nsid) ref (fun d => d.nsNamed nsid ≠ [] ∧ d.formatting (d.nsNamed nsid) = false)
      (fun d =>
        let e := job (.nsDelete nsid) (d.nsNamed nsid).length d
        e.forEach (d.nsNamed nsid) (fun d i => d.beginDelete i)) ∧
    (n.ready = true →
      (∀ l, row (.namespaceAttach ref nsid (some l)) ref
        (fun d => d.ns nsid = some n ∧ d.ctrlListBad l = false ∧ (∀ f ∈ l, f ∉ n.attached) ∧
          (n.shared = true ∨ (n.attached = [] ∧ l.length ≤ 1)) ∧ d.nvm.noSuperblock = false)
        (fun d => (((d.hostRead ref.fix 4096).modNs nsid (fun n =>
          { n with attached := l.foldl setIns n.attached })).noticeTo nsid l).complete ref .success)) ∧
      (∀ l, row (.namespaceDetach ref nsid (some l)) ref
        (fun d => d.ns nsid = some n ∧ d.ctrlListBad l = false ∧ ∀ f ∈ l, f ∈ n.attached)
        (fun d => (((d.hostRead ref.fix 4096).modNs nsid (fun n =>
          { n with attached := n.attached.filter (fun f => decide (f ∉ l)) })).noticeTo nsid l).complete ref .success))) ∧
    (∀ lbaf ext, lbaf ≤ 5 → nsid ≠ 0xFFFFFFFF → row (.formatNvm ref nsid lbaf 0 ext 0) ref
      (fun d => d.nsNamed nsid = [nsid] ∧ d.formatting [nsid] = false ∧ d.ns nsid = some n ∧
        n.resv.mayWrite (h d) = true)
      (fun d =>
        let e := d.abortSelfTest 4
        let e := (e.modNs nsid (fun n => n.formatted lbaf ext)).nsChanged nsid
        let e := job (.format nsid) 1 e
        match e.ns nsid with
        | some n => e.record 6 nsid 2 n.lbaf n.granules
        | none => e)) ∧
    (∀ r : JRec, r.ty = 6 → r.b = 3 → r.a = nsid →
      Does (.formatClearComplete nsid) (fun d => d.jrn.ring.find? (fun r => !r.durable) = some r) Dev.recordDurable) ∧
    (∀ c : Cmd, c.job = .sanitize → Does (.sanitizeCryptoErase ref)
      (fun d => d.live ref = some c ∧ d.cmd ref = some c ∧ d.nvm.sanitize = 1 ∧ d.startedLeft = false ∧ d.hrt.wbs = [])
      (fun d => d.beginErase.complete ref .success)) ∧
    RunsCmd Dev.nsMay (.sanitizeCryptoErase ref) ref (fun d => d.key.locked = false)
      (fun d =>
        let e := d.abortSelfTest 4
        let e : Dev := { e with nvm := { e.nvm with sanitize := 1, sanStatus := 2, sanPhase := 1, sanAction := 4 } }
        ((e.record 8 0 0 0 0).modCmd ref (fun c => { c with job := .sanitize, started := true })).trySanitize ref) ∧
    (∀ c : Cmd, c.job = .sanitize → Does (.sanitizeBlockErase ref)
      (fun d => d.live ref = some c ∧ d.cmd ref = some c ∧ d.nvm.sanitize = 2 ∧ d.startedLeft = false ∧ d.hrt.wbs = [])
      (fun d => d.beginErase.complete ref .success)) ∧
    RunsCmd Dev.nsMay (.sanitizeBlockErase ref) ref (fun d => d.key.locked = false)
      (fun d =>
        let e := d.abortSelfTest 4
        let e : Dev := { e with nvm := { e.nvm with sanitize := 2, sanStatus := 2, sanPhase := 1, sanAction := 2 } }
        ((e.record 8 0 0 0 0).modCmd ref (fun c => { c with job := .sanitize, started := true })).trySanitize ref) ∧
    RunsCmd Dev.pfMay (.sanitizeOverwrite ref) ref (fun _ => True) (fun d => d.complete ref .invalidField) ∧
    Does .sanitizeComplete (fun d => d.nvm.sanitize ≠ 0 ∧ d.nvm.sanPhase = 2 ∧ d.sanitizeDone = true) (fun d =>
      let e := (d.newIkey 0).record 8 2 0 0 0
      let e : Dev := { e with nvm := { e.nvm with sanitize := 0, sanPhase := 0, sanStatus := 1 } }
      e.forEach e.pfs (fun d f => d.postAen f 6 1 0x81))

/-- R74: Reservation Register adds the host's key, Acquire takes a free reservation, Release gives it up, Clear
removes every key, and Report transfers the data structure. -/
def Obligations.ReservationCommands : Prop :=
  ∀ (ref : CmdRef) (nsid rtype cur new : Nat) (kd : KeyData) (n : Ns) (r : Resv),
    let good (len : Nat) : Prop := kd.keys = some (cur, new) ∧ sglCheck .toDevice kd.ptr len none = none
    let read (len : Nat) (d : Dev) : Dev := d.hostRead ref.fix len
    let row (i : Instr) (h : Dev → Prop) (e : Dev → Dev) : Prop :=
      RunsCmd Dev.ioMay i ref (fun d => d.ns nsid = some n ∧ n.ready = true ∧ ref.fix ∈ n.attached ∧ n.resv = r ∧ h d) e
    let done (d : Dev) : Dev := d.complete ref .success
    let host (d : Dev) := d.hostOf ref.fix
    (∀ st, sglCheck .toDevice kd.ptr 16 none = some st →
      row (.reservationRegister ref nsid 0 false 0 kd) (fun _ => True) (fun d => d.complete ref st)) ∧
    (good 16 → row (.reservationRegister ref nsid 0 false 0 kd)
      (fun d => r.keys.find? (fun k => k.1 = host d) = none)
      (fun d => done ((read 16 d).setResv nsid { r with
        gen := (r.gen + 1) % 2 ^ 32
        keys := r.keys.filter (fun k => k.1 ≠ host d) ++ [(host d, ref.fix, new)] }))) ∧
    (good 16 → ∀ k, row (.reservationRegister ref nsid 0 false 0 kd)
      (fun d => r.keys.find? (fun k => k.1 = host d) = some k ∧ k.2.2 ≠ new)
      (fun d => (read 16 d).complete ref .reservationConflict)) ∧
    (good 16 → 1 ≤ rtype → rtype ≤ 6 → r.rtype = 0 →
      row (.reservationAcquire ref nsid 0 false rtype kd) (fun d => r.knows (host d) cur = true)
        (fun d => done ((read 16 d).setResv nsid { r with rtype := rtype, holder := host d }))) ∧
    (good 16 → 1 ≤ rtype → rtype ≤ 6 → row (.reservationAcquire ref nsid 0 false rtype kd)
      (fun d => r.knows (host d) cur = false) (fun d => (read 16 d).complete ref .reservationConflict)) ∧
    (good 8 → row (.reservationRelease ref nsid 0 false r.rtype kd)
      (fun d => r.knows (host d) cur = true ∧ r.holds (host d) = true)
      (fun d =>
        let e := (read 8 d).setResv nsid r.released
        done (if 3 ≤ r.rtype then e.notifyResv nsid 2 (r.ctrls (fun k => decide (k.1 ≠ host d))) else e))) ∧
    (good 8 → row (.reservationRelease ref nsid 1 false rtype kd) (fun d => r.knows (host d) cur = true)
      (fun d => done (((read 8 d).setResv nsid { r.released with keys := [], gen := (r.gen + 1) % 2 ^ 32 }).notifyResv nsid 3
        (r.ctrls (fun k => decide (k.1 ≠ host d)))))) ∧
    (∀ len ext ptr, sglCheck .toHost ptr len none = none → row (.reservationReport ref nsid len ext ptr) (fun _ => True)
      (fun d => done (d.emit (.toHost ref 0 (slice (r.report ext) 0 len)))))

/-! ## Vendor commands, images, firmware -/

/-- R96, R97, R99, R102, R103, R105, R235: policy tables, Manifest and Tollgate reports, images, Compute Submit. -/
def Obligations.VendorCommands : Prop :=
  ∀ (ref : CmdRef) (table len : Nat) (b : Bytes),
    let pf := RunsCmd Dev.pfMay
    let done (d : Dev) : Dev := d.complete ref .success
    (table ∈ policyIds → 32 ≤ len → len ≤ 65536 → len % 8 = 0 →
      (∀ st off, st ≠ .success → pf (.policyTableLoad ref table 0 len (some b)) ref
        (fun d => policyCheck (d.hostRead ref.fix len) table len (padTo len b) = (st, off))
        (fun d => (d.hostRead ref.fix len).complete ref st off)) ∧
      (∀ off, pf (.policyTableLoad ref table 0 len (some b)) ref
        (fun d => policyCheck (d.hostRead ref.fix len) table len (padTo len b) = (.success, off))
        (fun d =>
          let e := d.hostRead ref.fix len
          done { e with nvm := { e.nvm with stored := fset e.nvm.stored table (some (padTo len b)) } }))) ∧
    (table ∈ policyIds → 4 ≤ len → len ≤ 65536 → len % 4 = 0 →
      pf (.policyTableReadActive ref table len) ref (fun _ => True) (fun d =>
        (d.emit (.toHost ref 0 (padTo len (d.tbl table)))).complete ref .success (d.tbl table).length) ∧
      pf (.policyTableReadFactory ref table len) ref (fun _ => True) (fun d =>
        let t := factoryTable d.emb.extended table
        (d.emit (.toHost ref 0 (padTo len t))).complete ref .success t.length)) ∧
    (∀ first count, RunsCmd Dev.adminMay (.manifestQuery ref first count len) ref (fun _ => True) (fun d =>
      let l := (unitIds.filter (fun u => decide (first ≤ u))).take (min count (len / 64))
      (d.emit (.toHost ref 0 (l.map d.record436).flatten)).complete ref .success l.length)) ∧
    (∀ mask clear, bitsSet mask 32 ≠ [] → RunsCmd Dev.adminMay (.tollgateReport ref mask clear (64 * (bitsSet mask 32).length))
      ref (fun _ => True) (fun d =>
        let e := d.emit (.toHost ref 0 ((bitsSet mask 32).map d.poolRecord).flatten)
        done (if (clear && d.isPf ref.fix) = true then e.forEach (bitsSet mask 32) Dev.clearViolated else e))) ∧
    (∀ addr out, RunsCmd Dev.ioMay (.computeSubmit ref addr (some b) out) ref
      (fun d => (d.hostRead ref.fix 256).waybillCheck ref.fix addr b out = none)
      (fun d =>
        let w := (d.hostRead ref.fix 256).accepted ref b
        let r := (d.hostRead ref.fix 256).request 20 ref.fix 1 (.waybill w.id)
        let e : Dev := { r.1 with hrt := { r.1.hrt with
          nextWb := r.1.hrt.nextWb + 1, wbs := r.1.hrt.wbs ++ [{ w with got := if r.2 = true then [20] else [] }] } }
        e.modCmd ref (fun c => { c with job := .compute w.id }))) ∧
    (∀ addr out st off, RunsCmd Dev.ioMay (.computeSubmit ref addr (some b) out) ref
      (fun d => (d.hostRead ref.fix 256).waybillCheck ref.fix addr b out = some (st, off))
      (fun d => (d.hostRead ref.fix 256).complete ref st off)) ∧
    (∀ sign col set grp c e, Does (.nolobImageLoad ref len sign (some b) col set grp)
      (fun d => d.live ref = some c ∧ c.job = .plain ∧ c.ran = false ∧ d.nolobCheck ref.fix len sign b = none ∧
        (d.placePages col set grp 3 (ceilDiv b.length 16384)).isSome = true ∧
        (d.hostRead ref.fix b.length).request 23 ref.fix 1 (.cmd ref) = (e, true))
      (fun _ => e.nolobStore ref b col set grp)) ∧
    (∀ handle im, RunsCmd Dev.adminMay (.nolobImageUnload ref handle) ref (fun d => d.ownImage ref.fix handle = some im)
      (fun d => (d.modImage (handle % 4096) (fun im => { im with unloading := some ref })).modCmd ref
        (fun c => { c with ran := true, job := .imageUnload (handle % 4096) }))) ∧
    (∀ slot im, im.unloading = some ref → Does (.imageUnloadComplete slot)
      (fun d => d.image slot = some im ∧ ∀ w ∈ d.hrt.wbs, w.slot ≠ slot)
      (fun d => done (d.removeImage slot im)))

/-- R402, R405: a download piece joins the buffer; a commit checks the image, writes or names its slot, and activates;
the activation ends or times out. -/
def Obligations.FirmwareCommands : Prop :=
  ∀ (ref : CmdRef) (fs slot us : Nat) (cert : Option Bytes) (profiles : List DieProfile)
    (i : FwImage),
    let pf := RunsCmd Dev.pfMay
    let empty (d : Dev) : Dev := { d with nvm := { d.nvm with fwBuf := {} } }
    let free (d : Dev) : Prop := d.nvm.fwBusy = none ∧ d.nvm.sanitize = 0 ∧ d.fsSlot fs = some slot
    let goodBuf (d : Dev) : Prop := free d ∧ d.nvm.fwBuf.pieces ≠ [] ∧ slot ≠ d.bot.slot ∧
      fwParse d.nvm.fwBuf.image cert profiles = some i ∧ i.passes d.bootRec.minSvn = true
    let write (action : Nat) (d : Dev) : Dev :=
      let e := (empty d).modCmd ref (fun c => { c with job := .fwSlot, started := true })
      { e with
        bot := { e.bot with slots := fset e.bot.slots slot none }
        nvm := { e.nvm with fwBusy := some ref, fwAction := action, fwSlot := slot, fwImage := some i } }
    (∀ offset b, 4096 ∣ b.length → b ≠ [] → 4096 ∣ offset → offset + b.length ≤ slotBytes →
      pf (.firmwareImageDownload ref offset (some b)) ref
        (fun d => ∀ p ∈ d.nvm.fwBuf.pieces, offset + b.length ≤ p.1 ∨ p.1 + p.2 ≤ offset)
        (fun d => (({ d with nvm := { d.nvm with fwBuf :=
          { pieces := d.nvm.fwBuf.pieces ++ [(offset, b.length)]
            bytes := mwrite d.nvm.fwBuf.bytes offset b } } }).hostRead ref.fix b.length).complete ref .success)) ∧
    pf (.firmwareCommitReplace ref 0 fs cert profiles) ref goodBuf (write 0) ∧
    pf (.firmwareCommitReplaceActivate ref fs cert profiles) ref goodBuf (write 1) ∧
    pf (.firmwareCommitActivate ref fs) ref
      (fun d => free d ∧ d.fwSlotImage slot = some i ∧ i.passes d.bootRec.minSvn = true)
      (fun d => (empty d).afterImage ref 2 slot i) ∧
    (∀ c, c.job = .fwActivate → us ≤ 200000 → Does (.firmwareCommitActivateNow ref fs us cert profiles)
      (fun d => d.cmd ref = some c ∧ d.bot.stage = 2 ∧ d.quietForActivation ref = true ∧ d.slotOk d.nvm.fwSlot = true)
      (fun d =>
        let e := (d.startSlot d.nvm.fwSlot).startWdt
        let e : Dev := { e with
          qen := { e.qen with pausedAct := false }
          nvm := { e.nvm with fwBusy := none, fwAction := 0 }
          bot := { e.bot with pauseUs := us, activations := satAdd 32 e.bot.activations 1 } }
        e.complete ref .success)) ∧
    Does (.firmwareSlotWritten true) (fun d => d.nvm.fwBusy = some ref ∧ d.nvm.fwImage = some i)
      (fun d => (d.rewriteSlot d.nvm.fwSlot i.bytes (some i)).afterImage ref d.nvm.fwAction d.nvm.fwSlot i) ∧
    (∀ failed, Does (.activationTimeout failed) (fun d => d.bot.stage = 2) (fun d => d.abruptReset [4] failed))

/-! ## Keys and engines -/

/-- R325, R327, R331, R332, R336: generating, querying, binding, unbinding, destroying and importing keys; an alarm;
the reseed of the DRBG. A rekey without data generates. -/
def Obligations.KeyCommands : Prop :=
  ∀ (ref : CmdRef) (slot nsid tag cdw15 lim : Nat),
    let row := RunsCmd Dev.adminMay
    let owned (d : Dev) : Prop := slot < 4096 ∧ (d.kslot slot).ownedBy ref.fix = true
    let done (d : Dev) : Dev := d.complete ref .success
    let release (f : Cmd → Cmd) (d : Dev) : Dev :=
      let e := d.modCmd ref f
      ((e.cmd ref).map e.releaseDone).getD e
    row (.keySlotQuery ref slot 64) ref (fun d => owned d ∧ (d.slotRecord slot (d.kslot slot)).length = 64)
      (fun d => done (d.emit (.toHost ref 0 (d.slotRecord slot (d.kslot slot))))) ∧
    row (.keySlotQuery ref slot 64) ref (fun d => slot < 4096 ∧ (d.kslot slot).ownedBy ref.fix = false)
      (fun d => done (d.emit (.toHost ref 0 (leBytes 2 slot ++ zeroBytes 62)))) ∧
    (limitOf cdw15 = some lim → bitsOf cdw15 0 4 = 1 → ∀ e,
      row (.keySlotGenerate ref 0 cdw15) ref (fun d => d.key.locked = false ∧
          (d.modCmd ref (fun c => { c with args := [4096, lim, 1, 64] })).request 28 ref.fix 1 (.cmd ref) = (e, true))
        (fun _ => e.storeGenerated ref)) ∧
    (limitOf cdw15 = some lim → ∀ len b e e2,
      row (.keySlotImport ref len cdw15 (some b)) ref (fun d => d.key.locked = false ∧
          (d.hostRead ref.fix b.length).blobChecks ref.fix b len none = .ok e ∧
          (e.modCmd ref (fun c => { c with data := b, args := [4096, lim] })).request 28 ref.fix 1 (.cmd ref) = (e2, true))
        (fun _ => e2.startUnwrap ref)) ∧
    (limitOf cdw15 = some lim → row (.keySlotRekey ref slot 0 cdw15 none) ref
      (fun d => d.key.locked = false ∧ owned d ∧ (d.kslot slot).ktype = bitsOf cdw15 0 4 ∧
        ((d.kslot slot).ktype = 2 ∨ (d.kslot slot).ktype = 3))
      (fun d =>
        let k := d.kslot slot
        let g := d.genKey k.ktype k.key.length 64
        done ((g.2.flushLaneKeys k.serial).putKey slot ref.fix k.ktype lim 0 g.1))) ∧
    row (.keySlotBind ref slot nsid tag) ref (fun d => owned d ∧ tag < 4096 ∧ (d.kslot slot).ktype = 1 ∧
        (d.kslot slot).state ≠ 2 ∧ d.boundTo nsid tag = none ∧
        ∃ n, d.ns nsid = some n ∧ n.kpio = true ∧ ref.fix ∈ n.attached)
      (fun d => done (({ d with key := { d.key with bindings := d.key.bindings ++ [(nsid, tag, slot)] } }).vaultWrite)) ∧
    row (.keySlotUnbind ref slot nsid tag) ref (fun d => owned d ∧ d.boundTo nsid tag = some slot)
      (fun d => release (fun c =>
          { c with job := .keyRelease 4096, after := d.usersOf (d.kslot slot).serial [(nsid, tag, slot)] })
        (({ d with key := { d.key with
          bindings := d.key.bindings.filter (fun b => decide (b ≠ (nsid, tag, slot))) } }).vaultWrite)) ∧
    row (.keySlotDestroy ref slot) ref owned
      (fun d => release (fun c => { c with
          job := .keyRelease slot, after := d.usersOf (d.kslot slot).serial (d.bindingsOf slot), args := [(d.kslot slot).serial] })
        (({ d with key := { d.key with
          bindings := d.key.bindings.filter (fun b => b.2.2 ≠ slot)
          slots := d.key.slots.filter (fun p => p.1 ≠ slot) } }).vaultWrite)) ∧
    (∀ c k, c.job = .keyRelease k → Does (.keyReleaseComplete ref) (fun d => d.cmd ref = some c) (fun d => d.releaseDone c)) ∧
    (∀ src, src < 4 → Does (.keyAlarm src) (fun d => d.domOn .control = true) (fun d => d.alarm src)) ∧
    Does .drbgReseed (fun d => 2 ^ 20 ≤ d.key.drbg)
      (fun d => { d with key := { d.key with drbg := 0, seeds := satAdd 32 d.key.seeds 1 } })

/-- R300, R301, R309, R312, R316, R317, R320, R339, R340: placing, segments, ends and retirement of engine jobs. -/
def Obligations.EngineJobsRun : Prop :=
  ∀ (inst k c : Nat) (j : CJob) (g : DCtx) (a : AJob),
    (∀ e t, Does .cxeContextPlace (fun d => d.placeAt 0 = some k ∧ d.takeCjob d.cxe.waiting = some (e, j, t))
      (fun _ => ({ e with cxe := { e.cxe with waiting := t } }).setCjob k j)) ∧
    (inst < 8 → Does (.cxeSegment inst) (fun d => (d.eng 0 inst).retired = false ∧
        d.nextCtx 0 inst 16 (fun c => decide ((d.cjob (16 * inst + c)).state = 1 ∨
          ((d.cjob (16 * inst + c)).state = 2 ∧ (d.cjob (16 * inst + c)).trace ≠ []))) = some c ∧
        d.planJob (d.cjob (16 * inst + c)) = j)
      (fun d =>
        let r := segmentWork j.trace 65536 (if j.op = 0 then none else some 65536)
        ((d.putInst j.wb (j.dst + BitVec.ofNat 64 j.produced) ((j.plan.drop j.produced).take r.2.1)).setCjob (16 * inst + c)
          { j with state := 2, trace := r.2.2, consumed := j.consumed + r.1, produced := j.produced + r.2.1
                   segments := satAdd 32 j.segments 1 }).modEng 0 inst (fun e =>
          { e with turn := (c + 1) % 16, inBytes := e.inBytes + r.1, outBytes := e.outBytes + r.2.1 }))) ∧
    (j.state = 2 → j.trace = [] → j.outcome = 0 → Does (.cxeJobEnd k) (fun d => d.cjob k = j)
      (fun d => ((((d.modEng 0 (k / 16) (fun e => { e with jobs := e.jobs + 1 })).freeCjob k).giveBack 25 j.fix 1).engEvent 0
        (k / 16)).opOver j.wb j.ticket 0 j.produced)) ∧
    (inst < 8 → g.final = false → Does (.dgeSegment inst) (fun d => (d.placeDge.eng 1 inst).retired = false ∧
        d.placeDge.dctx (16 * inst + c) = g ∧
        d.placeDge.nextCtx 1 inst 16 (fun c => decide ((d.placeDge.dctx (16 * inst + c)).state = 1 ∨
          ((d.placeDge.dctx (16 * inst + c)).state = 2 ∧
            (d.placeDge.dctx (16 * inst + c)).done < (d.placeDge.dctx (16 * inst + c)).len))) = some c)
      (fun d =>
        let n := min 65536 (g.len - g.done)
        let b := d.placeDge.srcBytes g.wb (g.src.toNat + g.done) n
        let e := d.placeDge.modDigest g.wb (fun x => x.map (fun x => { x with msg := x.msg ++ b }))
        (e.setDctx (16 * inst + c) { g with
          state := 2, done := g.done + n, segments := min (g.segments + 1) (2 ^ 22 - 1) }).modEng 1 inst (fun e =>
            { e with turn := (c + 1) % 16, inBytes := e.inBytes + n }))) ∧
    (g.state = 2 → g.final = false → g.done = g.len → Does (.dgeStatePark k) (fun d => d.dctx k = g) (fun d =>
      let e := d.modDigest g.wb (fun x => x.map (fun x => { x with wrapSerial := (d.ikey 1).serial }))
      (e.wrapOnce.opOver g.wb g.ticket 0 0).endDge k)) ∧
    (inst < 8 → c < 16 → Does (.aeeSegment inst true true) (fun d => (d.placeAee.eng 2 inst).retired = false ∧
        d.placeAee.ajob (16 * inst + c) = a ∧
        d.placeAee.nextCtx 2 inst 17 (fun c => (if c = 16 then d.placeAee.fjob inst
          else d.placeAee.ajob (16 * inst + c)).hasWork) = some c)
      (fun d => (d.placeAee.setAjob (16 * inst + c) a.segment).modEng 2 inst (fun e => { e with
        turn := (c + 1) % 17, inBytes := e.inBytes + (a.segment.done - a.done), mismatch := e.mismatch }))) ∧
    (k < 1000 → a.state = 2 → a.text.length ≤ a.done → a.finish.1 ≠ 1 → Does (.aeeJobEnd k) (fun d => d.ajob k = a)
      (fun d => ((((d.modEng 2 (k / 16) (fun e => { e with jobs := e.jobs + 1 })).engEvent 2 (k / 16)).freeAjob k).aeeOutcome a
        a.finish.1 a.finish.2).placeAee)) ∧
    (g.state ≠ 0 → Does (.contextBusError 1 k) (fun d => d.dctx k = g) (fun d =>
      (((d.modEng 1 (k / 16) (fun e => { e with zeroised := satAdd 32 e.zeroised 1 })).endDge k).transition
        (uid 1 (g.caller / 4)) .degraded .hardware).faultInstance g.wb 4 0)) ∧
    (inst < 8 →
      Does (.engineEccRetire 0 inst) (fun d => (d.eng 0 inst).retired = false) (fun d => d.retireCxe inst) ∧
      Does (.engineEccRetire 1 inst) (fun d => (d.eng 1 inst).retired = false) (fun d => d.retireDge inst) ∧
      Does (.engineEccRetire 2 inst) (fun d => (d.eng 2 inst).retired = false) (fun d => d.retireAee inst .engineEcc))

/-! ## Cartridges -/

/-- R162, R163, R164, R165, R220, R440: presence, power-up, power-down, rebuild and loss of a cartridge. -/
def Obligations.CartridgeEvents : Prop :=
  ∀ (g : Nat), g < 8 →
    let c (d : Dev) := d.grp g
    let st (d : Dev) := (d.unit (uid 5 g)).state
    let gone (d : Dev) : Dev := d.modGrp g (fun c => { c with present := false, admitted := false, step := 0 })
    let powered (d : Dev) : Dev := d.modGrp g (fun c => { c with step := 6, profile := d.groupProfile g })
    let channels (d : Dev) : Dev := (powered d).forEach (chansOfGroup g) (fun d n =>
      if (d.chan n).trained = true then
        (if (d.chan n).rate = 4 then d.transition (uid 3 n) .alive .none else d.transition (uid 3 n) .degraded .rateDown)
      else d)
    let met (d : Dev) : Dev :=
      ((channels d).forEach (diesOfGroup g) (fun e n => e.identify g (decide (st d = .absent)) n)).forEach (chansOfGroup g)
        (fun d n => d.countDies n)
    let dies (d : Dev) : Dev :=
      ((met d).forEach ((diesOfGroup g).filter (fun n => !(met d).dieAlive n)) (fun d n => d.strandColumn (colOf n))).recapMedia
    (∀ seated, Does (.cartPresenceChange g seated) (fun _ => True) (fun d => d.modGrp g (fun c => { c with presRaw := seated }))) ∧
    Does (.insertionDebounced g) (fun d => (c d).presRaw = true ∧ (c d).present = false)
      (fun d => ((d.modGrp g (fun c => { c with
        present := true, insert := true, insertions := satAdd 32 c.insertions 1
        admitted := d.crt.autoA && decide (st d = .absent) })).driveAttn g false).srcEvent (70 + g)) ∧
    Does (.removalCounted g) (fun d => (c d).presRaw = false ∧ (c d).present = true ∧
        ((gone d).prepared g = false ∨ (c d).pwren = true ∨ (c d).owner.isSome = true))
      (fun d => (gone d).loseGroup g .surpriseRemoval) ∧
    Does (.removalCounted g) (fun d => (c d).presRaw = false ∧ (c d).present = true ∧ (c d).pwren = false ∧
        (c d).owner = none ∧ (gone d).prepared g = true)
      (fun d => ((((gone d).modGrp g (fun c => { c with remove := true })).srcEvent (70 + g)).transition (uid 5 g) .absent
        .removed).belowAbsent g .parent) ∧
    Does (.pgoodFall g) (fun d => (c d).pgood = true ∧ (c d).pwren = true)
      (fun d => (d.modGrp g (fun c => { c with pgood := false })).loseGroup g .pgoodFail) ∧
    (∀ found, Does (.cartridgeAdmission g found) (fun d => (c d).admitted = true ∧ (c d).present = true ∧
        d.domOn .data = true ∧ (d.nvm.ready = true ∨ ∀ x < g, (d.grp x).admitted = false) ∧ st d = .absent)
      (fun d =>
        let e := d.modGrp g (fun c => { c with
          admitted := false, fenced := false, step := 1, down := 0, found := found.filter (fun x => decide (groupOf x.1 = g)) })
        let e := (e.drivePwren g true).driveAttn g false
        { e with par := { e.par with rebuilt := fset e.par.rebuilt g 0, pointers := fset e.par.pointers g (0, 0) } })) ∧
    Does (.pgoodRise g) (fun d => (c d).pwren = true ∧ (c d).step ≠ 1) (fun d => d.modGrp g (fun c => { c with pgood := true })) ∧
    Does (.pgoodRise g) (fun d => (c d).pwren = true ∧ (c d).step = 1)
      (fun d => (d.modGrp g (fun c => { c with pgood := true, step := 2 })).bringUp g) ∧
    Does (.pgoodTimeout g) (fun d => (c d).step = 1 ∧ (c d).pgood = false)
      (fun d =>
        let e := ((d.modGrp g (fun c => { c with pgoodFail := true, step := 0 })).drivePwren g false).srcEvent (70 + g)
        let f := (e.transition (uid 5 g) .absent .pgoodFail).belowAbsent g .parent
        if (e.unit (uid 5 g)).state = .absent then f else f.groupLost g) ∧
    Does (.cartridgePowerUpDone g) (fun d => (c d).step = 2 ∧ (c d).pgood = true ∧
        (∀ n ∈ chansOfGroup g, (d.chan n).trained = true ∨ (d.unit (uid 3 n)).state = .retired) ∧
        ∀ n ∈ chansOfGroup g, ((met d).chan n).trained = false)
      (fun d => (met d).recapMedia.transition (uid 5 g) .retired .allChannels) ∧
    Does (.cartridgePowerUpDone g) (fun d => (c d).step = 2 ∧ (c d).pgood = true ∧ st d = .absent ∧ d.nvm.ready = false ∧
        (∀ n ∈ chansOfGroup g, (d.chan n).trained = true ∨ (d.unit (uid 3 n)).state = .retired) ∧
        (∃ n ∈ chansOfGroup g, ((met d).chan n).trained = true) ∧
        ((dies d).admitBlocks g).toRebuild g = false ∧
        ((((dies d).admitBlocks g).transition (uid 5 g) .alive .none)).nvm.ready = false)
      (fun d => (((dies d).admitBlocks g).transition (uid 5 g) .alive .none).keepPointer g) ∧
    Does (.cartridgePowerDown g) (fun d => d.prepared g = true ∧ (c d).owner.isSome = true ∧ (c d).pwren = true ∧
        d.groupIdle g = true ∧ d.stripeOn g = false)
      (fun d => ((d.modGrp g (fun c => { c with down := 1, step := 0 })).setDrivers g false).drivePwren g false) ∧
    (∀ ref, Does (.cartridgeAttnAssert g) (fun d => (c d).down = 1 ∧ (c d).owner = some ref) (fun d =>
      let e := (d.modGrp g (fun c => { c with down := 2, owner := none })).driveAttn g true
      e.serviceDone ref g)) ∧
    Does (.rebuildSet g true []) (fun d => d.rebuilding g = true ∧ (c d).pgood = true ∧ d.nextRebuild g = none)
      (fun d => (d.rebuildDone g).keepPointer g) ∧
    (∀ s r, Does (.quiesceComplete (uid 5 g)) (fun d => (d.unit (uid 5 g)).quiescing = true ∧
        (d.unit (uid 5 g)).pending = some (s, r) ∧ d.startedOn g = false)
      (fun d => (d.transition (uid 5 g) s r).keepPointer g))

/-- R101, R163, R217, R219: the four cartridge actions of a PF; the generation of the group is checked first. -/
def Obligations.CartridgeCommands : Prop :=
  ∀ (ref : CmdRef) (g gen : Nat), g < 8 →
    let st (d : Dev) := (d.unit (uid 5 g)).state
    let free (d : Dev) : Prop := ∀ x < 8, ∀ r, (d.grp x).owner = some r → r.fix = ref.fix ∧ x ≠ g
    let row (i : Instr) (h : Dev → Prop) (e : Dev → Dev) : Prop :=
      RunsCmd Dev.pfMay i ref (fun d => gen = (d.unit (uid 5 g)).generation ∧ free d ∧ h d) e
    let stale (i : Instr) : Prop := RunsCmd Dev.pfMay i ref (fun d => gen ≠ (d.unit (uid 5 g)).generation)
      (fun d => ({ d with mnf := { d.mnf with stale := satAdd 32 d.mnf.stale 1 } }).complete ref .staleGeneration)
    RunsCmd Dev.pfMay (.cartridgeQuery ref g) ref (fun _ => True)
      (fun d => (d.emit (.toHost ref 0 (d.record436 (uid 5 g)))).serviceDone ref g) ∧
    stale (.cartridgePrepareRemoval ref g gen) ∧ stale (.cartridgeAdmit ref g gen) ∧ stale (.cartridgeCancelRemoval ref g gen) ∧
    row (.cartridgePrepareRemoval ref g gen)
      (fun d => (st d = .alive ∨ st d = .degraded) ∧ d.missingFor g ≤ if d.sevenInUse = true then 1 else 2)
      (fun d => (d.modCmd ref (fun c => { c with job := .prepare g, started := true })).prepare g ref) ∧
    row (.cartridgeAdmit ref g gen) (fun d => st d = .absent ∧ (d.grp g).present = true ∧ (d.grp g).admitted = false ∧
        (d.grp g).step = 0)
      (fun d => (d.modGrp g (fun c => { c with admitted := true })).serviceDone ref g) ∧
    row (.cartridgeCancelRemoval ref g gen) (fun d => d.prepared g = true ∧ d.toRebuild g = false)
      (fun d => (((d.transition (uid 5 g) .alive .none).keepPointer g).modGrp g (fun c =>
        { c with admitted := true })).serviceDone ref g) ∧
    row (.cartridgeCancelRemoval ref g gen) (fun d => d.prepared g = false) (fun d => d.complete ref .cartridgeState)

/-! ## Code flash, boot, watchdog, interrupts -/

/-- R386, R387, R389, R391, R392, R393, R394: PROGRAM and ERASE start or answer their refusal; reads, status, suspend
and resume answer; an operation ends with its status; a faulting read is counted and gets a bus error; XO_UNLOCK is
honoured from the ROM in stage 2 only. -/
def Obligations.CodeFlashOperates : Prop :=
  ∀ (n off len us pulses : Nat) (data : Bytes) (o : FlashOp),
    let on (d : Dev) : Prop := d.domOn .control = true
    let ans (st : Nat) (d : Dev) : Dev := d.emit (.flashStatus st)
    let status : Option Nat → Dev → Dev → Dev := fun r d e => match r with
      | some st => ans st d
      | none => e
    let free (d : Dev) : Prop := d.wdt.state = 0 ∧ d.cfl.op = none ∧ d.isProtected n = false
    (∀ r, programBad n off data.length = false → Does (.flashProgram n off data)
      (fun d => on d ∧ free d ∧ d.wordRefusal n (off / 8) (wordsOf data) = r)
      (fun d => status r d (ans 0 (({ d with cfl := { d.cfl with
        op := some { isErase := false, sector := n, offset := off, words := wordsOf data } } }).spoilSlot n)))) ∧
    (programBad n off data.length = true → Does (.flashProgram n off data) on (ans 2)) ∧
    (isSector n = true → Does (.flashErase n) (fun d => on d ∧ free d) (fun d =>
      ans 0 (({ d with cfl := { d.cfl with op := some { isErase := true, sector := n } } }).beginSectorErase n))) ∧
    (isSector n = true → Does (.flashReadInfo n) on (fun d => ans 0 (d.emit (.flashData (d.sector n).info)))) ∧
    (isSector n = false → Does (.flashReadInfo n) on (ans 2) ∧ Does (.flashErase n) on (ans 2)) ∧
    Does .flashStatus on (fun d => ans 0 (d.emit (.flashData d.cfl.statusBytes))) ∧
    (1 ≤ len → off + len ≤ 4096 → Does (.flashReadCal off len) on (fun d =>
      ans 0 (d.emit (.flashData ((List.range len).map (fun i => d.calAt (off + i))))))) ∧
    (o.isErase = true → o.suspended = false → o.suspends < 8 → 1000 ≤ us → Does (.flashSuspend us)
      (fun d => on d ∧ d.cfl.op = some o) (fun d => ans 0 (d.modFlashOp (fun o => { o with
        suspended := true, suspends := o.suspends + 1, pulses := o.pulses + us / erasePulseUs, ranUs := us
        timeUs := o.timeUs + us })))) ∧
    Does (.flashResume us) (fun d => on d ∧ d.cfl.suspended = true) (fun d => ans 0 (d.resumeErase us)) ∧
    (o.isErase = true → o.suspended = true → 100000 ≤ o.suspUs + us → Does (.flashAutoResume us)
      (fun d => d.cfl.op = some o) (fun d => d.resumeErase us)) ∧
    (o.suspended = false → Does (.flashOperationDone none pulses us) (fun d => d.cfl.op = some o) (fun d =>
      (if o.isErase = true then d.modSector o.sector Sector.erased else d.putWords o.sector (o.offset / 8) o.words).endFlash o
        0 pulses us)) ∧
    (o.isErase = true → Does (.flashOperationAbandoned len) (fun d => d.cfl.op = some o)
      (fun d => d.endFlash o 8 o.pulses 260000)) ∧
    (off < 0x1000000 → ∀ fetch st, Does (.codeFlashReadFault off fetch 0)
      (fun d => on d ∧ d.readFault (sectorAt off) fetch false = some st ∧ st ≠ 2)
      (fun d =>
        let e : Dev := { d with cfl := { d.cfl with faults := satAdd 32 d.cfl.faults 1 } }
        (e.logSev 0x0109 2 noUnit (fields [(1, st), (2, sectorAt off), (4, e.cfl.faults)])).emit
          (.busError (0x1000000 + off)))) ∧
    (off < 0x1000000 → Does (.codeFlashReadFault off false 0) (fun d => on d ∧ d.readFault (sectorAt off) false false = none)
      (fun d => d.emit (.readData (d.flashWord (sectorAt off) (off % sectorLen (sectorAt off) / 8))))) ∧
    Does (.xoUnlock true) (fun d => d.bot.stage = 2) (fun d => { d with cfl := { d.cfl with xoLock := false } }) ∧
    Does (.xoUnlock false) (fun _ => True) (fun d => { d with cfl := { d.cfl with faults := satAdd 32 d.cfl.faults 1 } })

/-- R397, R398, R403: the ROM starts the slot of the record, else the other, else stays FAILED; a trial is confirmed;
the watchdog is kicked and expires in two stages, the second deferred while the flash works. -/
def Obligations.BootAndWatchdog : Prop :=
  ∀ (us key : Nat) (failed : List Nat) (i : FwImage),
    let begun (d : Dev) : Dev :=
      let e := d.startWdt.countTrial
      { e with bot := { e.bot with bootUs := min us (2 ^ 24 - 1) } }
    let at' (d : Dev) : Prop := d.bot.stage = 0 ∧ d.domOn .control = true
    let rec' (d : Dev) := (begun d).bootRec
    Does (.boot us) (fun d => at' d ∧ (begun d).slotOk (rec' d).slot = true) (fun d => (begun d).startSlot (rec' d).slot) ∧
    Does (.boot us) (fun d => at' d ∧ (begun d).slotOk (rec' d).slot = false ∧ (begun d).slotOk (1 - (rec' d).slot) = false)
      (fun d => { begun d with bot := { (begun d).bot with
        stage := 3, slot := (rec' d).slot, minSvn := (rec' d).minSvn, recSeq := (rec' d).seq } }) ∧
    (i.raiseFloor = false → Does .trialConfirm (fun d => d.bot.stage = 1 ∧ d.bot.trial = true ∧
        (d.putRecWord 3 0).fwSlotImage (d.putRecWord 3 0).bot.slot = some i)
      (fun d =>
        let e := d.putRecWord 3 0
        { e with bot := { e.bot with trial := false, record := { e.bot.record with confirmed := true } } })) ∧
    (key % 65536 = 0x4B1C → Does (.wdtKick key) (fun _ => True)
      (fun d => { d with wdt := { d.wdt with state := 0, count := d.wdt.t1A } })) ∧
    (key % 65536 ≠ 0x4B1C → Does (.wdtKick key) (fun _ => True)
      (fun d => { d with wdt := { d.wdt with badKick := satAdd 32 d.wdt.badKick 1 } })) ∧
    Does .wdtStage1Expiry (fun d => d.domOn .control = true ∧ d.wdt.state = 0 ∧ d.wdt.count ≤ epochTicksMax) (fun d =>
      ({ d with wdt := { d.wdt with state := 1, count := 8 * d.wdt.t2A, stage1 := satAdd 32 d.wdt.stage1 1 } }).srcEvent 79) ∧
    Does (.wdtStage2Expiry failed) (fun d => d.domOn .control = true ∧ d.wdt.state = 1 ∧ d.wdt.count ≤ epochTicksMax ∧
        d.cfl.op = none) (fun d => d.wdtReset 0 failed) ∧
    Does (.wdtStage2Expiry failed) (fun d => d.domOn .control = true ∧ d.wdt.state = 1 ∧ d.wdt.count ≤ epochTicksMax ∧
        d.cfl.op.isSome = true ∧ d.cfl.suspended = false)
      (fun d => { d with wdt := { d.wdt with state := 2, count := 0 } }) ∧
    Does (.wdtDeferredReset us failed) (fun d => d.wdt.state = 2 ∧ d.cfl.op = none) (fun d => d.wdtReset us failed)

/-- R366, R369, R372, R373, R374, R376, R380, R381: an event of a source, a withdrawn level, nudges and raises, claims
and completions, a commit, and a watcher that fires. -/
def Obligations.InterruptsMove : Prop :=
  ∀ (bank id w : Nat),
    let count (x : Src) := countUp x.count x.ovf
    (64 ≤ id → id ≤ 1022 → neverPends id = false → isSoft id = false → isLevel id = false →
      Does (.interruptSourceEvent bank id) (fun d => isEmber id = true ∨ d.fastOn = true)
        (fun d => (d.modSrc id (fun x => { x with count := (count x).1, ovf := (count x).2, level := false })).presentId
          (d.src id).targetA id)) ∧
    (bank < 48 → id < 12 → Does (.interruptSourceEvent bank id) (fun d => d.domOn .control = true)
      (fun d => d.privEvent bank id)) ∧
    (64 ≤ id → Does (.levelRequestWithdraw bank id) (fun _ => True)
      (fun d => d.modSrc id (fun x => { x with level := false }))) ∧
    (id < 8 → bank < 48 → Does (.icuNudge id bank) (fun d => d.domOn .control = true) (fun d => d.privEvent bank (4 + id))) ∧
    (isSoft id = true → Does (.icuRaise id) (fun _ => True) (fun d => d.srcEvent id)) ∧
    (64 ≤ id → Does (.icuClaim bank) (fun d => d.bankOn bank = true ∧ d.firstPresented bank = some id) (fun d =>
      ((d.modSrc id (fun x => { x with count := x.count - 1, claimedBy := some bank })).modBank bank (fun k =>
        { k with claims := satAdd 32 k.claims 1 })).emit (.claim bank id))) ∧
    Does (.icuClaim bank) (fun d => d.bankOn bank = true ∧ d.firstPresented bank = none) (fun d =>
      (d.modBank bank (fun k => { k with spurious := satAdd 32 k.spurious 1 })).emit (.claim bank 1023)) ∧
    (64 ≤ id → id ≠ 1023 → Does (.icuComplete bank id) (fun d => d.bankOn bank = true ∧ (d.src id).claimedBy ≠ some bank)
      (fun d => d.modBank bank (fun k => { k with badComplete := satAdd 32 k.badComplete 1 }))) ∧
    (64 ≤ id → id ≠ 1023 → Does (.icuComplete bank id) (fun d => d.bankOn bank = true ∧ (d.src id).claimedBy = some bank ∧
        ((d.modSrc id (fun x => { x with claimedBy := none })).presentId (d.src id).targetA id).firstPresented bank = none ∧
        ((d.modSrc id (fun x => { x with claimedBy := none })).src id).targetA = (d.src id).targetA)
      (fun d => (d.modSrc id (fun x => { x with claimedBy := none })).presentId (d.src id).targetA id)) ∧
    Does .icuCommit (fun d => (∀ n, 64 ≤ n → n ≤ 1022 → d.targetOk n (d.src n).target = true)) (fun d =>
      let e : Dev := { d with icu := { d.icu with
        srcs := d.icu.srcs.map (fun p => (p.1, { p.2 with enA := p.2.en, prioA := p.2.prio, targetA := p.2.target }))
        watch := d.icu.watch.map (fun p => (p.1, { p.2 with idA := p.2.id, enA := p.2.en })) } }
      e.forEach (List.range 49) (fun e b => e.presentNew d b)) ∧
    (∀ t, Does .wakeWatcherFire (fun d => d.firing = (w, id) :: t ∧ (d.emb.mode = .dormant ∨ d.emb.mode = .deep))
      (fun d => ({ d with icu := { d.icu with wakeSlot := w, wakeId := id, wakeValid := true } }).requestWake 3))

/-! ## Links and functions -/

/-- R47, R48, R53, R68: training, Recovery entries, flit errors, downgrades, L0p widths and power states of a port in
use. -/
def Obligations.LinksMove : Prop :=
  ∀ (port n us r w : Nat) (passing lanes : List Nat) (flit : Bool) (l : Ltssm),
    let used (d : Dev) : Prop := d.portInUse port = true
    let limit (d : Dev) := if d.hlk.modeA = 1 then 8 else 16
    Does (.linkTraining port n passing lanes flit) (fun d => used d ∧ (d.port port).perst = false ∧ d.domOn .host = true ∧
        d.bot.stage ≠ 3 ∧ trainRate (min (d.port port).cap d.hlk.maxRateA) n passing flit = some r ∧
        trainWidth (limit d) lanes = some w)
      (fun d => (d.modPort port (fun p => { p with
        ltssm := .l0, rate := r, width := w, l0pWidth := w, flit := flit
        recTimes := if r = (d.port port).rate then p.recTimes else []
        fecTimes := if r = (d.port port).rate then p.fecTimes else []
        hotReset := false })).srcEvent (210 + port)) ∧
    Does (.linkRecoveryEntry port us) used (fun d => (d.modPort port (fun p => { p with
      ltssm := .recovery, recovery := satAdd 32 p.recovery 1, recTimes := lastSecond p.recTimes us })).srcEvent (210 + port)) ∧
    Does (.fecUncorrectableFlit port us) used (fun d => d.modPort port (fun p => { p with
      fecUncorr := satAdd 32 p.fecUncorr 1, fecTimes := lastSecond p.fecTimes us })) ∧
    Does (.linkRateDowngrade port) (fun d => used d ∧ (d.port port).mustStepDown = true ∧ (d.port port).rate = n + 1)
      (fun d =>
        (((d.modPort port (fun p => { p with
          rate := n, cap := n, downgraded := true, ltssm := .l0, recTimes := [], fecTimes := [], l0pWidth := p.width })).emit
          (.linkBandwidth port)).srcEvent (210 + port)).log 0x0104 (uid 11 port)
          (fields [(1, port), (1, n), (1, if 8 < (d.port port).recTimes.length then 0 else 1)])) ∧
    Does (.linkRateDowngrade port) (fun d => (d.port port).mustStepDown = false) id ∧
    Does (.retrainLink port n) (fun d => used d ∧ (d.port port).ltssm.carries = true)
      (fun d => d.modPort port (fun p => { p with cap := min n 6, ltssm := .recovery, downgraded := false })) ∧
    (w ∈ [16, 8, 4, 2] → Does (.l0pWidthChange port w) (fun d => used d ∧ (d.port port).flit = true ∧
        (d.port port).ltssm = .l0 ∧ (if d.hlk.modeA = 1 then 2 else 4) ≤ w ∧ w ≤ (d.port port).width)
      (fun d => d.modPort port (fun p => { p with l0pWidth := w }))) ∧
    (linkState n = some l → l ≠ .l0 → Does (.linkPowerStateChange port n)
      (fun d => used d ∧ (d.port port).ltssm ∈ [.l0, .l1, .l11, .l12, .l23])
      (fun d => d.modPort port (fun p => { p with ltssm := l }))) ∧
    (linkState n = some .l0 → Does (.linkPowerStateChange port n)
      (fun d => used d ∧ (d.port port).ltssm ∈ [.l0, .l1, .l11, .l12, .l23])
      (fun d => (d.modPort port (fun p => { p with ltssm := .l0 })).flushPort port)) ∧
    Does (.portLinkUp port) (fun d => used d ∧ (d.port port).ltssm = .l0)
      (fun d => (d.transition (uid 11 port) .alive .none).flushPort port)

/-- R53, R55, R63, R65, R89, R473: D0 and D3hot, unmasking, VF Enable, the resets of a function and their completion,
CC.EN. -/
def Obligations.FunctionsMove : Prop :=
  ∀ (fix vec us port css ams mps : Nat),
    let there (d : Dev) : Prop := d.fnExists fix = true
    Does (.functionPowerStateWrite fix false) (fun d => d.answersConfig fix = true) (fun d => d.modFn fix (fun f => { f with d0 := false })) ∧
    Does (.functionPowerStateWrite fix true) (fun d => d.answersConfig fix = true) (fun d => (d.modFn fix (fun f => { f with d0 := true })).flushPbaAll fix) ∧
    (vec < 257 → Does (.msixVectorUnmask fix vec) there
      (fun d => (d.modVec fix vec (fun x => { x with masked := false })).flushPba fix vec)) ∧
    Does (.vfEnableWrite port true) (fun d => d.portInUse port = true ∧ d.answersConfig (pfOf port) = true ∧
        (d.port port).vfEnable = false) (fun d =>
      let e := d.modPort port (fun p => { p with vfEnable := true })
      e.forEach (e.vfsOf port) (fun d f => if (d.fn f).resetting then d else d.transition (uid 12 f) .alive .none)) ∧
    Does (.vfEnableWrite port false) (fun d => d.portInUse port = true ∧ d.answersConfig (pfOf port) = true ∧
        (d.port port).vfEnable = true) (·.clearVfs port) ∧
    Does (.functionLevelReset fix) (fun d => there d ∧ d.isPf fix = false) (·.resetFn fix false) ∧
    Does (.functionLevelReset fix) (fun d => there d ∧ d.isPf fix = true) (fun d =>
      ((d.clearVfs (d.portOf fix)).modPort (d.portOf fix) Port.clearSriov).resetFn fix false) ∧
    Does (.controllerEnable fix css ams mps) (fun d => there d ∧ (d.fn fix).resetting = false ∧ (d.fn fix).ccEn = false ∧
        d.domOn .host = true ∧ (d.fn fix).configBad css ams mps = false)
      (fun d => d.modFn fix (fun f => { f with
        ccEn := true, mps := mps, css := css, ams := ams, noFetch := false
        sqs := fset f.sqs 0 (some { base := f.asq, size := f.asqs + 1 })
        cqs := fset f.cqs 0 (some { base := f.acq, size := f.acqs + 1 }) })) ∧
    Does (.controllerEnable fix css ams mps) (fun d => there d ∧ (d.fn fix).resetting = false ∧ (d.fn fix).ccEn = false ∧
        d.domOn .host = true ∧ (d.fn fix).configBad css ams mps = true)
      (fun d => (d.modFn fix (fun f =>
        { f with ccEn := true, cfs := true, mps := mps, css := css, ams := ams })).captureTelemetry) ∧
    Does (.controllerDisable fix) (fun d => there d ∧ (d.fn fix).ccEn = true) (·.resetFn fix true) ∧
    Does (.controllerDisable fix) (fun d => (d.fn fix).ccEn = false) id ∧
    Does (.functionResetComplete fix us) (fun d => (d.fn fix).resetting = true ∧ d.drained fix = true ∧
        (d.modFn fix (fun f => { f with resetting := false, rdy := false, lastResetUs := us })).fnExists fix = true)
      (fun d =>
        let e := (d.modFn fix (fun f => { f with resetting := false, rdy := false, lastResetUs := us })).transition (uid 12 fix)
          .alive .none
        e.quiescePort (e.portOf fix)) ∧
    Does (.functionResetComplete fix us) (fun d => (d.fn fix).resetting = true ∧ d.drained fix = true ∧
        (d.modFn fix (fun f => { f with resetting := false, rdy := false, lastResetUs := us })).fnExists fix = false)
      (fun d =>
        let e := (d.modFn fix (fun f => { f with resetting := false, rdy := false, lastResetUs := us })).transition (uid 12 fix)
          .absent .notEnabled
        e.quiescePort (e.portOf fix)) ∧
    Does (.functionResetComplete fix us) (fun d => (d.fn fix).resetting = true ∧ d.drained fix = false) id

/-! ## Management -/

/-- R431, R432, R433, R434, R457: MCTP control messages, SMBus address resolution, the I3C switch and the NVMe-MI
commands answer on a binding that the endpoint listens to; a request for a busy slot is answered busy. -/
def Obligations.ManagementCommands : Prop :=
  ∀ (bus slot v off len : Nat) (data : Bytes),
    let heard (d : Dev) : Prop :=
      (bus = 0 ∧ d.mgt.i3c = false) ∨ (bus = 1 ∧ d.mgt.i3c = true) ∨ (bus = 2 ∧ d.domOn .host = true)
    let got (d : Dev) : Dev := { d with mgt := { d.mgt with
      smbusUsed := d.mgt.smbusUsed || decide (bus = 0), vdm := d.mgt.vdm || decide (bus = 2), rx := d.mgt.rx + 1 } }
    let tells (o : Dev → Output) (d : Dev) : Dev := ({ d with mgt := { d.mgt with tx := d.mgt.tx + 1 } }).emit (o d)
    let ctl (i : Instr) (e : Dev → Dev) : Prop := Does i heard (fun d => e (got d))
    let mi (i : Instr) (h : Dev → Prop) (e : Dev → Dev) : Prop :=
      Does i (fun d => heard d ∧ slot < 2 ∧ slot ∉ d.mgt.busySlots ∧ h d) (fun d => e (got d))
    let ok (b : Dev → Bytes) : Dev → Dev := tells (fun d => .mi .success (b d))
    let bad : Dev → Dev := tells (fun _ => .mi .invalidParameter [])
    (1 ≤ v → v ≤ 254 → ctl (.setEndpointId bus v) (fun d => tells (fun _ => .mctp .eidSet v) { d with mgt := { d.mgt with
      eid := v } })) ∧
    ctl (.getEndpointId bus) (tells (fun d => .mctp .eid d.mgt.eid)) ∧
    ctl (.getMctpVersionSupport bus) (tells (fun _ => .mctp .versions 1)) ∧
    ctl (.getMessageTypeSupport bus) (tells (fun _ => .mctp .types 0x30)) ∧
    (4224 < len → ∀ c, Does (.mctpMessageDiscarded len c) (fun _ => True) (fun d =>
      ({ d with mgt := { d.mgt with micErr := satAdd 32 d.mgt.micErr 1 } }).emit (.mctp .discarded len))) ∧
    Does (.mctpMessageDiscarded len false) (fun _ => True) (fun d =>
      ({ d with mgt := { d.mgt with micErr := satAdd 32 d.mgt.micErr 1 } }).emit (.mctp .discarded len)) ∧
    Does (.i3cModeSwitch v) (fun d => d.mgt.i3c = false)
      (fun d => { d with mgt := { d.mgt with i3c := true, smbusUsed := false, i3cDa := v % 128 } }) ∧
    (bus = 0 → Does (.smbusArp 3 v true) heard
      (fun d => tells (fun _ => .arp []) { got d with mgt := { (got d).mgt with smbusAddr := v % 128 } })) ∧
    Does (.miEndpointBusy bus slot) (fun d => heard d ∧ slot < 2 ∧ slot ∈ d.mgt.busySlots)
      (fun d => tells (fun _ => .mi .busy []) { got d with mgt := { (got d).mgt with
        dropped := satAdd 32 (got d).mgt.dropped 1 } }) ∧
    mi (.miUnsupportedCommand bus slot) (fun _ => True) (tells (fun _ => .mi .invalidCommand [])) ∧
    mi (.readNvmeMiDataStructure bus slot 2) (fun _ => True)
      (ok (fun d => leBytes 2 d.allFns.length ++ (d.allFns.map (leBytes 2)).flatten)) ∧
    (4 < v → mi (.readNvmeMiDataStructure bus slot v) (fun _ => True) bad) ∧
    mi (.nvmSubsystemHealthStatusPoll bus slot) (fun _ => True) (ok (fun d =>
      openPage true 0x105 1 [] ++ d.healthBytes ++ leBytes 2 d.mgt.healthChange ++ zeroBytes 2)) ∧
    mi (.controllerHealthStatusPoll bus slot v) (fun d => d.fnExists v = true) (ok (fun d =>
      leBytes 2 v ++ leBytes 2 (b2n (d.fn v).rdy + 2 * b2n (d.fn v).cfs + 4 * (d.fn v).shst) ++
        leBytes 2 (d.emb.tj + 273).toNat ++ leBytes 1 d.percentUsed ++ leBytes 1 d.availableSpare ++
        leBytes 1 (maskOf d.nvm.critical) ++ zeroBytes 7)) ∧
    mi (.configurationSet bus slot 2 v) (fun _ => True) (fun d => ok (fun _ => []) { d with mgt := { d.mgt with
      healthChange := d.mgt.healthChange - (d.mgt.healthChange &&& (v % 2 ^ 32)) } }) ∧
    (64 ≤ v → v ≤ 1024 → mi (.configurationSet bus slot 3 v) (fun _ => True)
      (fun d => ok (fun _ => []) { d with mgt := { d.mgt with mtu := v } })) ∧
    mi (.configurationGet bus slot 1) (fun _ => True) (ok (fun d => leBytes 1 d.mgt.freq)) ∧
    mi (.configurationGet bus slot 2) (fun _ => True) (ok (fun d => leBytes 4 d.mgt.healthChange)) ∧
    mi (.configurationGet bus slot 3) (fun _ => True) (ok (fun d => leBytes 2 d.mgt.mtu)) ∧
    (off + len ≤ 1024 → mi (.vpdRead bus slot off len) (fun _ => True) (ok (fun d => mread d.mgt.vpd off len))) ∧
    (1024 < off + len → mi (.vpdRead bus slot off len) (fun _ => True) bad) ∧
    (off + data.length ≤ 1024 → mi (.vpdWrite bus slot off data) (fun _ => True)
      (fun d => ok (fun _ => []) { d with mgt := { d.mgt with vpd := mwrite d.mgt.vpd off data } })) ∧
    (∀ failed, mi (.nvmeMiReset bus slot failed) (fun _ => True) (fun d => d.subsystemReset [1] failed)) ∧
    (∀ op ctrl, op ∈ tunnelOps → mi (.tunnelledAdminCommand bus slot op ctrl)
      (fun d => (slot, op, ctrl) ∉ d.mgt.tunnel ∧ d.bot.stage ≠ 3 ∧ (d.emb.mode = .active ∨ d.emb.mode = .idleReady) ∧
        d.fnExists ctrl = true) (fun d => d.submitTunnel slot ctrl)) ∧
    (1 ≤ data.length → data.length ≤ 4096 → off + data.length ≤ slotBytes →
      mi (.recoveryImageWrite bus slot off data) (fun d => d.bot.stage = 3)
        (fun d => ok (fun _ => []) { d with bot := { d.bot with recBuf := mwrite d.bot.recBuf off data } })) ∧
    mi (.recoveryImageWrite bus slot off data) (fun d => d.bot.stage ≠ 3) (tells (fun _ => .mi .accessDenied [])) ∧
    (v < 2 → ∀ cert profiles failed i,
      let n (d : Dev) := min (fieldAt (mread d.bot.recBuf 0 256) 4 4) slotBytes
      mi (.recoveryCommit bus slot v cert profiles failed) (fun d => d.bot.stage = 3 ∧
          fwParse (mread d.bot.recBuf 0 (n d)) cert profiles = some i ∧
          i.passes ((got d).rewriteSlot v (mread d.bot.recBuf 0 (n d)) (some i)).bootRec.minSvn = true)
        (fun d => (ok (fun _ => []) ((d.rewriteSlot v (mread d.bot.recBuf 0 (n d)) (some i)).trialRec v)).subsystemReset []
          failed))

/-- R400, R401: the SPDM exchange: version, capabilities, algorithms, digests, certificates, challenge, measurements,
and a session. The free bytes of responses are Config's (log 3). -/
def Obligations.SpdmExchange : Prop :=
  ∀ (v off len : Nat),
    -- over DOE (binding 3), which the host domain carries
    let row (i : Instr) (h : Dev → Prop) (e : Dev → Dev) : Prop := Does i (fun d => d.domOn .host = true ∧ h d) e
    let done (d : Dev) : Prop := d.spdm.algs = true
    let session (n : Nat) (d : Dev) : Prop := d.spdm.session = n ∧ d.spdmKeys = true
    let secured (k : SpdmKind) (d : Dev) : Dev := d.secured k []
    row (.spdmGetVersion 3) (fun _ => True) (fun d => ({ d with spdm := { d.spdm with
      version := true, caps := false, algs := false, session := 0 } }).emit (.spdm .version (leBytes 2 0x1300))) ∧
    row (.spdmGetCapabilities 3) (fun d => d.spdm.version = true) (fun d =>
      let r := d.spdmFree 16
      ({ r.2 with spdm := { r.2.spdm with caps := true } }).emit (.spdm .capabilities r.1)) ∧
    row (.spdmGetCapabilities 3) (fun d => d.spdm.version = false) (fun d => d.emit (.spdm .error [])) ∧
    row (.spdmNegotiateAlgorithms 3 true) (fun d => d.spdm.caps = true) (fun d =>
      let r := d.spdmFree 32
      ({ r.2 with spdm := { r.2.spdm with algs := true } }).emit (.spdm .algorithms r.1)) ∧
    row (.spdmGetDigests 3) done (fun d => d.emit (.spdm .digests (sha384 (d.chain 0) ++ sha384 (d.chain 1)))) ∧
    (v < 2 → row (.spdmGetCertificate 3 v off len) done
      (fun d => d.emit (.spdm .certificate (((d.chain v).drop off).take len)))) ∧
    row (.spdmChallenge 3 0) done (fun d => d.spdmSign .challengeAuth (sha384 (d.chain 0))) ∧
    row (.spdmGetMeasurements 3 0 false) done (fun d => d.emit (.spdm .measurements [5])) ∧
    row (.spdmGetMeasurements 3 255 true) done (fun d => d.spdmSign .measurements d.bot.measure.flatten) ∧
    row (.spdmKeyExchange 3 v) (fun d => done d ∧ session 0 d) (fun d =>
      let r := d.spdmFree 96
      ({ r.2 with spdm := { r.2.spdm with session := 1, sessionId := v % 2 ^ 32, keyGen := 0 } }).spdmSign .keyExchangeRsp
        r.1) ∧
    row (.spdmFinish 3 true) (session 1) (fun d => secured .finishRsp { d with spdm := { d.spdm with session := 2 } }) ∧
    row (.spdmFinish 3 false) (session 1) (fun d =>
      ({ d with spdm := { d.spdm with session := 0 } }).emit (.spdm .error [])) ∧
    row (.spdmHeartbeat 3) (session 2) (secured .heartbeatAck) ∧
    row (.spdmKeyUpdate 3) (session 2)
      (fun d => secured .keyUpdateAck { d with spdm := { d.spdm with keyGen := d.spdm.keyGen + 1 } }) ∧
    row (.spdmEndSession 3) (session 2)
      (fun d => secured .endSessionAck { d with spdm := { d.spdm with session := 0 } }) ∧
    row (.spdmEndSession 3) (fun d => d.spdm.session ≠ 2) (fun d => d.emit (.spdm .error []))

/-! ## Power and resets -/

/-- R54, R63, R68, R411, R412, R421, R424, R426, R427, R463: cold start, rails lost and restored, glitches, crystals,
trips, resets and power cycles. -/
def Obligations.PowerAndResets : Prop :=
  ∀ (rail port : Nat) (tj : Int) (sensor : Nat) (causes failed : List Nat),
    let off (d : Dev) : Prop := d.blw.seq = 1 ∧ d.blw.step = 0
    let clear (d : Dev) : Dev := { d with blw := { d.blw with railsBad := [] } }
    let bad (d : Dev) : Dev := { d with blw := { d.blw with railsBad := setIns d.blw.railsBad rail } }
    let released (d : Dev) : Dev := (d.modPort port (fun p => { p with perst := false })).srcEvent (80 + port)
    let freed (d : Dev) : Dev :=
      let e := released d
      ({ e with emb := { e.emb with wakeN := e.emb.wakeN.filter (· ≠ port) } }).emit (.pin .wake port true)
    Does (.coldStart failed) off (fun d =>
      (((clear d).forEach (List.range 8) (fun d g => d.modGrp g (fun c => { c with
        present := c.presRaw, admitted := c.presRaw }))).startFast 1 failed).keyOn.dropGone) ∧
    (rail < 3 → Does (.emberRailLoss rail) (fun _ => True) (fun d => bad d.powerOn)) ∧
    (3 ≤ rail → rail ≤ 7 → Does (.fastRailLoss rail) off bad ∧ Does (.fastRailLoss rail) (fun d => ¬ off d) (·.railLost rail)) ∧
    Does (.supplyRestoredReset failed) (fun d => ¬ off d ∧ d.blw.railsBad ≠ [] ∧ d.emb.tripped = false)
      (fun d => ((clear d).abruptReset [5] failed).keyOn.dropGone) ∧
    (rail ≤ 7 → Does (.supplyGlitch rail) (fun d => d.domOn .control = true) (·.alarm 0)) ∧
    Does .xtalSwitch (fun _ => True) (fun d => { d with blw := { d.blw with xtalOk := true } }) ∧
    Does .xtalFail (fun d => d.blw.xtalOk = true)
      (fun d => ({ d with blw := { d.blw with xtalOk := false, xtalFail := true } }).log 0x010A noUnit []) ∧
    Does (.thermalTrip tj sensor) (fun d => d.rangeTop + 10 ≤ tj ∧ d.emb.tripped = false ∧ ¬ off d) (fun d =>
      let d := d.fastLost
      let d := d.forEach (List.range 8) (fun d g => (d.drivePwren g false).modGrp g (fun c => { c with step := 0 }))
      let d : Dev := { d with emb := { d.emb with
        mode := .deep, tripped := true, trips := satAdd 32 d.emb.trips 1, tj := tj, sensor := sensor % 16
        tjPeak := max d.emb.tjPeak tj, selfRefresh := false, orderly := false } }
      d.warn 1 true) ∧
    Does (.tripRecoveryReset tj failed) (fun d => d.emb.tripped = true ∧ tj ≤ d.rangeTop - 10 ∧ d.blw.railsBad = [])
      (fun d => (({ d with emb := { d.emb with tj := tj } }).abruptReset [6] failed).keyOn.dropGone) ∧
    (causes ≠ [] → (∀ c ∈ causes, 1 ≤ c ∧ c ≤ 6) → Does (.deviceResetAbrupt causes failed) (fun d => d.canReset = true)
      (·.abruptReset causes failed)) ∧
    Does (.nvmSubsystemReset failed) (fun d => d.canReset = true) (·.abruptReset [1] failed) ∧
    Does .powerCycle (fun _ => True) (fun d => clear d.powerOn) ∧
    (port < 2 → Does (.perstAssert port failed) (fun d => (d.port port).perst = false)
      (fun d => (d.modPort port (fun p => { p with perst := true })).hostReset port .perst failed)) ∧
    (port < 2 → Does (.perstDeassert port) (fun d => (d.port port).perst = true ∧
        port ∈ (released d).emb.wakeN ∧ (freed d).portInUse port = true) (fun d => (freed d).requestWake (1 + port))) ∧
    (port < 2 → Does (.perstDeassert port) (fun d => (d.port port).perst = true ∧
        port ∉ (released d).emb.wakeN ∧ (released d).portInUse port = true)
      (fun d => (released d).requestWake (1 + port))) ∧
    Does (.hotReset port failed) (fun d => d.portInUse port = true ∧ d.canReset = true ∧ d.hlk.modeA = 0)
      (fun d => (d.modPort port (fun p => { p with hotReset := true })).hostReset port .hotReset failed) ∧
    Does (.linkDown port failed) (fun d => (d.port port).ltssm ≠ .detect)
      (fun d => (d.srcEvent (210 + port)).hostReset port .linkDown failed)

/-- R415, R416, R418, R420, R427: the entry into a sleep mode and its continuation, an orderly reset, Deep after
Dormant, and the wakes. -/
def Obligations.SleepAndWake : Prop :=
  ∀ (us cause : Nat) (failed : List Nat),
    let awake (d : Dev) : Prop := (d.emb.mode = .active ∨ d.emb.mode = .idleReady) ∧ d.nvm.ready = true
    let back (d : Dev) (n : Nat) : Dev := ((d.beginWake cause n).startFast n failed).keyOn
    Does (.sleepEntry us) (fun d => d.emb.mode = .entering) (·.goOnEntry us) ∧
    Does (.sleepEntry us) (fun d => awake d ∧ d.maySleep = true ∧ d.idleMsLimit ≤ d.emb.idleMs)
      (fun d => (d.enterSleep false).goOnEntry us) ∧
    Does (.deviceResetOrderly us) (fun d => d.emb.mode = .entering) (·.goOnEntry us) ∧
    Does (.deviceResetOrderly us) (fun d => awake d ∧ ∀ p ∈ d.portsUsed, (d.port p).ltssm = .l23)
      (fun d => (d.enterSleep true).goOnEntry us) ∧
    Does .deepAfterExpiry (fun d => d.emb.mode = .dormant ∧ d.blw.wakeReq = none ∧ d.sleepMode = 3 ∧
        1000 * d.tf 6 0x34 4 ≤ d.emb.dormantMs) (·.toDeep) ∧
    Does (.wakeFromDormant true us failed) (fun d => d.emb.mode = .dormant ∧ d.blw.wakeReq = some cause ∧ d.blw.railsBad = [] ∧
        (back d 4).countTrial.resumeOk = true ∧
        (back d 4).countTrial.slotOk (back d 4).countTrial.bootRec.slot = true) (fun d => (back d 4).countTrial.resume us) ∧
    Does (.wakeFromDormant false us failed) (fun d => d.emb.mode = .dormant ∧ d.blw.wakeReq = some cause ∧ d.blw.railsBad = [])
      (fun d => (back d 4).fullWake) ∧
    Does (.wakeFromDeep failed) (fun d => d.emb.mode = .deep ∧ d.blw.wakeReq = some cause ∧ d.emb.tripped = false ∧
        d.blw.railsBad = [])
      (fun d => ((back d 5).forEach (List.range 8)
        (fun d g => d.modGrp g (fun c => { c with admitted := c.present }))).dropGone)

/-! ## Registers, bridges, mailboxes, hand-off buffers, shares, the epoch -/

/-- R9, R10, R12, R13, R19, R26, R30, R42: register writes of each space, the reads that clear and that latch, staged
commits, the accesses that fail, and the bridges. -/
def Obligations.RegistersMove : Prop :=
  ∀ (s : State) (fix core port dir addr w off mask value kind i b k : Nat) (c : ConfigField) (r : Reg) (a : Access)
    (t : List Access) (source : Source) (src dst : Plane) (wide isWrite journal : Bool),
    let d := s.dev0
    -- writes: of a function's registers, of configuration space, of a core, of the access at the head of the bridge (R9, R19)
    (d.doorbellTaken fix = true → alignedTo addr wide = true →
      exec (.registerWrite (.nvme fix) addr wide value) s = .next (s.withDev (d.writeBar0 fix addr wide value)) ∧
      exec (.registerWrite (.msix fix) addr wide value) s = .next (s.withDev (d.writeMsix fix addr wide value))) ∧
    (d.answersConfig fix = true →
      exec (.registerWrite (.config fix c) addr wide value) s = .next (s.withDev (d.writeConfig fix c value))) ∧
    (d.coreSpot core addr true = some (w, off) → alignedTo addr wide = true →
      exec (.registerWrite (.core core) addr wide value) s = .next (s.withDev (d.writeReg w off wide value))) ∧
    (a.isWrite = true → (d.lane dir).queue = a :: t →
      exec (.registerWrite (.bridge dir) addr wide value) s = .next (s.withDev ((d.popBridge dir).accessWrite a))) ∧
    -- R10, R12: a core's read of a register that clears on read answers its value and clears it
    (d.coreSpot core addr false = some (w, off) → alignedTo addr false = true → findReg (windowRegs w) off = some (r, i, b) →
      r.size = 4 → ∀ f, r.clear = some f →
      exec (.rcCounterRead (.core core) addr) s =
        .next (s.withDev ((f d i).emit (.readData (r.value d i % 2 ^ 32))))) ∧
    -- R15, R19: the same read of a host at another plane's window enters the bridge
    (d.readSpot (.bar2 port) addr false = some (w, off) → readClears w off = true → bar2Lane addr = some dir →
      exec (.rcCounterRead (.bar2 port) addr) s = .next (s.withDev (d.pushBridge dir (bar2Access port addr false false 0)))) ∧
    -- R9: a read of a lower word answers it and latches the upper; a read of an upper word answers what is latched
    (d.coreSpot core addr false = some (w, off) → alignedTo addr false = true → findReg (windowRegs w) off = some (r, i, b) →
      r.size ≠ 4 → r.clear = none → b % 8 = 0 →
      exec (.upperWordLatch (.core core) ⟨addr, false⟩) s = .next (s.withDev
        (({ d with fab := { d.fab with latch := fset d.fab.latch (wordKey w (off + 4)) (r.value d i / 2 ^ (8 * (b + 4)) % 2 ^ 32) } } :
          Dev).emit (.readData (r.value d i / 2 ^ (8 * b) % 2 ^ 32))))) ∧
    (d.coreSpot core addr false = some (w, off) → alignedTo addr false = true → findReg (windowRegs w) off = some (r, i, b) →
      r.size ≠ 4 → r.clear = none → b % 8 ≠ 0 → ffind d.fab.latch (wordKey w off) = some value →
      exec (.upperWordLatch (.core core) ⟨addr, false⟩) s = .next (s.withDev
        (({ d with fab := { d.fab with latch := d.fab.latch.filter (fun p => decide (p.1 ≠ wordKey w off)) } } : Dev).emit
          (.readData value)))) ∧
    -- R13: a commit makes the staged set of a block whose domain is on the active one
    (∀ f, windowCommit w = some f → d.windowOn w = true → exec (.stagedCommit w) s = .next (s.withDev (f d))) ∧
    -- R42: TOL_VIOLATED bits are cleared by writing 1
    exec (.tolViolatedClear mask) s = .next (s.withDev (d.forEach (bitsSet mask 32) Dev.clearViolated)) ∧
    -- R26: a write through BAR2 outside class D is discarded and recorded
    (d.isPf fix = true → d.bar2Open (d.portOf fix) = true → alignedTo addr wide = true → addr < bar2Bytes →
      windowClass (windowAt addr) ≠ 0 → exec (.bar2WriteDiscarded fix addr wide) s = .next (s.withDev (d.discard fix addr))) ∧
    -- R30: an access outside a core's view gets a bus error, recorded with its address
    (core < 48 → d.domOn .control = true → d.coreMay core addr kind journal = false →
      exec (.coreBusError core addr kind journal) s = .next (s.withDev
        (((d.emit (.busError addr)).log 0x0102 noUnit (fields [(8, addr), (1, core)])).privEvent core 3))) ∧
    (d.coreMay 48 addr kind journal = false →
      exec (.coreBusError 48 addr kind journal) s = .next (s.withDev
        ((d.emit (.busError addr)).log 0x0102 noUnit (fields [(8, addr), (1, 48)])))) ∧
    -- R19: the bridge keeps up to 64 accesses of a direction in order, the source of the next one stalls, and reads return
    (bridgePlanes dir = some (src, dst) → sourcePlane source = src → planeAt addr = some dst → alignedTo addr wide = true →
      d.sourceOn source addr = true → d.targetOn addr = true →
      let acc : Access := { source := source, addr := addr, wide := wide, isWrite := isWrite, data := value }
      ((d.lane dir).queue.length < 64 → (d.lane dir).stalled = [] →
        exec (.bridgeAccess dir source addr wide isWrite value) s = .next (s.withDev
          (d.modBridge dir (fun l => { l with queue := l.queue ++ [acc] })))) ∧
      (64 ≤ (d.lane dir).queue.length →
        exec (.bridgeAccess dir source addr wide isWrite value) s = .next (s.withDev
          ((d.modBridge dir (fun l => { l with stalled := l.stalled ++ [acc] })).emit .stalled)))) ∧
    (a.isWrite = false → (d.lane dir).queue = a :: t →
      exec (.bridgeReadReturn dir) s = .next (s.withDev ((d.popBridge dir).accessRead a))) ∧
    (a.refusedTo = some k → d.accessRead a = d.refuseAccess k a.addr ∧ d.accessWrite a = d.refuseAccess k a.addr)

/-- R17, R18, R38, R60, R65: mailbox rings with their slots and urgency, hand-off buffers between the planes, shares
issued, and what an accounting epoch ends with. -/
def Obligations.SharesAndMailboxes : Prop :=
  ∀ (s : State) (ring ty unit buffer off core pool fix : Nat) (urgent : Bool) (payload data : Bytes) (m : Msg) (t : List Msg)
    (q : Waybill) (w : Waiter) (tj top : Int) (sensor : Nat) (margins : List Nat),
    let d := s.dev0
    let msg : Msg := { ty := ty % 65536, urgent := urgent, unit := unit % 2 ^ 32, payload := padTo 48 payload }
    let told (d : Dev) (m : Msg) : Dev :=
      (((d.issue 15 0 1).modRing ring (fun r => { r with
        next := r.next + 1, slots := r.slots ++ [{ m with seq := r.next }] })).emit (.doorbell ring)).ringArrival ring
    let freed (m : Msg) (t : List Msg) : Dev :=
      ((d.modRing ring (fun r => { r with slots := t })).giveBack 15 0 1).emit (.mailbox ring m.seq m.ty m.unit m.payload)
    -- R17: a message takes a slot, and its receiver is told; with no slot the sender stalls until one is free
    (ring < 6 → d.domOn .control = true → d.slotFree ring = true → (d.ring ring).stalled = [] →
      exec (.mailboxSend ring ty urgent unit payload) s = .next (s.withDev (told d msg))) ∧
    (ring < 6 → d.domOn .control = true → d.slotFree ring = false →
      exec (.mailboxSend ring ty urgent unit payload) s = .next (s.withDev
        ((d.modRing ring (fun r => { r with stalled := r.stalled ++ [msg] })).emit .stalled))) ∧
    ((d.ring ring).stalled = m :: t → d.slotFree ring = true →
      exec (.mailboxSlotGranted ring) s = .next (s.withDev (told (d.modRing ring (fun r => { r with stalled := t })) m))) ∧
    -- R16, R17: the oldest urgent message is received first, else the oldest
    (takeFirst (d.ring ring).slots (·.urgent) = some (m, t) → exec (.mailboxReceive ring) s = .next (s.withDev (freed m t))) ∧
    ((d.ring ring).slots = m :: t → (∀ x ∈ m :: t, x.urgent = false) →
      exec (.mailboxReceive ring) s = .next (s.withDev (freed m t))) ∧
    -- R18: hand-off buffers pass between the planes, and the one that does not own a buffer gets a bus error
    (buffer < 256 → (d.buf buffer).inUse = false → d.domOn .data = true → d.canIssue 16 0 1 = true →
      exec (.handoffBufferPass buffer data) s = .next (s.withDev
        (((d.issue 16 0 1).modBuf buffer (fun _ => { owner := .control, inUse := true, bytes := data.take 65536 })).emit
          (.doorbell 0)))) ∧
    (buffer < 256 → (d.buf buffer).inUse = true → (d.buf buffer).kind = 0 → (d.buf buffer).owner = .control →
      exec (.handoffBufferPass buffer data) s = .next (s.withDev ((d.dropBuf buffer).emit (.doorbell 2)))) ∧
    (buffer < 256 → buffer ∈ q.lent → (d.buf buffer).inUse = true → (d.buf buffer).kind = 2 → (d.buf buffer).owner = .data →
      d.wb (d.buf buffer).wb = some q → q.epoch = (d.fn q.ref.fix).epoch →
      exec (.handoffBufferPass buffer data) s = .next (s.withDev
        ((((d.emit (.emitted (d.buf buffer).wb (d.buf buffer).offset (d.buf buffer).bytes)).dropBuf buffer).modWb
          (d.buf buffer).wb (fun w => { w with lent := w.lent.filter (· ≠ buffer) })).emit (.doorbell 0)))) ∧
    (buffer < 256 → off < handoffBytes → (d.buf buffer).owner = .data →
      exec (.handoffForeignAccess buffer off (some core)) s = .next (s.withDev
        (d.refuseAccess core (handoffBase + handoffBytes * buffer + off)))) ∧
    (buffer < 256 → off < handoffBytes → (d.buf buffer).owner = .control →
      exec (.handoffForeignAccess buffer off none) s = .next (s.withDev
        (d.emit (.busError (handoffBase + handoffBytes * buffer + off))))) ∧
    -- R60: waiting requests of an E pool are served in turn
    (isEPool pool = true → pool ≠ 26 → pool ≠ 27 → exec (.shareUnitsIssued pool) s = .next (s.withDev (d.serveOne pool))) ∧
    exec (.shareUnitsIssued 26) s = .next (s.withDev (d.serveOne 26).placeDge) ∧
    exec (.shareUnitsIssued 27) s = .next (s.withDev (d.serveOne 27).placeAee) ∧
    -- R65: an item of an epoch that has ended is squashed, and its unit of pool 31 comes back
    (w ∈ (d.fn fix).oldItems → 0 < (d.fn fix).fence → d.itemReady w = true →
      exec (.epochItemSquash fix w) s = .next (s.withDev (
        let e := (((d.squashItem fix w).giveBack 31 fix 1).modFn fix (fun f => { f with
          oldItems := f.oldItems.filter (· ≠ w), fence := f.fence - 1 })).issueFences
        e.quiescePort (e.portOf fix)))) ∧
    -- R38: an accounting epoch ends with the checks, the time that has passed, and the loops, in this order
    exec (.accountingEpochBoundary tj sensor top margins) s = .next (s.withDev (
      let counted := ((d.forEach (List.range 32) Dev.checkPool).countStalls).passTime
      let looped := if counted.domOn .data && counted.domOn .control && counted.domOn .host then counted.fastLoops margins
        else counted
      let read : Dev := { looped with emb := { looped.emb with
        tj := tj, sensor := sensor % 16, tjPeak := max looped.emb.tjPeak (max tj top) } }
      ((read.checkTemps.evalThermal (max tj top)).countAvailability d.emb.mode).forEach (List.range 7) Dev.evalHealth))

/-! ## The block as a whole -/

/-- The block's interface: a step takes the command at the front of the queue and executes it with the queue's rest;
on an empty queue it idles (log 2). -/
def Obligations.StepTakesTheFront : Prop :=
  (∀ (c : Instr) (rest : List Instr) (s : State), s.pending = c :: rest → step s = exec c { s with pending := rest }) ∧
  ∀ s : State, s.pending = [] → step s = .next s

/-- Every command answers a next state and leaves the queue's rest as it is: none faults, none is refused (log 1). -/
def Obligations.EveryRowAnswers : Prop := ∀ (i : Instr) (s : State), ∃ d, exec i s = .next (s.withDev d)

/-- R16, R35, R38, R43, R59, R64, R354, R409: what reset leaves: nothing issued, epochs at 1, rotations and DRV_NOW at
0, no function active, no command, no queue, no message; the clock is sound. -/
def Obligations.ResetHoldsTheSpecValues : Prop :=
  let d := State.reset.dev
  State.reset.pending = [] ∧ d.clk.accum = 0 ∧ d.clk.epoch = 1 ∧ d.clk.ok ∧ d.drv.now = 0 ∧ d.nvm.cmds = [] ∧ d.fnm.activeCount = 0 ∧
  (∀ p, (d.pool p).issued = (d.pool p).returned + (d.pool p).held ∧ (d.pool p).rot = 0) ∧
  (∀ f, (d.fn f).epoch = 1 ∧ (d.fn f).ccEn = false ∧ (d.fn f).rdy = false ∧ (d.fn f).sqs = [] ∧ (d.fn f).cqs = []) ∧
  (∀ r, (d.ring r).slots = [] ∧ (d.ring r).stalled = []) ∧
  Memory.wf d.fab.mram = true ∧ Memory.wf d.fab.dram = true ∧ Memory.wf d.mgt.vpd = true ∧ Memory.wf d.emb.memory = true

/-- R38: every 1,000 epochs take exactly 32,768 ticks of the 32.768 kHz clock, whatever the accumulator holds, and
bring it back to what it held. -/
def Obligations.ClockCountsSeconds : Prop :=
  ∀ (c : Clock) (n : Nat), c.accum < 1000 →
    let e := iter (1000 * n) Clock.next c
    e.ticks = c.ticks + 32768 * n ∧ e.epoch = c.epoch + 1000 * n ∧ e.accum = c.accum

/-- R38: whatever command a step takes, it keeps the accumulator below 1,000 and the epoch number at 1 or above. -/
def Obligations.EveryStepKeepsTheClock : Prop :=
  ∀ s t : State, s.dev.clk.ok → step s = .next t → t.dev.clk.ok

/-! ## Feresk words, registers and memory -/

/-- R263: reading the word of fields that fit their widths gives those fields back, and every 64-bit word is the word
of its fields. -/
def Obligations.FereskWordsRoundTrip : Prop :=
  (∀ f : Fw, f.fits = true → f.encode < 2 ^ 64 ∧ Fw.decode f.encode = f) ∧
  ∀ w : Nat, w < 2 ^ 64 → (Fw.decode w).fits = true ∧ (Fw.decode w).encode = w

/-- R261: x0 reads as 0 and a write to it changes nothing; a write to another register is read back there and leaves
every other register, the memory and the stacks as they were. -/
def Obligations.RegisterWritesReadBack : Prop :=
  ∀ (c : Ctx) (n m : Nat) (v : BitVec 64) (u : BitVec 512) (p : Pred),
    c.getX 0 = 0 ∧ c.setX 0 v = c ∧
    (n ≠ 0 → (c.setX n v).getX n = v) ∧ (m ≠ n → (c.setX n v).getX m = c.getX m) ∧
    (c.setV n u).getV n = u ∧ (m ≠ n → (c.setV n u).getV m = c.getV m) ∧
    (c.setP n p).getP n = p ∧ (m ≠ n → (c.setP n p).getP m = c.getP m) ∧
    (∀ e ∈ [c.setX n v, c.setV n u, c.setP n p], e.pc = c.pc ∧ e.ret = c.ret ∧ e.loops = c.loops ∧ ∀ a, e.byteAt a = c.byteAt a)

/-- R239, R269: a store to valid bytes writes exactly those bytes: each of them reads as stored, every other byte of
every window as before; registers, pc and stacks stay; the windows keep their canonical form. -/
def Obligations.StoresKeepOtherBytes : Prop :=
  ∀ (c : Ctx) (a : Nat) (b : Bytes), Memory.wf c.w1 = true → Memory.wf c.w2 = true → c.scratch ≤ 2 ^ 36 →
     c.valid a b.length true = true →
    let e := c.store a b
    (∀ k, k < b.length → e.byteAt (a + k) = b.getD k 0) ∧
    (∀ x, x < a ∨ a + b.length ≤ x → x < 2 ^ 40 → e.byteAt x = c.byteAt x) ∧
    e.x = c.x ∧ e.v = c.v ∧ e.p = c.p ∧ e.pc = c.pc ∧ e.ret = c.ret ∧ e.loops = c.loops ∧ 
    Memory.wf e.w1 = true ∧ Memory.wf e.w2 = true

/-! ## Frames -/

/-- Commands of the interrupt controller, the watchdog, the mailboxes and the links leave what the host has stored and
what the engines hold as they were: namespaces and commands, the pipelines, media and map, the journal, stripes, keys,
programs, Tongs, code flash. -/
def Obligations.InterruptRowsKeepTheData : Prop :=
  ∀ (bank id n us key : Nat) (s t : State),
    let keeps (i : Instr) : Prop := exec i s = .next t →
      t.dev.nvm = s.dev.nvm ∧ t.dev.wrp = s.dev.wrp ∧ t.dev.rdp = s.dev.rdp ∧ t.dev.mch = s.dev.mch ∧ t.dev.map = s.dev.map ∧
        t.dev.jrn = s.dev.jrn ∧ t.dev.par = s.dev.par ∧ t.dev.key = s.dev.key ∧ t.dev.hrt = s.dev.hrt ∧ t.dev.drv = s.dev.drv ∧
        t.dev.tng = s.dev.tng ∧ t.dev.cfl = s.dev.cfl ∧ t.dev.clk = s.dev.clk
    keeps (.icuClaim bank) ∧ keeps (.icuComplete bank id) ∧ keeps (.icuNudge n bank) ∧ keeps (.icuRaise id) ∧ keeps .icuCommit ∧
    keeps (.interruptSourceEvent bank id) ∧ keeps (.levelRequestWithdraw bank id) ∧ keeps (.wdtKick key) ∧
    keeps .wdtStage1Expiry ∧ keeps (.mailboxReceive n) ∧ keeps (.linkRecoveryEntry n us) ∧ keeps (.fecUncorrectableFlit n us) ∧
    keeps (.retrainLink n id) ∧ keeps (.l0pWidthChange n id) ∧ keeps .xtalSwitch ∧ keeps (.perstDeassert n)

/-! ## Shares and pools -/

/-- R59: the shares of a pool add up to its capacity and differ by at most one unit; over any A consecutive epochs
with A active functions every position receives the same number of extra units. -/
def Obligations.SharesAreFair : Prop :=
  ∀ (cap rot : Nat) (fns : List Nat),
    let a := fns.length
    let x := cap % a
    a ≠ 0 →
      (shareOut cap fns rot).map (·.1) = fns ∧
      ((shareOut cap fns rot).map (·.2)).sum = cap ∧
      (∀ p ∈ shareOut cap fns rot, p.2 = cap / a ∨ p.2 = cap / a + 1) ∧
      ∀ i, i < a → ((List.range a).countP (fun k => getsExtra a ((rot + k * x) % a) x i)) = x

/-- R60: issuing, serving and returning units keep HELD equal to what is issued and not returned; units are issued all
together, only while they are free, and for an E pool only within the function's share. -/
def Obligations.PoolsStayBalanced : Prop :=
  ∀ (d : Dev) (p fix n : Nat) (who : Waiter),
    let bal (q : Pool) : Prop := q.issued = q.returned + q.held
    bal (d.pool p) →
      bal ((d.request p fix n who).1.pool p) ∧ bal ((d.serveOne p).pool p) ∧
      (n ≤ (d.pool p).held → bal ((d.giveBack p fix n).pool p)) ∧
      ((d.request p fix n who).2 = true →
        ((d.request p fix n who).1.pool p).held = (d.pool p).held + n ∧
        ((d.pool p).held ≤ (d.pool p).capacity → (d.pool p).held + n ≤ (d.pool p).capacity) ∧
        (isEPool p = true → ((d.pool p).shareOf fix).held + n ≤ ((d.pool p).shareOf fix).share)) ∧
      ((d.request p fix n who).2 = false → ((d.request p fix n who).1.pool p).held = (d.pool p).held ∧
        ((d.request p fix n who).1.pool p).waiting = (d.pool p).waiting ++ [{ fix := fix, n := n, who := who }])

/-! ## Order of interrupts and matches; BAR2 -/

/-- R371: of the presented IDs the first has the highest priority, and among those of that priority the lowest ID, so
that a private ID precedes every shared ID of its priority; none is first only where none is presented. -/
def Obligations.FirstPresentedIsLowest : Prop :=
  ∀ (d : Dev) (bank : Nat),
    (d.firstPresented bank = none ↔ d.presented bank = []) ∧
    ∀ i, d.firstPresented bank = some i → ∃ prio, (i, prio) ∈ d.presented bank ∧
      (∀ q ∈ d.presented bank, q.2 ≤ prio) ∧ (∀ q ∈ d.presented bank, q.2 = prio → i ≤ q.1) ∧
      (∀ q ∈ d.presented bank, q.2 = prio → q.1 < 64 → i < 64)

/-- R285: the primary result is the matching entry of the highest priority, of equal ones that of the lowest index,
wherever it stands; MULTI is set when more than one entry matches. -/
def Obligations.PrimaryResultRanksFirst : Prop :=
  ∀ (t : TTable) (key : BitVec 160),
    (tRanked t key).length = (tHits t key).length ∧
    ∀ i e, (tRanked t key).head? = some (i, e) → (i, e) ∈ tHits t key ∧
      (∀ q ∈ tHits t key, q.2.prio ≤ e.prio) ∧ (∀ q ∈ tHits t key, q.2.prio = e.prio → i ≤ q.1) ∧
      ∀ seq, fieldAt (tRecord (tRanked t key).head? (tRanked t key).length seq false) 6 2 =
        if 1 < (tHits t key).length then 3 else 1

/-- R27: BAR2 takes aligned 32-bit and aligned 64-bit accesses; any other access completes with Unsupported Request
and has no effect. -/
def Obligations.Bar2TakesAlignedAccesses : Prop :=
  ∀ (fix port addr len value : Nat) (wide : Bool),
    (addr % (if wide = true then 8 else 4) = 0 → addr < bar2Bytes → bar2Lane addr = none →
      Does (.registerWrite (.bar2 port) addr wide value) (fun d => d.bar2Open port = true)
        (·.bar2Write (pfOf port) addr wide value)) ∧
    (∀ dir, addr % (if wide = true then 8 else 4) = 0 → addr < bar2Bytes → bar2Lane addr = some dir →
      Does (.registerWrite (.bar2 port) addr wide value) (fun d => d.bar2Open port = true)
        (·.pushBridge dir (bar2Access port addr wide true value))) ∧
    (addr % (if wide = true then 8 else 4) ≠ 0 → Does (.registerWrite (.bar2 port) addr wide value) (fun _ => True) id) ∧
    (¬ (len = 4 ∧ addr % 4 = 0) → ¬ (len = 8 ∧ addr % 8 = 0) → Does (.bar2UnsupportedAccess fix addr len)
      (fun d => d.isPf fix = true ∧ d.bar2Open (d.portOf fix) = true) (·.emit .unsupportedRequest))
end

