-- ==== Sys2Proof/Laws/Granule.lean ====
section
/-! SUPPORT. Little-endian fields, parts of byte strings, and the checks that a granule passes when its bytes arrive as they
were written (R117, R118, R127). -/

namespace Sys2Proof.Machine

theorem ofLe_leBytes (n k : Nat) : ofLe (leBytes n k) = k % 256 ^ n := by
  induction n generalizing k with
  | zero => simp [leBytes, ofLe, Nat.mod_one]
  | succ n ih =>
    have := Nat.mod_mul (a := 256) (b := 256 ^ n) (x := k)
    simp only [leBytes, ofLe, ih, Nat.pow_succ', this, BitVec.toNat_ofNat]

theorem xxh64_lt (b : Bytes) : xxh64 b < 2 ^ 64 := by unfold xxh64; exact BitVec.isLt _

theorem leBytes_length (n k : Nat) : (leBytes n k).length = n := by
  induction n generalizing k with
  | zero => rfl
  | succ n ih => simp [leBytes, ih]
theorem slice_append_right (a b : Bytes) (k n : Nat) : slice (a ++ b) (a.length + k) n = slice b k n := by
  simp only [slice, List.drop_append, List.drop_eq_nil_of_le (Nat.le_add_right a.length k), List.nil_append,
    Nat.add_sub_cancel_left]
theorem slice_append_left (a b : Bytes) : slice (a ++ b) 0 a.length = a := by simp [slice]

theorem allEqual_replicate (n : Nat) (x : Byte) : allEqual (List.replicate (n + 1) x) = true := by
  simp [allEqual, List.replicate_succ]
theorem frameBytes_zeros {n : Nat} (h : 0 < n) : frameBytes 0 (List.replicate n 0) = granuleHead ++ (blockHead 1 n ++ [0]) := by
  obtain ⟨m, rfl⟩ : ∃ m, n = m + 1 := ⟨n - 1, by omega⟩
  rw [frameBytes, if_neg (by decide), if_pos (allEqual_replicate m 0), List.length_replicate]
  rfl

/-- A granule of `data`, all bytes of which are zero, as it is stored: one RLE block. -/
def zeroGran (data : Bytes) : Stored := { units := 2, frame := 11, data := data, check := granuleCheck data [] }

/-- Its region behind the check value. -/
def zeroRest : Bytes :=
  fields [(4, 11), (4, 32768)] ++ zeroBytes 16 ++ (granuleHead ++ (blockHead 1 32768 ++ [0])) ++ zeroBytes 53
theorem zeroGran_region (data : Bytes) (hd : frameBytes 0 data = granuleHead ++ (blockHead 1 32768 ++ [0])) :
    (zeroGran data).region = leBytes 8 (granuleCheck data []) ++ zeroRest := by
  simp only [Stored.region, zeroGran, hd]
  generalize granuleCheck data [] = c
  rfl
/-- A granule whose bytes arrive as they were written, under its own key, passes where its fields say what R127 checks. -/
theorem verdict_pass (s : Stored) (gtag : Nat) (h1 : slice s.clearPart 0 5 = slice s.head 0 5)
    (h2 : fieldAt s.clearPart 0x1C 4 = crc32c (slice s.clearPart 0 0x1C)) (h3 : fieldAt s.clearPart 8 8 = gtag)
    (h4 : slice s.region 16 16 = zeroBytes 16) (h5 : fieldAt s.region 12 4 = 32768) (h6 : s.data.length = 32768)
    (h7 : fieldAt s.region 0 8 = granuleCheck s.data (slice s.region (32 + fieldAt s.region 8 4) (fieldAt s.clearPart 0x1A 2))) :
    (s.verdict gtag (some s.key) [] []).1 = .pass := by
  have dec : s.decrypted s.key [] = s.region := by simp [Stored.decrypted]
  have c : s.content s.region = (s.data, true, true) := by simp [Stored.content]
  simp only [Stored.verdict, arrive, List.foldl_nil, dec, c, h1, h2, h3, h4, h5, h6, h7]
  simp

theorem zeroGran_passes : ((zeroGran (List.replicate 32768 0)).verdict 0 (some []) [] []).1 = .pass := by
  have hl : (List.replicate 32768 (0 : Byte)).length = 32768 := List.length_replicate
  have hd := frameBytes_zeros (n := 32768) (by decide)
  generalize List.replicate 32768 (0 : Byte) = data at *
  have hr := zeroGran_region data hd
  have len := leBytes_length 8 (granuleCheck data [])
  have at8 (k n : Nat) : slice (zeroGran data).region (8 + k) n = slice zeroRest k n := by
    have := slice_append_right (leBytes 8 (granuleCheck data [])) zeroRest k n
    rw [len] at this
    rw [hr, this]
  have sum : fieldAt (zeroGran data).region 0 8 = granuleCheck data [] := by
    have := slice_append_left (leBytes 8 (granuleCheck data []))
    rw [len] at this
    rw [fieldAt, hr, this, ofLe_leBytes]
    exact Nat.mod_eq_of_lt (Nat.lt_of_lt_of_le (xxh64_lt (data ++ [])) (by decide))
  have size : fieldAt (zeroGran data).region 12 4 = 32768 := by
    rw [fieldAt, at8 4]
    decide +kernel
  have pad : slice (zeroGran data).region 16 16 = zeroBytes 16 := by
    rw [at8 8]
    decide +kernel
  have info (n : Nat) : slice (zeroGran data).region n 0 = [] := by simp [slice]
  have head : (zeroGran data).head = (zeroGran []).head := by simp only [Stored.head, zeroGran]
  have clear : (zeroGran data).clearPart = (zeroGran []).clearPart := by simp only [Stored.clearPart, head]
  have rest : fieldAt (zeroGran []).clearPart 0x1C 4 = crc32c (slice (zeroGran []).clearPart 0 0x1C) ∧
      fieldAt (zeroGran []).clearPart 8 8 = 0 ∧ fieldAt (zeroGran []).clearPart 0x1A 2 = 0 ∧
      slice (zeroGran []).clearPart 0 5 = slice (zeroGran []).head 0 5 := by decide +kernel
  rw [← clear, ← head] at rest
  exact verdict_pass (zeroGran data) 0 rest.2.2.2 rest.1 rest.2.1 pad size hl (by rw [rest.2.2.1, info, sum]; simp only [zeroGran])

end Sys2Proof.Machine
end

