-- ==== Sys2Proof/Laws/Memory.lean ====
section
/-! SUPPORT. The byte memories: every write keeps the canonical form, is read back, and leaves every other address as it
was. The finite maps obey the same two laws of reading. -/

namespace Sys2Proof.Machine

/-! ## Finite maps -/

@[simp] theorem fget_fset_same {α : Type} (m : FMap α) (e v : α) (k : Nat) : fget (fset m k v) e k = v := by
  induction m with
  | nil => simp [fset, fget]
  | cons x t ih =>
    obtain ⟨j, w⟩ := x
    simp only [fset]
    split
    · simp [fget]
    · split
      · simp [fget]
      · simp_all [fget]

theorem fget_fset_other {α : Type} (m : FMap α) (e v : α) (k j : Nat) (h : j ≠ k) : fget (fset m k v) e j = fget m e j := by
  induction m with
  | nil => simp [fset, fget, Ne.symm h]
  | cons x t ih =>
    obtain ⟨i, w⟩ := x
    simp only [fset]
    split
    · simp [fget, Ne.symm h]
    · split
      · subst i; simp [fget, Ne.symm h]
      · simp only [fget, ih]

@[simp] theorem fget_fmod_same {α : Type} (m : FMap α) (e : α) (k : Nat) (f : α → α) : fget (fmod m e k f) e k = f (fget m e k) := by
  simp [fmod]

theorem fget_fmod_other {α : Type} (m : FMap α) (e : α) (k j : Nat) (f : α → α) (h : j ≠ k) :
    fget (fmod m e k f) e j = fget m e j := fget_fset_other m e _ k j h

/-! ## The canonical form -/

theorem memWfFrom_mono (lo hi : Nat) (m : Memory) (h : lo ≤ hi) (w : memWfFrom hi m = true) : memWfFrom lo m = true := by
  cases m with
  | nil => rfl
  | cons x t =>
    obtain ⟨j, v⟩ := x
    simp only [memWfFrom, Bool.and_eq_true, decide_eq_true_eq] at w ⊢
    exact ⟨⟨by omega, w.1.2⟩, w.2⟩

theorem mset_wfFrom (lo : Nat) (m : Memory) (a : Nat) (v : Byte) (h : lo ≤ a) (w : memWfFrom lo m = true) :
    memWfFrom lo (mset m a v) = true := by
  induction m generalizing lo with
  | nil =>
    simp only [mset]
    split
    · rfl
    · simp_all [memWfFrom]
  | cons x t ih =>
    obtain ⟨j, u⟩ := x
    simp only [memWfFrom, Bool.and_eq_true, decide_eq_true_eq] at w
    simp only [mset]
    split
    · split
      · simp_all [memWfFrom]
      · rename_i h1 h2
        simp only [memWfFrom, Bool.and_eq_true, decide_eq_true_eq]
        exact ⟨⟨h, h2⟩, ⟨by omega, w.1.2⟩, w.2⟩
    · split
      · split
        · exact memWfFrom_mono lo (j + 1) t (by omega) w.2
        · rename_i h1 h2 h3
          simp only [memWfFrom, Bool.and_eq_true, decide_eq_true_eq]
          exact ⟨⟨h, h3⟩, by subst h2; exact w.2⟩
      · simp only [memWfFrom, Bool.and_eq_true, decide_eq_true_eq]
        exact ⟨w.1, ih (j + 1) (by omega) w.2⟩

/-- A byte write keeps the canonical form. -/
theorem mset_wf (m : Memory) (a : Nat) (v : Byte) (w : Memory.wf m = true) : Memory.wf (mset m a v) = true :=
  mset_wfFrom 0 m a v (Nat.zero_le a) w

/-- A write of a string keeps the canonical form. -/
theorem mwrite_wf (m : Memory) (a : Nat) (b : Bytes) (w : Memory.wf m = true) : Memory.wf (mwrite m a b) = true := by
  induction b generalizing m a with
  | nil => exact w
  | cons x t ih => exact ih (mset m a x) (a + 1) (mset_wf m a x w)

/-- A region of bytes as a memory has the canonical form. -/
theorem memOf_wf (b : Bytes) : Memory.wf (memOf b) = true := mwrite_wf [] 0 b rfl

/-- The memories of the machine after reset have the canonical form. -/
theorem reset_memories_wf :
    Memory.wf State.reset.dev.fab.mram = true ∧ Memory.wf State.reset.dev.fab.dram = true ∧
      Memory.wf State.reset.dev.nvm.fwBuf.bytes = true ∧ Memory.wf State.reset.dev.bot.recBuf = true ∧
      Memory.wf State.reset.dev.mgt.vpd = true ∧ Memory.wf State.reset.dev.emb.memory = true := by decide

/-! ## Reading -/

theorem mget_below (lo : Nat) (m : Memory) (a : Nat) (w : memWfFrom lo m = true) (h : a < lo) : mget m a = 0 := by
  cases m with
  | nil => rfl
  | cons x t =>
    obtain ⟨j, v⟩ := x
    simp only [memWfFrom, Bool.and_eq_true, decide_eq_true_eq] at w
    have h1 : j ≠ a := by omega
    have h2 : a < j := by omega
    simp [mget, h1, h2]

theorem mget_mset_from (lo : Nat) (m : Memory) (a b : Nat) (v : Byte) (w : memWfFrom lo m = true) :
    mget (mset m a v) b = if b = a then v else mget m b := by
  induction m generalizing lo with
  | nil =>
    simp only [mset]
    split
    · rename_i h; simp [mget, h]
    · simp only [mget]
      by_cases h : a = b
      · simp [h]
      · simp [h, Ne.symm h]
  | cons x t ih =>
    obtain ⟨j, u⟩ := x
    simp only [memWfFrom, Bool.and_eq_true, decide_eq_true_eq] at w
    simp only [mset]
    split
    · split
      · rename_i h1 h2
        by_cases h : b = a
        · have e1 : j ≠ a := by omega
          subst h
          simp [mget, e1, h1, h2]
        · simp [h]
      · rename_i h1 h2
        by_cases h : b = a
        · simp [mget, h]
        · have e1 : a ≠ b := fun e => h e.symm
          by_cases h3 : b < a
          · have e2 : j ≠ b := by omega
            have e3 : b < j := by omega
            simp [mget, h, e1, h3, e2, e3]
          · simp [mget, h, e1, h3]
    · split
      · rename_i h1 h2
        subst h2
        split
        · rename_i h3
          by_cases h : b = j
          · subst h; simp [h3, mget_below (b + 1) t b w.2 (by omega)]
          · by_cases h4 : b < j
            · simp [mget, h, Ne.symm h, h4, mget_below (j + 1) t b w.2 (by omega)]
            · simp [mget, h, Ne.symm h, h4]
        · by_cases h : b = j
          · simp [mget, h]
          · simp [mget, h, Ne.symm h]
      · rename_i h1 h2
        by_cases h : j = b
        · have : b ≠ a := by omega
          simp [mget, h, this]
        · by_cases h4 : b < j
          · have : b ≠ a := by omega
            simp [mget, h, h4, this]
          · simp [mget, h, h4, ih (j + 1) w.2]

/-- What a byte reads as after a byte write. -/
theorem mget_mset (m : Memory) (a b : Nat) (v : Byte) (w : Memory.wf m = true) :
    mget (mset m a v) b = if b = a then v else mget m b := mget_mset_from 0 m a b v w

/-- What a byte reads as after a write of a string. -/
theorem mget_mwrite (m : Memory) (a x : Nat) (b : Bytes) (w : Memory.wf m = true) :
    mget (mwrite m a b) x = if a ≤ x ∧ x < a + b.length then b.getD (x - a) 0 else mget m x := by
  induction b generalizing m a with
  | nil =>
    have : ¬ (a ≤ x ∧ x < a + ([] : Bytes).length) := by simp only [List.length_nil]; omega
    rw [if_neg this]; rfl
  | cons y t ih =>
    simp only [mwrite, ih (mset m a y) (a + 1) (mset_wf m a y w), mget_mset m a x y w, List.length_cons]
    by_cases h : x = a
    · subst h
      rw [if_neg (by omega), if_pos rfl, if_pos (by omega), Nat.sub_self]; rfl
    · by_cases h1 : a + 1 ≤ x ∧ x < a + 1 + t.length
      · have h2 : a ≤ x ∧ x < a + (t.length + 1) := by omega
        obtain ⟨k, hk⟩ : ∃ k, x - a = k + 1 := ⟨x - a - 1, by omega⟩
        have hk2 : x - (a + 1) = k := by omega
        rw [if_pos h1, if_pos h2, hk, hk2]; rfl
      · rw [if_neg h1, if_neg h, if_neg (by omega)]

end Sys2Proof.Machine
end

