-- ==== Sys2Proof/Laws/State.lean ====
section
/-! SUPPORT. One lemma per field per direct update of the device: an update of one block leaves every other block as it was. -/

namespace Sys2Proof.Machine

@[simp] theorem Dev.modBridge_clk (d : Dev) (dir : Nat) (f : Lane → Lane) : (d.modBridge dir f).clk = d.clk := rfl
@[simp] theorem Dev.modBridge_tol (d : Dev) (dir : Nat) (f : Lane → Lane) : (d.modBridge dir f).tol = d.tol := rfl
@[simp] theorem Dev.modBridge_hlk (d : Dev) (dir : Nat) (f : Lane → Lane) : (d.modBridge dir f).hlk = d.hlk := rfl
@[simp] theorem Dev.modBridge_fnm (d : Dev) (dir : Nat) (f : Lane → Lane) : (d.modBridge dir f).fnm = d.fnm := rfl
@[simp] theorem Dev.modBridge_qen (d : Dev) (dir : Nat) (f : Lane → Lane) : (d.modBridge dir f).qen = d.qen := rfl
@[simp] theorem Dev.modBridge_nvm (d : Dev) (dir : Nat) (f : Lane → Lane) : (d.modBridge dir f).nvm = d.nvm := rfl
@[simp] theorem Dev.modBridge_wrp (d : Dev) (dir : Nat) (f : Lane → Lane) : (d.modBridge dir f).wrp = d.wrp := rfl
@[simp] theorem Dev.modBridge_rdp (d : Dev) (dir : Nat) (f : Lane → Lane) : (d.modBridge dir f).rdp = d.rdp := rfl
@[simp] theorem Dev.modBridge_icm (d : Dev) (dir : Nat) (f : Lane → Lane) : (d.modBridge dir f).icm = d.icm := rfl
@[simp] theorem Dev.modBridge_mxt (d : Dev) (dir : Nat) (f : Lane → Lane) : (d.modBridge dir f).mxt = d.mxt := rfl
@[simp] theorem Dev.modBridge_ldc (d : Dev) (dir : Nat) (f : Lane → Lane) : (d.modBridge dir f).ldc = d.ldc := rfl
@[simp] theorem Dev.modBridge_mch (d : Dev) (dir : Nat) (f : Lane → Lane) : (d.modBridge dir f).mch = d.mch := rfl
@[simp] theorem Dev.modBridge_crt (d : Dev) (dir : Nat) (f : Lane → Lane) : (d.modBridge dir f).crt = d.crt := rfl
@[simp] theorem Dev.modBridge_jrn (d : Dev) (dir : Nat) (f : Lane → Lane) : (d.modBridge dir f).jrn = d.jrn := rfl
@[simp] theorem Dev.modBridge_map (d : Dev) (dir : Nat) (f : Lane → Lane) : (d.modBridge dir f).map = d.map := rfl
@[simp] theorem Dev.modBridge_par (d : Dev) (dir : Nat) (f : Lane → Lane) : (d.modBridge dir f).par = d.par := rfl
@[simp] theorem Dev.modBridge_outr (d : Dev) (dir : Nat) (f : Lane → Lane) : (d.modBridge dir f).outr = d.outr := rfl
@[simp] theorem Dev.modBridge_hrt (d : Dev) (dir : Nat) (f : Lane → Lane) : (d.modBridge dir f).hrt = d.hrt := rfl
@[simp] theorem Dev.modBridge_tng (d : Dev) (dir : Nat) (f : Lane → Lane) : (d.modBridge dir f).tng = d.tng := rfl
@[simp] theorem Dev.modBridge_cxe (d : Dev) (dir : Nat) (f : Lane → Lane) : (d.modBridge dir f).cxe = d.cxe := rfl
@[simp] theorem Dev.modBridge_dge (d : Dev) (dir : Nat) (f : Lane → Lane) : (d.modBridge dir f).dge = d.dge := rfl
@[simp] theorem Dev.modBridge_aee (d : Dev) (dir : Nat) (f : Lane → Lane) : (d.modBridge dir f).aee = d.aee := rfl
@[simp] theorem Dev.modBridge_key (d : Dev) (dir : Nat) (f : Lane → Lane) : (d.modBridge dir f).key = d.key := rfl
@[simp] theorem Dev.modBridge_drv (d : Dev) (dir : Nat) (f : Lane → Lane) : (d.modBridge dir f).drv = d.drv := rfl
@[simp] theorem Dev.modBridge_icu (d : Dev) (dir : Nat) (f : Lane → Lane) : (d.modBridge dir f).icu = d.icu := rfl
@[simp] theorem Dev.modBridge_cfl (d : Dev) (dir : Nat) (f : Lane → Lane) : (d.modBridge dir f).cfl = d.cfl := rfl
@[simp] theorem Dev.modBridge_bot (d : Dev) (dir : Nat) (f : Lane → Lane) : (d.modBridge dir f).bot = d.bot := rfl
@[simp] theorem Dev.modBridge_wdt (d : Dev) (dir : Nat) (f : Lane → Lane) : (d.modBridge dir f).wdt = d.wdt := rfl
@[simp] theorem Dev.modBridge_mnf (d : Dev) (dir : Nat) (f : Lane → Lane) : (d.modBridge dir f).mnf = d.mnf := rfl
@[simp] theorem Dev.modBridge_evl (d : Dev) (dir : Nat) (f : Lane → Lane) : (d.modBridge dir f).evl = d.evl := rfl
@[simp] theorem Dev.modBridge_mgt (d : Dev) (dir : Nat) (f : Lane → Lane) : (d.modBridge dir f).mgt = d.mgt := rfl
@[simp] theorem Dev.modBridge_spdm (d : Dev) (dir : Nat) (f : Lane → Lane) : (d.modBridge dir f).spdm = d.spdm := rfl
@[simp] theorem Dev.modBridge_emb (d : Dev) (dir : Nat) (f : Lane → Lane) : (d.modBridge dir f).emb = d.emb := rfl
@[simp] theorem Dev.modBridge_blw (d : Dev) (dir : Nat) (f : Lane → Lane) : (d.modBridge dir f).blw = d.blw := rfl
@[simp] theorem Dev.modBridge_out (d : Dev) (dir : Nat) (f : Lane → Lane) : (d.modBridge dir f).out = d.out := rfl

@[simp] theorem Dev.modRing_clk (d : Dev) (k : Nat) (f : MRing → MRing) : (d.modRing k f).clk = d.clk := rfl
@[simp] theorem Dev.modRing_tol (d : Dev) (k : Nat) (f : MRing → MRing) : (d.modRing k f).tol = d.tol := rfl
@[simp] theorem Dev.modRing_hlk (d : Dev) (k : Nat) (f : MRing → MRing) : (d.modRing k f).hlk = d.hlk := rfl
@[simp] theorem Dev.modRing_fnm (d : Dev) (k : Nat) (f : MRing → MRing) : (d.modRing k f).fnm = d.fnm := rfl
@[simp] theorem Dev.modRing_qen (d : Dev) (k : Nat) (f : MRing → MRing) : (d.modRing k f).qen = d.qen := rfl
@[simp] theorem Dev.modRing_nvm (d : Dev) (k : Nat) (f : MRing → MRing) : (d.modRing k f).nvm = d.nvm := rfl
@[simp] theorem Dev.modRing_wrp (d : Dev) (k : Nat) (f : MRing → MRing) : (d.modRing k f).wrp = d.wrp := rfl
@[simp] theorem Dev.modRing_rdp (d : Dev) (k : Nat) (f : MRing → MRing) : (d.modRing k f).rdp = d.rdp := rfl
@[simp] theorem Dev.modRing_icm (d : Dev) (k : Nat) (f : MRing → MRing) : (d.modRing k f).icm = d.icm := rfl
@[simp] theorem Dev.modRing_mxt (d : Dev) (k : Nat) (f : MRing → MRing) : (d.modRing k f).mxt = d.mxt := rfl
@[simp] theorem Dev.modRing_ldc (d : Dev) (k : Nat) (f : MRing → MRing) : (d.modRing k f).ldc = d.ldc := rfl
@[simp] theorem Dev.modRing_mch (d : Dev) (k : Nat) (f : MRing → MRing) : (d.modRing k f).mch = d.mch := rfl
@[simp] theorem Dev.modRing_crt (d : Dev) (k : Nat) (f : MRing → MRing) : (d.modRing k f).crt = d.crt := rfl
@[simp] theorem Dev.modRing_jrn (d : Dev) (k : Nat) (f : MRing → MRing) : (d.modRing k f).jrn = d.jrn := rfl
@[simp] theorem Dev.modRing_map (d : Dev) (k : Nat) (f : MRing → MRing) : (d.modRing k f).map = d.map := rfl
@[simp] theorem Dev.modRing_par (d : Dev) (k : Nat) (f : MRing → MRing) : (d.modRing k f).par = d.par := rfl
@[simp] theorem Dev.modRing_outr (d : Dev) (k : Nat) (f : MRing → MRing) : (d.modRing k f).outr = d.outr := rfl
@[simp] theorem Dev.modRing_hrt (d : Dev) (k : Nat) (f : MRing → MRing) : (d.modRing k f).hrt = d.hrt := rfl
@[simp] theorem Dev.modRing_tng (d : Dev) (k : Nat) (f : MRing → MRing) : (d.modRing k f).tng = d.tng := rfl
@[simp] theorem Dev.modRing_cxe (d : Dev) (k : Nat) (f : MRing → MRing) : (d.modRing k f).cxe = d.cxe := rfl
@[simp] theorem Dev.modRing_dge (d : Dev) (k : Nat) (f : MRing → MRing) : (d.modRing k f).dge = d.dge := rfl
@[simp] theorem Dev.modRing_aee (d : Dev) (k : Nat) (f : MRing → MRing) : (d.modRing k f).aee = d.aee := rfl
@[simp] theorem Dev.modRing_key (d : Dev) (k : Nat) (f : MRing → MRing) : (d.modRing k f).key = d.key := rfl
@[simp] theorem Dev.modRing_drv (d : Dev) (k : Nat) (f : MRing → MRing) : (d.modRing k f).drv = d.drv := rfl
@[simp] theorem Dev.modRing_icu (d : Dev) (k : Nat) (f : MRing → MRing) : (d.modRing k f).icu = d.icu := rfl
@[simp] theorem Dev.modRing_cfl (d : Dev) (k : Nat) (f : MRing → MRing) : (d.modRing k f).cfl = d.cfl := rfl
@[simp] theorem Dev.modRing_bot (d : Dev) (k : Nat) (f : MRing → MRing) : (d.modRing k f).bot = d.bot := rfl
@[simp] theorem Dev.modRing_wdt (d : Dev) (k : Nat) (f : MRing → MRing) : (d.modRing k f).wdt = d.wdt := rfl
@[simp] theorem Dev.modRing_mnf (d : Dev) (k : Nat) (f : MRing → MRing) : (d.modRing k f).mnf = d.mnf := rfl
@[simp] theorem Dev.modRing_evl (d : Dev) (k : Nat) (f : MRing → MRing) : (d.modRing k f).evl = d.evl := rfl
@[simp] theorem Dev.modRing_mgt (d : Dev) (k : Nat) (f : MRing → MRing) : (d.modRing k f).mgt = d.mgt := rfl
@[simp] theorem Dev.modRing_spdm (d : Dev) (k : Nat) (f : MRing → MRing) : (d.modRing k f).spdm = d.spdm := rfl
@[simp] theorem Dev.modRing_emb (d : Dev) (k : Nat) (f : MRing → MRing) : (d.modRing k f).emb = d.emb := rfl
@[simp] theorem Dev.modRing_blw (d : Dev) (k : Nat) (f : MRing → MRing) : (d.modRing k f).blw = d.blw := rfl
@[simp] theorem Dev.modRing_out (d : Dev) (k : Nat) (f : MRing → MRing) : (d.modRing k f).out = d.out := rfl

@[simp] theorem Dev.modThread_clk (d : Dev) (n : Nat) (f : Thread → Thread) : (d.modThread n f).clk = d.clk := rfl
@[simp] theorem Dev.modThread_tol (d : Dev) (n : Nat) (f : Thread → Thread) : (d.modThread n f).tol = d.tol := rfl
@[simp] theorem Dev.modThread_fab (d : Dev) (n : Nat) (f : Thread → Thread) : (d.modThread n f).fab = d.fab := rfl
@[simp] theorem Dev.modThread_hlk (d : Dev) (n : Nat) (f : Thread → Thread) : (d.modThread n f).hlk = d.hlk := rfl
@[simp] theorem Dev.modThread_fnm (d : Dev) (n : Nat) (f : Thread → Thread) : (d.modThread n f).fnm = d.fnm := rfl
@[simp] theorem Dev.modThread_qen (d : Dev) (n : Nat) (f : Thread → Thread) : (d.modThread n f).qen = d.qen := rfl
@[simp] theorem Dev.modThread_nvm (d : Dev) (n : Nat) (f : Thread → Thread) : (d.modThread n f).nvm = d.nvm := rfl
@[simp] theorem Dev.modThread_wrp (d : Dev) (n : Nat) (f : Thread → Thread) : (d.modThread n f).wrp = d.wrp := rfl
@[simp] theorem Dev.modThread_rdp (d : Dev) (n : Nat) (f : Thread → Thread) : (d.modThread n f).rdp = d.rdp := rfl
@[simp] theorem Dev.modThread_icm (d : Dev) (n : Nat) (f : Thread → Thread) : (d.modThread n f).icm = d.icm := rfl
@[simp] theorem Dev.modThread_mxt (d : Dev) (n : Nat) (f : Thread → Thread) : (d.modThread n f).mxt = d.mxt := rfl
@[simp] theorem Dev.modThread_ldc (d : Dev) (n : Nat) (f : Thread → Thread) : (d.modThread n f).ldc = d.ldc := rfl
@[simp] theorem Dev.modThread_mch (d : Dev) (n : Nat) (f : Thread → Thread) : (d.modThread n f).mch = d.mch := rfl
@[simp] theorem Dev.modThread_crt (d : Dev) (n : Nat) (f : Thread → Thread) : (d.modThread n f).crt = d.crt := rfl
@[simp] theorem Dev.modThread_jrn (d : Dev) (n : Nat) (f : Thread → Thread) : (d.modThread n f).jrn = d.jrn := rfl
@[simp] theorem Dev.modThread_map (d : Dev) (n : Nat) (f : Thread → Thread) : (d.modThread n f).map = d.map := rfl
@[simp] theorem Dev.modThread_par (d : Dev) (n : Nat) (f : Thread → Thread) : (d.modThread n f).par = d.par := rfl
@[simp] theorem Dev.modThread_outr (d : Dev) (n : Nat) (f : Thread → Thread) : (d.modThread n f).outr = d.outr := rfl
@[simp] theorem Dev.modThread_hrt (d : Dev) (n : Nat) (f : Thread → Thread) : (d.modThread n f).hrt = d.hrt := rfl
@[simp] theorem Dev.modThread_tng (d : Dev) (n : Nat) (f : Thread → Thread) : (d.modThread n f).tng = d.tng := rfl
@[simp] theorem Dev.modThread_cxe (d : Dev) (n : Nat) (f : Thread → Thread) : (d.modThread n f).cxe = d.cxe := rfl
@[simp] theorem Dev.modThread_dge (d : Dev) (n : Nat) (f : Thread → Thread) : (d.modThread n f).dge = d.dge := rfl
@[simp] theorem Dev.modThread_aee (d : Dev) (n : Nat) (f : Thread → Thread) : (d.modThread n f).aee = d.aee := rfl
@[simp] theorem Dev.modThread_key (d : Dev) (n : Nat) (f : Thread → Thread) : (d.modThread n f).key = d.key := rfl
@[simp] theorem Dev.modThread_icu (d : Dev) (n : Nat) (f : Thread → Thread) : (d.modThread n f).icu = d.icu := rfl
@[simp] theorem Dev.modThread_cfl (d : Dev) (n : Nat) (f : Thread → Thread) : (d.modThread n f).cfl = d.cfl := rfl
@[simp] theorem Dev.modThread_bot (d : Dev) (n : Nat) (f : Thread → Thread) : (d.modThread n f).bot = d.bot := rfl
@[simp] theorem Dev.modThread_wdt (d : Dev) (n : Nat) (f : Thread → Thread) : (d.modThread n f).wdt = d.wdt := rfl
@[simp] theorem Dev.modThread_mnf (d : Dev) (n : Nat) (f : Thread → Thread) : (d.modThread n f).mnf = d.mnf := rfl
@[simp] theorem Dev.modThread_evl (d : Dev) (n : Nat) (f : Thread → Thread) : (d.modThread n f).evl = d.evl := rfl
@[simp] theorem Dev.modThread_mgt (d : Dev) (n : Nat) (f : Thread → Thread) : (d.modThread n f).mgt = d.mgt := rfl
@[simp] theorem Dev.modThread_spdm (d : Dev) (n : Nat) (f : Thread → Thread) : (d.modThread n f).spdm = d.spdm := rfl
@[simp] theorem Dev.modThread_emb (d : Dev) (n : Nat) (f : Thread → Thread) : (d.modThread n f).emb = d.emb := rfl
@[simp] theorem Dev.modThread_blw (d : Dev) (n : Nat) (f : Thread → Thread) : (d.modThread n f).blw = d.blw := rfl
@[simp] theorem Dev.modThread_out (d : Dev) (n : Nat) (f : Thread → Thread) : (d.modThread n f).out = d.out := rfl

@[simp] theorem Dev.modDh_clk (d : Dev) (h : Nat) (f : DrvH → DrvH) : (d.modDh h f).clk = d.clk := rfl
@[simp] theorem Dev.modDh_tol (d : Dev) (h : Nat) (f : DrvH → DrvH) : (d.modDh h f).tol = d.tol := rfl
@[simp] theorem Dev.modDh_fab (d : Dev) (h : Nat) (f : DrvH → DrvH) : (d.modDh h f).fab = d.fab := rfl
@[simp] theorem Dev.modDh_hlk (d : Dev) (h : Nat) (f : DrvH → DrvH) : (d.modDh h f).hlk = d.hlk := rfl
@[simp] theorem Dev.modDh_fnm (d : Dev) (h : Nat) (f : DrvH → DrvH) : (d.modDh h f).fnm = d.fnm := rfl
@[simp] theorem Dev.modDh_qen (d : Dev) (h : Nat) (f : DrvH → DrvH) : (d.modDh h f).qen = d.qen := rfl
@[simp] theorem Dev.modDh_nvm (d : Dev) (h : Nat) (f : DrvH → DrvH) : (d.modDh h f).nvm = d.nvm := rfl
@[simp] theorem Dev.modDh_wrp (d : Dev) (h : Nat) (f : DrvH → DrvH) : (d.modDh h f).wrp = d.wrp := rfl
@[simp] theorem Dev.modDh_rdp (d : Dev) (h : Nat) (f : DrvH → DrvH) : (d.modDh h f).rdp = d.rdp := rfl
@[simp] theorem Dev.modDh_icm (d : Dev) (h : Nat) (f : DrvH → DrvH) : (d.modDh h f).icm = d.icm := rfl
@[simp] theorem Dev.modDh_mxt (d : Dev) (h : Nat) (f : DrvH → DrvH) : (d.modDh h f).mxt = d.mxt := rfl
@[simp] theorem Dev.modDh_ldc (d : Dev) (h : Nat) (f : DrvH → DrvH) : (d.modDh h f).ldc = d.ldc := rfl
@[simp] theorem Dev.modDh_mch (d : Dev) (h : Nat) (f : DrvH → DrvH) : (d.modDh h f).mch = d.mch := rfl
@[simp] theorem Dev.modDh_crt (d : Dev) (h : Nat) (f : DrvH → DrvH) : (d.modDh h f).crt = d.crt := rfl
@[simp] theorem Dev.modDh_jrn (d : Dev) (h : Nat) (f : DrvH → DrvH) : (d.modDh h f).jrn = d.jrn := rfl
@[simp] theorem Dev.modDh_map (d : Dev) (h : Nat) (f : DrvH → DrvH) : (d.modDh h f).map = d.map := rfl
@[simp] theorem Dev.modDh_par (d : Dev) (h : Nat) (f : DrvH → DrvH) : (d.modDh h f).par = d.par := rfl
@[simp] theorem Dev.modDh_outr (d : Dev) (h : Nat) (f : DrvH → DrvH) : (d.modDh h f).outr = d.outr := rfl
@[simp] theorem Dev.modDh_hrt (d : Dev) (h : Nat) (f : DrvH → DrvH) : (d.modDh h f).hrt = d.hrt := rfl
@[simp] theorem Dev.modDh_tng (d : Dev) (h : Nat) (f : DrvH → DrvH) : (d.modDh h f).tng = d.tng := rfl
@[simp] theorem Dev.modDh_cxe (d : Dev) (h : Nat) (f : DrvH → DrvH) : (d.modDh h f).cxe = d.cxe := rfl
@[simp] theorem Dev.modDh_dge (d : Dev) (h : Nat) (f : DrvH → DrvH) : (d.modDh h f).dge = d.dge := rfl
@[simp] theorem Dev.modDh_aee (d : Dev) (h : Nat) (f : DrvH → DrvH) : (d.modDh h f).aee = d.aee := rfl
@[simp] theorem Dev.modDh_key (d : Dev) (h : Nat) (f : DrvH → DrvH) : (d.modDh h f).key = d.key := rfl
@[simp] theorem Dev.modDh_icu (d : Dev) (h : Nat) (f : DrvH → DrvH) : (d.modDh h f).icu = d.icu := rfl
@[simp] theorem Dev.modDh_cfl (d : Dev) (h : Nat) (f : DrvH → DrvH) : (d.modDh h f).cfl = d.cfl := rfl
@[simp] theorem Dev.modDh_bot (d : Dev) (h : Nat) (f : DrvH → DrvH) : (d.modDh h f).bot = d.bot := rfl
@[simp] theorem Dev.modDh_wdt (d : Dev) (h : Nat) (f : DrvH → DrvH) : (d.modDh h f).wdt = d.wdt := rfl
@[simp] theorem Dev.modDh_mnf (d : Dev) (h : Nat) (f : DrvH → DrvH) : (d.modDh h f).mnf = d.mnf := rfl
@[simp] theorem Dev.modDh_evl (d : Dev) (h : Nat) (f : DrvH → DrvH) : (d.modDh h f).evl = d.evl := rfl
@[simp] theorem Dev.modDh_mgt (d : Dev) (h : Nat) (f : DrvH → DrvH) : (d.modDh h f).mgt = d.mgt := rfl
@[simp] theorem Dev.modDh_spdm (d : Dev) (h : Nat) (f : DrvH → DrvH) : (d.modDh h f).spdm = d.spdm := rfl
@[simp] theorem Dev.modDh_emb (d : Dev) (h : Nat) (f : DrvH → DrvH) : (d.modDh h f).emb = d.emb := rfl
@[simp] theorem Dev.modDh_blw (d : Dev) (h : Nat) (f : DrvH → DrvH) : (d.modDh h f).blw = d.blw := rfl
@[simp] theorem Dev.modDh_out (d : Dev) (h : Nat) (f : DrvH → DrvH) : (d.modDh h f).out = d.out := rfl

@[simp] theorem Dev.setCjob_clk (d : Dev) (k : Nat) (j : CJob) : (d.setCjob k j).clk = d.clk := rfl
@[simp] theorem Dev.setCjob_tol (d : Dev) (k : Nat) (j : CJob) : (d.setCjob k j).tol = d.tol := rfl
@[simp] theorem Dev.setCjob_fab (d : Dev) (k : Nat) (j : CJob) : (d.setCjob k j).fab = d.fab := rfl
@[simp] theorem Dev.setCjob_hlk (d : Dev) (k : Nat) (j : CJob) : (d.setCjob k j).hlk = d.hlk := rfl
@[simp] theorem Dev.setCjob_fnm (d : Dev) (k : Nat) (j : CJob) : (d.setCjob k j).fnm = d.fnm := rfl
@[simp] theorem Dev.setCjob_qen (d : Dev) (k : Nat) (j : CJob) : (d.setCjob k j).qen = d.qen := rfl
@[simp] theorem Dev.setCjob_nvm (d : Dev) (k : Nat) (j : CJob) : (d.setCjob k j).nvm = d.nvm := rfl
@[simp] theorem Dev.setCjob_wrp (d : Dev) (k : Nat) (j : CJob) : (d.setCjob k j).wrp = d.wrp := rfl
@[simp] theorem Dev.setCjob_rdp (d : Dev) (k : Nat) (j : CJob) : (d.setCjob k j).rdp = d.rdp := rfl
@[simp] theorem Dev.setCjob_icm (d : Dev) (k : Nat) (j : CJob) : (d.setCjob k j).icm = d.icm := rfl
@[simp] theorem Dev.setCjob_mxt (d : Dev) (k : Nat) (j : CJob) : (d.setCjob k j).mxt = d.mxt := rfl
@[simp] theorem Dev.setCjob_ldc (d : Dev) (k : Nat) (j : CJob) : (d.setCjob k j).ldc = d.ldc := rfl
@[simp] theorem Dev.setCjob_mch (d : Dev) (k : Nat) (j : CJob) : (d.setCjob k j).mch = d.mch := rfl
@[simp] theorem Dev.setCjob_crt (d : Dev) (k : Nat) (j : CJob) : (d.setCjob k j).crt = d.crt := rfl
@[simp] theorem Dev.setCjob_jrn (d : Dev) (k : Nat) (j : CJob) : (d.setCjob k j).jrn = d.jrn := rfl
@[simp] theorem Dev.setCjob_map (d : Dev) (k : Nat) (j : CJob) : (d.setCjob k j).map = d.map := rfl
@[simp] theorem Dev.setCjob_par (d : Dev) (k : Nat) (j : CJob) : (d.setCjob k j).par = d.par := rfl
@[simp] theorem Dev.setCjob_outr (d : Dev) (k : Nat) (j : CJob) : (d.setCjob k j).outr = d.outr := rfl
@[simp] theorem Dev.setCjob_hrt (d : Dev) (k : Nat) (j : CJob) : (d.setCjob k j).hrt = d.hrt := rfl
@[simp] theorem Dev.setCjob_tng (d : Dev) (k : Nat) (j : CJob) : (d.setCjob k j).tng = d.tng := rfl
@[simp] theorem Dev.setCjob_dge (d : Dev) (k : Nat) (j : CJob) : (d.setCjob k j).dge = d.dge := rfl
@[simp] theorem Dev.setCjob_aee (d : Dev) (k : Nat) (j : CJob) : (d.setCjob k j).aee = d.aee := rfl
@[simp] theorem Dev.setCjob_key (d : Dev) (k : Nat) (j : CJob) : (d.setCjob k j).key = d.key := rfl
@[simp] theorem Dev.setCjob_drv (d : Dev) (k : Nat) (j : CJob) : (d.setCjob k j).drv = d.drv := rfl
@[simp] theorem Dev.setCjob_icu (d : Dev) (k : Nat) (j : CJob) : (d.setCjob k j).icu = d.icu := rfl
@[simp] theorem Dev.setCjob_cfl (d : Dev) (k : Nat) (j : CJob) : (d.setCjob k j).cfl = d.cfl := rfl
@[simp] theorem Dev.setCjob_bot (d : Dev) (k : Nat) (j : CJob) : (d.setCjob k j).bot = d.bot := rfl
@[simp] theorem Dev.setCjob_wdt (d : Dev) (k : Nat) (j : CJob) : (d.setCjob k j).wdt = d.wdt := rfl
@[simp] theorem Dev.setCjob_mnf (d : Dev) (k : Nat) (j : CJob) : (d.setCjob k j).mnf = d.mnf := rfl
@[simp] theorem Dev.setCjob_evl (d : Dev) (k : Nat) (j : CJob) : (d.setCjob k j).evl = d.evl := rfl
@[simp] theorem Dev.setCjob_mgt (d : Dev) (k : Nat) (j : CJob) : (d.setCjob k j).mgt = d.mgt := rfl
@[simp] theorem Dev.setCjob_spdm (d : Dev) (k : Nat) (j : CJob) : (d.setCjob k j).spdm = d.spdm := rfl
@[simp] theorem Dev.setCjob_emb (d : Dev) (k : Nat) (j : CJob) : (d.setCjob k j).emb = d.emb := rfl
@[simp] theorem Dev.setCjob_blw (d : Dev) (k : Nat) (j : CJob) : (d.setCjob k j).blw = d.blw := rfl
@[simp] theorem Dev.setCjob_out (d : Dev) (k : Nat) (j : CJob) : (d.setCjob k j).out = d.out := rfl

@[simp] theorem Dev.freeCjob_clk (d : Dev) (k : Nat) : (d.freeCjob k).clk = d.clk := rfl
@[simp] theorem Dev.freeCjob_tol (d : Dev) (k : Nat) : (d.freeCjob k).tol = d.tol := rfl
@[simp] theorem Dev.freeCjob_fab (d : Dev) (k : Nat) : (d.freeCjob k).fab = d.fab := rfl
@[simp] theorem Dev.freeCjob_hlk (d : Dev) (k : Nat) : (d.freeCjob k).hlk = d.hlk := rfl
@[simp] theorem Dev.freeCjob_fnm (d : Dev) (k : Nat) : (d.freeCjob k).fnm = d.fnm := rfl
@[simp] theorem Dev.freeCjob_qen (d : Dev) (k : Nat) : (d.freeCjob k).qen = d.qen := rfl
@[simp] theorem Dev.freeCjob_nvm (d : Dev) (k : Nat) : (d.freeCjob k).nvm = d.nvm := rfl
@[simp] theorem Dev.freeCjob_wrp (d : Dev) (k : Nat) : (d.freeCjob k).wrp = d.wrp := rfl
@[simp] theorem Dev.freeCjob_rdp (d : Dev) (k : Nat) : (d.freeCjob k).rdp = d.rdp := rfl
@[simp] theorem Dev.freeCjob_icm (d : Dev) (k : Nat) : (d.freeCjob k).icm = d.icm := rfl
@[simp] theorem Dev.freeCjob_mxt (d : Dev) (k : Nat) : (d.freeCjob k).mxt = d.mxt := rfl
@[simp] theorem Dev.freeCjob_ldc (d : Dev) (k : Nat) : (d.freeCjob k).ldc = d.ldc := rfl
@[simp] theorem Dev.freeCjob_mch (d : Dev) (k : Nat) : (d.freeCjob k).mch = d.mch := rfl
@[simp] theorem Dev.freeCjob_crt (d : Dev) (k : Nat) : (d.freeCjob k).crt = d.crt := rfl
@[simp] theorem Dev.freeCjob_jrn (d : Dev) (k : Nat) : (d.freeCjob k).jrn = d.jrn := rfl
@[simp] theorem Dev.freeCjob_map (d : Dev) (k : Nat) : (d.freeCjob k).map = d.map := rfl
@[simp] theorem Dev.freeCjob_par (d : Dev) (k : Nat) : (d.freeCjob k).par = d.par := rfl
@[simp] theorem Dev.freeCjob_outr (d : Dev) (k : Nat) : (d.freeCjob k).outr = d.outr := rfl
@[simp] theorem Dev.freeCjob_hrt (d : Dev) (k : Nat) : (d.freeCjob k).hrt = d.hrt := rfl
@[simp] theorem Dev.freeCjob_tng (d : Dev) (k : Nat) : (d.freeCjob k).tng = d.tng := rfl
@[simp] theorem Dev.freeCjob_dge (d : Dev) (k : Nat) : (d.freeCjob k).dge = d.dge := rfl
@[simp] theorem Dev.freeCjob_aee (d : Dev) (k : Nat) : (d.freeCjob k).aee = d.aee := rfl
@[simp] theorem Dev.freeCjob_key (d : Dev) (k : Nat) : (d.freeCjob k).key = d.key := rfl
@[simp] theorem Dev.freeCjob_drv (d : Dev) (k : Nat) : (d.freeCjob k).drv = d.drv := rfl
@[simp] theorem Dev.freeCjob_icu (d : Dev) (k : Nat) : (d.freeCjob k).icu = d.icu := rfl
@[simp] theorem Dev.freeCjob_cfl (d : Dev) (k : Nat) : (d.freeCjob k).cfl = d.cfl := rfl
@[simp] theorem Dev.freeCjob_bot (d : Dev) (k : Nat) : (d.freeCjob k).bot = d.bot := rfl
@[simp] theorem Dev.freeCjob_wdt (d : Dev) (k : Nat) : (d.freeCjob k).wdt = d.wdt := rfl
@[simp] theorem Dev.freeCjob_mnf (d : Dev) (k : Nat) : (d.freeCjob k).mnf = d.mnf := rfl
@[simp] theorem Dev.freeCjob_evl (d : Dev) (k : Nat) : (d.freeCjob k).evl = d.evl := rfl
@[simp] theorem Dev.freeCjob_mgt (d : Dev) (k : Nat) : (d.freeCjob k).mgt = d.mgt := rfl
@[simp] theorem Dev.freeCjob_spdm (d : Dev) (k : Nat) : (d.freeCjob k).spdm = d.spdm := rfl
@[simp] theorem Dev.freeCjob_emb (d : Dev) (k : Nat) : (d.freeCjob k).emb = d.emb := rfl
@[simp] theorem Dev.freeCjob_blw (d : Dev) (k : Nat) : (d.freeCjob k).blw = d.blw := rfl
@[simp] theorem Dev.freeCjob_out (d : Dev) (k : Nat) : (d.freeCjob k).out = d.out := rfl

@[simp] theorem Dev.setDctx_clk (d : Dev) (k : Nat) (c : DCtx) : (d.setDctx k c).clk = d.clk := rfl
@[simp] theorem Dev.setDctx_tol (d : Dev) (k : Nat) (c : DCtx) : (d.setDctx k c).tol = d.tol := rfl
@[simp] theorem Dev.setDctx_fab (d : Dev) (k : Nat) (c : DCtx) : (d.setDctx k c).fab = d.fab := rfl
@[simp] theorem Dev.setDctx_hlk (d : Dev) (k : Nat) (c : DCtx) : (d.setDctx k c).hlk = d.hlk := rfl
@[simp] theorem Dev.setDctx_fnm (d : Dev) (k : Nat) (c : DCtx) : (d.setDctx k c).fnm = d.fnm := rfl
@[simp] theorem Dev.setDctx_qen (d : Dev) (k : Nat) (c : DCtx) : (d.setDctx k c).qen = d.qen := rfl
@[simp] theorem Dev.setDctx_nvm (d : Dev) (k : Nat) (c : DCtx) : (d.setDctx k c).nvm = d.nvm := rfl
@[simp] theorem Dev.setDctx_wrp (d : Dev) (k : Nat) (c : DCtx) : (d.setDctx k c).wrp = d.wrp := rfl
@[simp] theorem Dev.setDctx_rdp (d : Dev) (k : Nat) (c : DCtx) : (d.setDctx k c).rdp = d.rdp := rfl
@[simp] theorem Dev.setDctx_icm (d : Dev) (k : Nat) (c : DCtx) : (d.setDctx k c).icm = d.icm := rfl
@[simp] theorem Dev.setDctx_mxt (d : Dev) (k : Nat) (c : DCtx) : (d.setDctx k c).mxt = d.mxt := rfl
@[simp] theorem Dev.setDctx_ldc (d : Dev) (k : Nat) (c : DCtx) : (d.setDctx k c).ldc = d.ldc := rfl
@[simp] theorem Dev.setDctx_mch (d : Dev) (k : Nat) (c : DCtx) : (d.setDctx k c).mch = d.mch := rfl
@[simp] theorem Dev.setDctx_crt (d : Dev) (k : Nat) (c : DCtx) : (d.setDctx k c).crt = d.crt := rfl
@[simp] theorem Dev.setDctx_jrn (d : Dev) (k : Nat) (c : DCtx) : (d.setDctx k c).jrn = d.jrn := rfl
@[simp] theorem Dev.setDctx_map (d : Dev) (k : Nat) (c : DCtx) : (d.setDctx k c).map = d.map := rfl
@[simp] theorem Dev.setDctx_par (d : Dev) (k : Nat) (c : DCtx) : (d.setDctx k c).par = d.par := rfl
@[simp] theorem Dev.setDctx_outr (d : Dev) (k : Nat) (c : DCtx) : (d.setDctx k c).outr = d.outr := rfl
@[simp] theorem Dev.setDctx_hrt (d : Dev) (k : Nat) (c : DCtx) : (d.setDctx k c).hrt = d.hrt := rfl
@[simp] theorem Dev.setDctx_tng (d : Dev) (k : Nat) (c : DCtx) : (d.setDctx k c).tng = d.tng := rfl
@[simp] theorem Dev.setDctx_cxe (d : Dev) (k : Nat) (c : DCtx) : (d.setDctx k c).cxe = d.cxe := rfl
@[simp] theorem Dev.setDctx_aee (d : Dev) (k : Nat) (c : DCtx) : (d.setDctx k c).aee = d.aee := rfl
@[simp] theorem Dev.setDctx_key (d : Dev) (k : Nat) (c : DCtx) : (d.setDctx k c).key = d.key := rfl
@[simp] theorem Dev.setDctx_drv (d : Dev) (k : Nat) (c : DCtx) : (d.setDctx k c).drv = d.drv := rfl
@[simp] theorem Dev.setDctx_icu (d : Dev) (k : Nat) (c : DCtx) : (d.setDctx k c).icu = d.icu := rfl
@[simp] theorem Dev.setDctx_cfl (d : Dev) (k : Nat) (c : DCtx) : (d.setDctx k c).cfl = d.cfl := rfl
@[simp] theorem Dev.setDctx_bot (d : Dev) (k : Nat) (c : DCtx) : (d.setDctx k c).bot = d.bot := rfl
@[simp] theorem Dev.setDctx_wdt (d : Dev) (k : Nat) (c : DCtx) : (d.setDctx k c).wdt = d.wdt := rfl
@[simp] theorem Dev.setDctx_mnf (d : Dev) (k : Nat) (c : DCtx) : (d.setDctx k c).mnf = d.mnf := rfl
@[simp] theorem Dev.setDctx_evl (d : Dev) (k : Nat) (c : DCtx) : (d.setDctx k c).evl = d.evl := rfl
@[simp] theorem Dev.setDctx_mgt (d : Dev) (k : Nat) (c : DCtx) : (d.setDctx k c).mgt = d.mgt := rfl
@[simp] theorem Dev.setDctx_spdm (d : Dev) (k : Nat) (c : DCtx) : (d.setDctx k c).spdm = d.spdm := rfl
@[simp] theorem Dev.setDctx_emb (d : Dev) (k : Nat) (c : DCtx) : (d.setDctx k c).emb = d.emb := rfl
@[simp] theorem Dev.setDctx_blw (d : Dev) (k : Nat) (c : DCtx) : (d.setDctx k c).blw = d.blw := rfl
@[simp] theorem Dev.setDctx_out (d : Dev) (k : Nat) (c : DCtx) : (d.setDctx k c).out = d.out := rfl

@[simp] theorem Dev.freeDctx_clk (d : Dev) (k : Nat) : (d.freeDctx k).clk = d.clk := rfl
@[simp] theorem Dev.freeDctx_tol (d : Dev) (k : Nat) : (d.freeDctx k).tol = d.tol := rfl
@[simp] theorem Dev.freeDctx_fab (d : Dev) (k : Nat) : (d.freeDctx k).fab = d.fab := rfl
@[simp] theorem Dev.freeDctx_hlk (d : Dev) (k : Nat) : (d.freeDctx k).hlk = d.hlk := rfl
@[simp] theorem Dev.freeDctx_fnm (d : Dev) (k : Nat) : (d.freeDctx k).fnm = d.fnm := rfl
@[simp] theorem Dev.freeDctx_qen (d : Dev) (k : Nat) : (d.freeDctx k).qen = d.qen := rfl
@[simp] theorem Dev.freeDctx_nvm (d : Dev) (k : Nat) : (d.freeDctx k).nvm = d.nvm := rfl
@[simp] theorem Dev.freeDctx_wrp (d : Dev) (k : Nat) : (d.freeDctx k).wrp = d.wrp := rfl
@[simp] theorem Dev.freeDctx_rdp (d : Dev) (k : Nat) : (d.freeDctx k).rdp = d.rdp := rfl
@[simp] theorem Dev.freeDctx_icm (d : Dev) (k : Nat) : (d.freeDctx k).icm = d.icm := rfl
@[simp] theorem Dev.freeDctx_mxt (d : Dev) (k : Nat) : (d.freeDctx k).mxt = d.mxt := rfl
@[simp] theorem Dev.freeDctx_ldc (d : Dev) (k : Nat) : (d.freeDctx k).ldc = d.ldc := rfl
@[simp] theorem Dev.freeDctx_mch (d : Dev) (k : Nat) : (d.freeDctx k).mch = d.mch := rfl
@[simp] theorem Dev.freeDctx_crt (d : Dev) (k : Nat) : (d.freeDctx k).crt = d.crt := rfl
@[simp] theorem Dev.freeDctx_jrn (d : Dev) (k : Nat) : (d.freeDctx k).jrn = d.jrn := rfl
@[simp] theorem Dev.freeDctx_map (d : Dev) (k : Nat) : (d.freeDctx k).map = d.map := rfl
@[simp] theorem Dev.freeDctx_par (d : Dev) (k : Nat) : (d.freeDctx k).par = d.par := rfl
@[simp] theorem Dev.freeDctx_outr (d : Dev) (k : Nat) : (d.freeDctx k).outr = d.outr := rfl
@[simp] theorem Dev.freeDctx_hrt (d : Dev) (k : Nat) : (d.freeDctx k).hrt = d.hrt := rfl
@[simp] theorem Dev.freeDctx_tng (d : Dev) (k : Nat) : (d.freeDctx k).tng = d.tng := rfl
@[simp] theorem Dev.freeDctx_cxe (d : Dev) (k : Nat) : (d.freeDctx k).cxe = d.cxe := rfl
@[simp] theorem Dev.freeDctx_aee (d : Dev) (k : Nat) : (d.freeDctx k).aee = d.aee := rfl
@[simp] theorem Dev.freeDctx_key (d : Dev) (k : Nat) : (d.freeDctx k).key = d.key := rfl
@[simp] theorem Dev.freeDctx_drv (d : Dev) (k : Nat) : (d.freeDctx k).drv = d.drv := rfl
@[simp] theorem Dev.freeDctx_icu (d : Dev) (k : Nat) : (d.freeDctx k).icu = d.icu := rfl
@[simp] theorem Dev.freeDctx_cfl (d : Dev) (k : Nat) : (d.freeDctx k).cfl = d.cfl := rfl
@[simp] theorem Dev.freeDctx_bot (d : Dev) (k : Nat) : (d.freeDctx k).bot = d.bot := rfl
@[simp] theorem Dev.freeDctx_wdt (d : Dev) (k : Nat) : (d.freeDctx k).wdt = d.wdt := rfl
@[simp] theorem Dev.freeDctx_mnf (d : Dev) (k : Nat) : (d.freeDctx k).mnf = d.mnf := rfl
@[simp] theorem Dev.freeDctx_evl (d : Dev) (k : Nat) : (d.freeDctx k).evl = d.evl := rfl
@[simp] theorem Dev.freeDctx_mgt (d : Dev) (k : Nat) : (d.freeDctx k).mgt = d.mgt := rfl
@[simp] theorem Dev.freeDctx_spdm (d : Dev) (k : Nat) : (d.freeDctx k).spdm = d.spdm := rfl
@[simp] theorem Dev.freeDctx_emb (d : Dev) (k : Nat) : (d.freeDctx k).emb = d.emb := rfl
@[simp] theorem Dev.freeDctx_blw (d : Dev) (k : Nat) : (d.freeDctx k).blw = d.blw := rfl
@[simp] theorem Dev.freeDctx_out (d : Dev) (k : Nat) : (d.freeDctx k).out = d.out := rfl

@[simp] theorem Dev.setAjob_clk (d : Dev) (k : Nat) (j : AJob) : (d.setAjob k j).clk = d.clk := rfl
@[simp] theorem Dev.setAjob_tol (d : Dev) (k : Nat) (j : AJob) : (d.setAjob k j).tol = d.tol := rfl
@[simp] theorem Dev.setAjob_fab (d : Dev) (k : Nat) (j : AJob) : (d.setAjob k j).fab = d.fab := rfl
@[simp] theorem Dev.setAjob_hlk (d : Dev) (k : Nat) (j : AJob) : (d.setAjob k j).hlk = d.hlk := rfl
@[simp] theorem Dev.setAjob_fnm (d : Dev) (k : Nat) (j : AJob) : (d.setAjob k j).fnm = d.fnm := rfl
@[simp] theorem Dev.setAjob_qen (d : Dev) (k : Nat) (j : AJob) : (d.setAjob k j).qen = d.qen := rfl
@[simp] theorem Dev.setAjob_nvm (d : Dev) (k : Nat) (j : AJob) : (d.setAjob k j).nvm = d.nvm := rfl
@[simp] theorem Dev.setAjob_wrp (d : Dev) (k : Nat) (j : AJob) : (d.setAjob k j).wrp = d.wrp := rfl
@[simp] theorem Dev.setAjob_rdp (d : Dev) (k : Nat) (j : AJob) : (d.setAjob k j).rdp = d.rdp := rfl
@[simp] theorem Dev.setAjob_icm (d : Dev) (k : Nat) (j : AJob) : (d.setAjob k j).icm = d.icm := rfl
@[simp] theorem Dev.setAjob_mxt (d : Dev) (k : Nat) (j : AJob) : (d.setAjob k j).mxt = d.mxt := rfl
@[simp] theorem Dev.setAjob_ldc (d : Dev) (k : Nat) (j : AJob) : (d.setAjob k j).ldc = d.ldc := rfl
@[simp] theorem Dev.setAjob_mch (d : Dev) (k : Nat) (j : AJob) : (d.setAjob k j).mch = d.mch := rfl
@[simp] theorem Dev.setAjob_crt (d : Dev) (k : Nat) (j : AJob) : (d.setAjob k j).crt = d.crt := rfl
@[simp] theorem Dev.setAjob_jrn (d : Dev) (k : Nat) (j : AJob) : (d.setAjob k j).jrn = d.jrn := rfl
@[simp] theorem Dev.setAjob_map (d : Dev) (k : Nat) (j : AJob) : (d.setAjob k j).map = d.map := rfl
@[simp] theorem Dev.setAjob_par (d : Dev) (k : Nat) (j : AJob) : (d.setAjob k j).par = d.par := rfl
@[simp] theorem Dev.setAjob_outr (d : Dev) (k : Nat) (j : AJob) : (d.setAjob k j).outr = d.outr := rfl
@[simp] theorem Dev.setAjob_hrt (d : Dev) (k : Nat) (j : AJob) : (d.setAjob k j).hrt = d.hrt := rfl
@[simp] theorem Dev.setAjob_tng (d : Dev) (k : Nat) (j : AJob) : (d.setAjob k j).tng = d.tng := rfl
@[simp] theorem Dev.setAjob_cxe (d : Dev) (k : Nat) (j : AJob) : (d.setAjob k j).cxe = d.cxe := rfl
@[simp] theorem Dev.setAjob_dge (d : Dev) (k : Nat) (j : AJob) : (d.setAjob k j).dge = d.dge := rfl
@[simp] theorem Dev.setAjob_key (d : Dev) (k : Nat) (j : AJob) : (d.setAjob k j).key = d.key := rfl
@[simp] theorem Dev.setAjob_drv (d : Dev) (k : Nat) (j : AJob) : (d.setAjob k j).drv = d.drv := rfl
@[simp] theorem Dev.setAjob_icu (d : Dev) (k : Nat) (j : AJob) : (d.setAjob k j).icu = d.icu := rfl
@[simp] theorem Dev.setAjob_cfl (d : Dev) (k : Nat) (j : AJob) : (d.setAjob k j).cfl = d.cfl := rfl
@[simp] theorem Dev.setAjob_bot (d : Dev) (k : Nat) (j : AJob) : (d.setAjob k j).bot = d.bot := rfl
@[simp] theorem Dev.setAjob_wdt (d : Dev) (k : Nat) (j : AJob) : (d.setAjob k j).wdt = d.wdt := rfl
@[simp] theorem Dev.setAjob_mnf (d : Dev) (k : Nat) (j : AJob) : (d.setAjob k j).mnf = d.mnf := rfl
@[simp] theorem Dev.setAjob_evl (d : Dev) (k : Nat) (j : AJob) : (d.setAjob k j).evl = d.evl := rfl
@[simp] theorem Dev.setAjob_mgt (d : Dev) (k : Nat) (j : AJob) : (d.setAjob k j).mgt = d.mgt := rfl
@[simp] theorem Dev.setAjob_spdm (d : Dev) (k : Nat) (j : AJob) : (d.setAjob k j).spdm = d.spdm := rfl
@[simp] theorem Dev.setAjob_emb (d : Dev) (k : Nat) (j : AJob) : (d.setAjob k j).emb = d.emb := rfl
@[simp] theorem Dev.setAjob_blw (d : Dev) (k : Nat) (j : AJob) : (d.setAjob k j).blw = d.blw := rfl
@[simp] theorem Dev.setAjob_out (d : Dev) (k : Nat) (j : AJob) : (d.setAjob k j).out = d.out := rfl

@[simp] theorem Dev.freeAjob_clk (d : Dev) (k : Nat) : (d.freeAjob k).clk = d.clk := rfl
@[simp] theorem Dev.freeAjob_tol (d : Dev) (k : Nat) : (d.freeAjob k).tol = d.tol := rfl
@[simp] theorem Dev.freeAjob_fab (d : Dev) (k : Nat) : (d.freeAjob k).fab = d.fab := rfl
@[simp] theorem Dev.freeAjob_hlk (d : Dev) (k : Nat) : (d.freeAjob k).hlk = d.hlk := rfl
@[simp] theorem Dev.freeAjob_fnm (d : Dev) (k : Nat) : (d.freeAjob k).fnm = d.fnm := rfl
@[simp] theorem Dev.freeAjob_qen (d : Dev) (k : Nat) : (d.freeAjob k).qen = d.qen := rfl
@[simp] theorem Dev.freeAjob_nvm (d : Dev) (k : Nat) : (d.freeAjob k).nvm = d.nvm := rfl
@[simp] theorem Dev.freeAjob_wrp (d : Dev) (k : Nat) : (d.freeAjob k).wrp = d.wrp := rfl
@[simp] theorem Dev.freeAjob_rdp (d : Dev) (k : Nat) : (d.freeAjob k).rdp = d.rdp := rfl
@[simp] theorem Dev.freeAjob_icm (d : Dev) (k : Nat) : (d.freeAjob k).icm = d.icm := rfl
@[simp] theorem Dev.freeAjob_mxt (d : Dev) (k : Nat) : (d.freeAjob k).mxt = d.mxt := rfl
@[simp] theorem Dev.freeAjob_ldc (d : Dev) (k : Nat) : (d.freeAjob k).ldc = d.ldc := rfl
@[simp] theorem Dev.freeAjob_mch (d : Dev) (k : Nat) : (d.freeAjob k).mch = d.mch := rfl
@[simp] theorem Dev.freeAjob_crt (d : Dev) (k : Nat) : (d.freeAjob k).crt = d.crt := rfl
@[simp] theorem Dev.freeAjob_jrn (d : Dev) (k : Nat) : (d.freeAjob k).jrn = d.jrn := rfl
@[simp] theorem Dev.freeAjob_map (d : Dev) (k : Nat) : (d.freeAjob k).map = d.map := rfl
@[simp] theorem Dev.freeAjob_par (d : Dev) (k : Nat) : (d.freeAjob k).par = d.par := rfl
@[simp] theorem Dev.freeAjob_outr (d : Dev) (k : Nat) : (d.freeAjob k).outr = d.outr := rfl
@[simp] theorem Dev.freeAjob_hrt (d : Dev) (k : Nat) : (d.freeAjob k).hrt = d.hrt := rfl
@[simp] theorem Dev.freeAjob_tng (d : Dev) (k : Nat) : (d.freeAjob k).tng = d.tng := rfl
@[simp] theorem Dev.freeAjob_cxe (d : Dev) (k : Nat) : (d.freeAjob k).cxe = d.cxe := rfl
@[simp] theorem Dev.freeAjob_dge (d : Dev) (k : Nat) : (d.freeAjob k).dge = d.dge := rfl
@[simp] theorem Dev.freeAjob_key (d : Dev) (k : Nat) : (d.freeAjob k).key = d.key := rfl
@[simp] theorem Dev.freeAjob_drv (d : Dev) (k : Nat) : (d.freeAjob k).drv = d.drv := rfl
@[simp] theorem Dev.freeAjob_icu (d : Dev) (k : Nat) : (d.freeAjob k).icu = d.icu := rfl
@[simp] theorem Dev.freeAjob_cfl (d : Dev) (k : Nat) : (d.freeAjob k).cfl = d.cfl := rfl
@[simp] theorem Dev.freeAjob_bot (d : Dev) (k : Nat) : (d.freeAjob k).bot = d.bot := rfl
@[simp] theorem Dev.freeAjob_wdt (d : Dev) (k : Nat) : (d.freeAjob k).wdt = d.wdt := rfl
@[simp] theorem Dev.freeAjob_mnf (d : Dev) (k : Nat) : (d.freeAjob k).mnf = d.mnf := rfl
@[simp] theorem Dev.freeAjob_evl (d : Dev) (k : Nat) : (d.freeAjob k).evl = d.evl := rfl
@[simp] theorem Dev.freeAjob_mgt (d : Dev) (k : Nat) : (d.freeAjob k).mgt = d.mgt := rfl
@[simp] theorem Dev.freeAjob_spdm (d : Dev) (k : Nat) : (d.freeAjob k).spdm = d.spdm := rfl
@[simp] theorem Dev.freeAjob_emb (d : Dev) (k : Nat) : (d.freeAjob k).emb = d.emb := rfl
@[simp] theorem Dev.freeAjob_blw (d : Dev) (k : Nat) : (d.freeAjob k).blw = d.blw := rfl
@[simp] theorem Dev.freeAjob_out (d : Dev) (k : Nat) : (d.freeAjob k).out = d.out := rfl

@[simp] theorem Dev.setFjob_clk (d : Dev) (i : Nat) (j : AJob) : (d.setFjob i j).clk = d.clk := rfl
@[simp] theorem Dev.setFjob_tol (d : Dev) (i : Nat) (j : AJob) : (d.setFjob i j).tol = d.tol := rfl
@[simp] theorem Dev.setFjob_fab (d : Dev) (i : Nat) (j : AJob) : (d.setFjob i j).fab = d.fab := rfl
@[simp] theorem Dev.setFjob_hlk (d : Dev) (i : Nat) (j : AJob) : (d.setFjob i j).hlk = d.hlk := rfl
@[simp] theorem Dev.setFjob_fnm (d : Dev) (i : Nat) (j : AJob) : (d.setFjob i j).fnm = d.fnm := rfl
@[simp] theorem Dev.setFjob_qen (d : Dev) (i : Nat) (j : AJob) : (d.setFjob i j).qen = d.qen := rfl
@[simp] theorem Dev.setFjob_nvm (d : Dev) (i : Nat) (j : AJob) : (d.setFjob i j).nvm = d.nvm := rfl
@[simp] theorem Dev.setFjob_wrp (d : Dev) (i : Nat) (j : AJob) : (d.setFjob i j).wrp = d.wrp := rfl
@[simp] theorem Dev.setFjob_rdp (d : Dev) (i : Nat) (j : AJob) : (d.setFjob i j).rdp = d.rdp := rfl
@[simp] theorem Dev.setFjob_icm (d : Dev) (i : Nat) (j : AJob) : (d.setFjob i j).icm = d.icm := rfl
@[simp] theorem Dev.setFjob_mxt (d : Dev) (i : Nat) (j : AJob) : (d.setFjob i j).mxt = d.mxt := rfl
@[simp] theorem Dev.setFjob_ldc (d : Dev) (i : Nat) (j : AJob) : (d.setFjob i j).ldc = d.ldc := rfl
@[simp] theorem Dev.setFjob_mch (d : Dev) (i : Nat) (j : AJob) : (d.setFjob i j).mch = d.mch := rfl
@[simp] theorem Dev.setFjob_crt (d : Dev) (i : Nat) (j : AJob) : (d.setFjob i j).crt = d.crt := rfl
@[simp] theorem Dev.setFjob_jrn (d : Dev) (i : Nat) (j : AJob) : (d.setFjob i j).jrn = d.jrn := rfl
@[simp] theorem Dev.setFjob_map (d : Dev) (i : Nat) (j : AJob) : (d.setFjob i j).map = d.map := rfl
@[simp] theorem Dev.setFjob_par (d : Dev) (i : Nat) (j : AJob) : (d.setFjob i j).par = d.par := rfl
@[simp] theorem Dev.setFjob_outr (d : Dev) (i : Nat) (j : AJob) : (d.setFjob i j).outr = d.outr := rfl
@[simp] theorem Dev.setFjob_hrt (d : Dev) (i : Nat) (j : AJob) : (d.setFjob i j).hrt = d.hrt := rfl
@[simp] theorem Dev.setFjob_tng (d : Dev) (i : Nat) (j : AJob) : (d.setFjob i j).tng = d.tng := rfl
@[simp] theorem Dev.setFjob_cxe (d : Dev) (i : Nat) (j : AJob) : (d.setFjob i j).cxe = d.cxe := rfl
@[simp] theorem Dev.setFjob_dge (d : Dev) (i : Nat) (j : AJob) : (d.setFjob i j).dge = d.dge := rfl
@[simp] theorem Dev.setFjob_key (d : Dev) (i : Nat) (j : AJob) : (d.setFjob i j).key = d.key := rfl
@[simp] theorem Dev.setFjob_drv (d : Dev) (i : Nat) (j : AJob) : (d.setFjob i j).drv = d.drv := rfl
@[simp] theorem Dev.setFjob_icu (d : Dev) (i : Nat) (j : AJob) : (d.setFjob i j).icu = d.icu := rfl
@[simp] theorem Dev.setFjob_cfl (d : Dev) (i : Nat) (j : AJob) : (d.setFjob i j).cfl = d.cfl := rfl
@[simp] theorem Dev.setFjob_bot (d : Dev) (i : Nat) (j : AJob) : (d.setFjob i j).bot = d.bot := rfl
@[simp] theorem Dev.setFjob_wdt (d : Dev) (i : Nat) (j : AJob) : (d.setFjob i j).wdt = d.wdt := rfl
@[simp] theorem Dev.setFjob_mnf (d : Dev) (i : Nat) (j : AJob) : (d.setFjob i j).mnf = d.mnf := rfl
@[simp] theorem Dev.setFjob_evl (d : Dev) (i : Nat) (j : AJob) : (d.setFjob i j).evl = d.evl := rfl
@[simp] theorem Dev.setFjob_mgt (d : Dev) (i : Nat) (j : AJob) : (d.setFjob i j).mgt = d.mgt := rfl
@[simp] theorem Dev.setFjob_spdm (d : Dev) (i : Nat) (j : AJob) : (d.setFjob i j).spdm = d.spdm := rfl
@[simp] theorem Dev.setFjob_emb (d : Dev) (i : Nat) (j : AJob) : (d.setFjob i j).emb = d.emb := rfl
@[simp] theorem Dev.setFjob_blw (d : Dev) (i : Nat) (j : AJob) : (d.setFjob i j).blw = d.blw := rfl
@[simp] theorem Dev.setFjob_out (d : Dev) (i : Nat) (j : AJob) : (d.setFjob i j).out = d.out := rfl

@[simp] theorem Dev.freeFjob_clk (d : Dev) (i : Nat) : (d.freeFjob i).clk = d.clk := rfl
@[simp] theorem Dev.freeFjob_tol (d : Dev) (i : Nat) : (d.freeFjob i).tol = d.tol := rfl
@[simp] theorem Dev.freeFjob_fab (d : Dev) (i : Nat) : (d.freeFjob i).fab = d.fab := rfl
@[simp] theorem Dev.freeFjob_hlk (d : Dev) (i : Nat) : (d.freeFjob i).hlk = d.hlk := rfl
@[simp] theorem Dev.freeFjob_fnm (d : Dev) (i : Nat) : (d.freeFjob i).fnm = d.fnm := rfl
@[simp] theorem Dev.freeFjob_qen (d : Dev) (i : Nat) : (d.freeFjob i).qen = d.qen := rfl
@[simp] theorem Dev.freeFjob_nvm (d : Dev) (i : Nat) : (d.freeFjob i).nvm = d.nvm := rfl
@[simp] theorem Dev.freeFjob_wrp (d : Dev) (i : Nat) : (d.freeFjob i).wrp = d.wrp := rfl
@[simp] theorem Dev.freeFjob_rdp (d : Dev) (i : Nat) : (d.freeFjob i).rdp = d.rdp := rfl
@[simp] theorem Dev.freeFjob_icm (d : Dev) (i : Nat) : (d.freeFjob i).icm = d.icm := rfl
@[simp] theorem Dev.freeFjob_mxt (d : Dev) (i : Nat) : (d.freeFjob i).mxt = d.mxt := rfl
@[simp] theorem Dev.freeFjob_ldc (d : Dev) (i : Nat) : (d.freeFjob i).ldc = d.ldc := rfl
@[simp] theorem Dev.freeFjob_mch (d : Dev) (i : Nat) : (d.freeFjob i).mch = d.mch := rfl
@[simp] theorem Dev.freeFjob_crt (d : Dev) (i : Nat) : (d.freeFjob i).crt = d.crt := rfl
@[simp] theorem Dev.freeFjob_jrn (d : Dev) (i : Nat) : (d.freeFjob i).jrn = d.jrn := rfl
@[simp] theorem Dev.freeFjob_map (d : Dev) (i : Nat) : (d.freeFjob i).map = d.map := rfl
@[simp] theorem Dev.freeFjob_par (d : Dev) (i : Nat) : (d.freeFjob i).par = d.par := rfl
@[simp] theorem Dev.freeFjob_outr (d : Dev) (i : Nat) : (d.freeFjob i).outr = d.outr := rfl
@[simp] theorem Dev.freeFjob_hrt (d : Dev) (i : Nat) : (d.freeFjob i).hrt = d.hrt := rfl
@[simp] theorem Dev.freeFjob_tng (d : Dev) (i : Nat) : (d.freeFjob i).tng = d.tng := rfl
@[simp] theorem Dev.freeFjob_cxe (d : Dev) (i : Nat) : (d.freeFjob i).cxe = d.cxe := rfl
@[simp] theorem Dev.freeFjob_dge (d : Dev) (i : Nat) : (d.freeFjob i).dge = d.dge := rfl
@[simp] theorem Dev.freeFjob_key (d : Dev) (i : Nat) : (d.freeFjob i).key = d.key := rfl
@[simp] theorem Dev.freeFjob_drv (d : Dev) (i : Nat) : (d.freeFjob i).drv = d.drv := rfl
@[simp] theorem Dev.freeFjob_icu (d : Dev) (i : Nat) : (d.freeFjob i).icu = d.icu := rfl
@[simp] theorem Dev.freeFjob_cfl (d : Dev) (i : Nat) : (d.freeFjob i).cfl = d.cfl := rfl
@[simp] theorem Dev.freeFjob_bot (d : Dev) (i : Nat) : (d.freeFjob i).bot = d.bot := rfl
@[simp] theorem Dev.freeFjob_wdt (d : Dev) (i : Nat) : (d.freeFjob i).wdt = d.wdt := rfl
@[simp] theorem Dev.freeFjob_mnf (d : Dev) (i : Nat) : (d.freeFjob i).mnf = d.mnf := rfl
@[simp] theorem Dev.freeFjob_evl (d : Dev) (i : Nat) : (d.freeFjob i).evl = d.evl := rfl
@[simp] theorem Dev.freeFjob_mgt (d : Dev) (i : Nat) : (d.freeFjob i).mgt = d.mgt := rfl
@[simp] theorem Dev.freeFjob_spdm (d : Dev) (i : Nat) : (d.freeFjob i).spdm = d.spdm := rfl
@[simp] theorem Dev.freeFjob_emb (d : Dev) (i : Nat) : (d.freeFjob i).emb = d.emb := rfl
@[simp] theorem Dev.freeFjob_blw (d : Dev) (i : Nat) : (d.freeFjob i).blw = d.blw := rfl
@[simp] theorem Dev.freeFjob_out (d : Dev) (i : Nat) : (d.freeFjob i).out = d.out := rfl

@[simp] theorem Dev.modSector_clk (d : Dev) (n : Nat) (f : Sector → Sector) : (d.modSector n f).clk = d.clk := rfl
@[simp] theorem Dev.modSector_tol (d : Dev) (n : Nat) (f : Sector → Sector) : (d.modSector n f).tol = d.tol := rfl
@[simp] theorem Dev.modSector_fab (d : Dev) (n : Nat) (f : Sector → Sector) : (d.modSector n f).fab = d.fab := rfl
@[simp] theorem Dev.modSector_hlk (d : Dev) (n : Nat) (f : Sector → Sector) : (d.modSector n f).hlk = d.hlk := rfl
@[simp] theorem Dev.modSector_fnm (d : Dev) (n : Nat) (f : Sector → Sector) : (d.modSector n f).fnm = d.fnm := rfl
@[simp] theorem Dev.modSector_qen (d : Dev) (n : Nat) (f : Sector → Sector) : (d.modSector n f).qen = d.qen := rfl
@[simp] theorem Dev.modSector_nvm (d : Dev) (n : Nat) (f : Sector → Sector) : (d.modSector n f).nvm = d.nvm := rfl
@[simp] theorem Dev.modSector_wrp (d : Dev) (n : Nat) (f : Sector → Sector) : (d.modSector n f).wrp = d.wrp := rfl
@[simp] theorem Dev.modSector_rdp (d : Dev) (n : Nat) (f : Sector → Sector) : (d.modSector n f).rdp = d.rdp := rfl
@[simp] theorem Dev.modSector_icm (d : Dev) (n : Nat) (f : Sector → Sector) : (d.modSector n f).icm = d.icm := rfl
@[simp] theorem Dev.modSector_mxt (d : Dev) (n : Nat) (f : Sector → Sector) : (d.modSector n f).mxt = d.mxt := rfl
@[simp] theorem Dev.modSector_ldc (d : Dev) (n : Nat) (f : Sector → Sector) : (d.modSector n f).ldc = d.ldc := rfl
@[simp] theorem Dev.modSector_mch (d : Dev) (n : Nat) (f : Sector → Sector) : (d.modSector n f).mch = d.mch := rfl
@[simp] theorem Dev.modSector_crt (d : Dev) (n : Nat) (f : Sector → Sector) : (d.modSector n f).crt = d.crt := rfl
@[simp] theorem Dev.modSector_jrn (d : Dev) (n : Nat) (f : Sector → Sector) : (d.modSector n f).jrn = d.jrn := rfl
@[simp] theorem Dev.modSector_map (d : Dev) (n : Nat) (f : Sector → Sector) : (d.modSector n f).map = d.map := rfl
@[simp] theorem Dev.modSector_par (d : Dev) (n : Nat) (f : Sector → Sector) : (d.modSector n f).par = d.par := rfl
@[simp] theorem Dev.modSector_outr (d : Dev) (n : Nat) (f : Sector → Sector) : (d.modSector n f).outr = d.outr := rfl
@[simp] theorem Dev.modSector_hrt (d : Dev) (n : Nat) (f : Sector → Sector) : (d.modSector n f).hrt = d.hrt := rfl
@[simp] theorem Dev.modSector_tng (d : Dev) (n : Nat) (f : Sector → Sector) : (d.modSector n f).tng = d.tng := rfl
@[simp] theorem Dev.modSector_cxe (d : Dev) (n : Nat) (f : Sector → Sector) : (d.modSector n f).cxe = d.cxe := rfl
@[simp] theorem Dev.modSector_dge (d : Dev) (n : Nat) (f : Sector → Sector) : (d.modSector n f).dge = d.dge := rfl
@[simp] theorem Dev.modSector_aee (d : Dev) (n : Nat) (f : Sector → Sector) : (d.modSector n f).aee = d.aee := rfl
@[simp] theorem Dev.modSector_key (d : Dev) (n : Nat) (f : Sector → Sector) : (d.modSector n f).key = d.key := rfl
@[simp] theorem Dev.modSector_drv (d : Dev) (n : Nat) (f : Sector → Sector) : (d.modSector n f).drv = d.drv := rfl
@[simp] theorem Dev.modSector_icu (d : Dev) (n : Nat) (f : Sector → Sector) : (d.modSector n f).icu = d.icu := rfl
@[simp] theorem Dev.modSector_bot (d : Dev) (n : Nat) (f : Sector → Sector) : (d.modSector n f).bot = d.bot := rfl
@[simp] theorem Dev.modSector_wdt (d : Dev) (n : Nat) (f : Sector → Sector) : (d.modSector n f).wdt = d.wdt := rfl
@[simp] theorem Dev.modSector_mnf (d : Dev) (n : Nat) (f : Sector → Sector) : (d.modSector n f).mnf = d.mnf := rfl
@[simp] theorem Dev.modSector_evl (d : Dev) (n : Nat) (f : Sector → Sector) : (d.modSector n f).evl = d.evl := rfl
@[simp] theorem Dev.modSector_mgt (d : Dev) (n : Nat) (f : Sector → Sector) : (d.modSector n f).mgt = d.mgt := rfl
@[simp] theorem Dev.modSector_spdm (d : Dev) (n : Nat) (f : Sector → Sector) : (d.modSector n f).spdm = d.spdm := rfl
@[simp] theorem Dev.modSector_emb (d : Dev) (n : Nat) (f : Sector → Sector) : (d.modSector n f).emb = d.emb := rfl
@[simp] theorem Dev.modSector_blw (d : Dev) (n : Nat) (f : Sector → Sector) : (d.modSector n f).blw = d.blw := rfl
@[simp] theorem Dev.modSector_out (d : Dev) (n : Nat) (f : Sector → Sector) : (d.modSector n f).out = d.out := rfl

@[simp] theorem Dev.modFlashOp_clk (d : Dev) (f : FlashOp → FlashOp) : (d.modFlashOp f).clk = d.clk := rfl
@[simp] theorem Dev.modFlashOp_tol (d : Dev) (f : FlashOp → FlashOp) : (d.modFlashOp f).tol = d.tol := rfl
@[simp] theorem Dev.modFlashOp_fab (d : Dev) (f : FlashOp → FlashOp) : (d.modFlashOp f).fab = d.fab := rfl
@[simp] theorem Dev.modFlashOp_hlk (d : Dev) (f : FlashOp → FlashOp) : (d.modFlashOp f).hlk = d.hlk := rfl
@[simp] theorem Dev.modFlashOp_fnm (d : Dev) (f : FlashOp → FlashOp) : (d.modFlashOp f).fnm = d.fnm := rfl
@[simp] theorem Dev.modFlashOp_qen (d : Dev) (f : FlashOp → FlashOp) : (d.modFlashOp f).qen = d.qen := rfl
@[simp] theorem Dev.modFlashOp_nvm (d : Dev) (f : FlashOp → FlashOp) : (d.modFlashOp f).nvm = d.nvm := rfl
@[simp] theorem Dev.modFlashOp_wrp (d : Dev) (f : FlashOp → FlashOp) : (d.modFlashOp f).wrp = d.wrp := rfl
@[simp] theorem Dev.modFlashOp_rdp (d : Dev) (f : FlashOp → FlashOp) : (d.modFlashOp f).rdp = d.rdp := rfl
@[simp] theorem Dev.modFlashOp_icm (d : Dev) (f : FlashOp → FlashOp) : (d.modFlashOp f).icm = d.icm := rfl
@[simp] theorem Dev.modFlashOp_mxt (d : Dev) (f : FlashOp → FlashOp) : (d.modFlashOp f).mxt = d.mxt := rfl
@[simp] theorem Dev.modFlashOp_ldc (d : Dev) (f : FlashOp → FlashOp) : (d.modFlashOp f).ldc = d.ldc := rfl
@[simp] theorem Dev.modFlashOp_mch (d : Dev) (f : FlashOp → FlashOp) : (d.modFlashOp f).mch = d.mch := rfl
@[simp] theorem Dev.modFlashOp_crt (d : Dev) (f : FlashOp → FlashOp) : (d.modFlashOp f).crt = d.crt := rfl
@[simp] theorem Dev.modFlashOp_jrn (d : Dev) (f : FlashOp → FlashOp) : (d.modFlashOp f).jrn = d.jrn := rfl
@[simp] theorem Dev.modFlashOp_map (d : Dev) (f : FlashOp → FlashOp) : (d.modFlashOp f).map = d.map := rfl
@[simp] theorem Dev.modFlashOp_par (d : Dev) (f : FlashOp → FlashOp) : (d.modFlashOp f).par = d.par := rfl
@[simp] theorem Dev.modFlashOp_outr (d : Dev) (f : FlashOp → FlashOp) : (d.modFlashOp f).outr = d.outr := rfl
@[simp] theorem Dev.modFlashOp_hrt (d : Dev) (f : FlashOp → FlashOp) : (d.modFlashOp f).hrt = d.hrt := rfl
@[simp] theorem Dev.modFlashOp_tng (d : Dev) (f : FlashOp → FlashOp) : (d.modFlashOp f).tng = d.tng := rfl
@[simp] theorem Dev.modFlashOp_cxe (d : Dev) (f : FlashOp → FlashOp) : (d.modFlashOp f).cxe = d.cxe := rfl
@[simp] theorem Dev.modFlashOp_dge (d : Dev) (f : FlashOp → FlashOp) : (d.modFlashOp f).dge = d.dge := rfl
@[simp] theorem Dev.modFlashOp_aee (d : Dev) (f : FlashOp → FlashOp) : (d.modFlashOp f).aee = d.aee := rfl
@[simp] theorem Dev.modFlashOp_key (d : Dev) (f : FlashOp → FlashOp) : (d.modFlashOp f).key = d.key := rfl
@[simp] theorem Dev.modFlashOp_drv (d : Dev) (f : FlashOp → FlashOp) : (d.modFlashOp f).drv = d.drv := rfl
@[simp] theorem Dev.modFlashOp_icu (d : Dev) (f : FlashOp → FlashOp) : (d.modFlashOp f).icu = d.icu := rfl
@[simp] theorem Dev.modFlashOp_bot (d : Dev) (f : FlashOp → FlashOp) : (d.modFlashOp f).bot = d.bot := rfl
@[simp] theorem Dev.modFlashOp_wdt (d : Dev) (f : FlashOp → FlashOp) : (d.modFlashOp f).wdt = d.wdt := rfl
@[simp] theorem Dev.modFlashOp_mnf (d : Dev) (f : FlashOp → FlashOp) : (d.modFlashOp f).mnf = d.mnf := rfl
@[simp] theorem Dev.modFlashOp_evl (d : Dev) (f : FlashOp → FlashOp) : (d.modFlashOp f).evl = d.evl := rfl
@[simp] theorem Dev.modFlashOp_mgt (d : Dev) (f : FlashOp → FlashOp) : (d.modFlashOp f).mgt = d.mgt := rfl
@[simp] theorem Dev.modFlashOp_spdm (d : Dev) (f : FlashOp → FlashOp) : (d.modFlashOp f).spdm = d.spdm := rfl
@[simp] theorem Dev.modFlashOp_emb (d : Dev) (f : FlashOp → FlashOp) : (d.modFlashOp f).emb = d.emb := rfl
@[simp] theorem Dev.modFlashOp_blw (d : Dev) (f : FlashOp → FlashOp) : (d.modFlashOp f).blw = d.blw := rfl
@[simp] theorem Dev.modFlashOp_out (d : Dev) (f : FlashOp → FlashOp) : (d.modFlashOp f).out = d.out := rfl

@[simp] theorem Dev.countRead_clk (d : Dev) : (d.countRead).clk = d.clk := rfl
@[simp] theorem Dev.countRead_tol (d : Dev) : (d.countRead).tol = d.tol := rfl
@[simp] theorem Dev.countRead_fab (d : Dev) : (d.countRead).fab = d.fab := rfl
@[simp] theorem Dev.countRead_hlk (d : Dev) : (d.countRead).hlk = d.hlk := rfl
@[simp] theorem Dev.countRead_fnm (d : Dev) : (d.countRead).fnm = d.fnm := rfl
@[simp] theorem Dev.countRead_qen (d : Dev) : (d.countRead).qen = d.qen := rfl
@[simp] theorem Dev.countRead_wrp (d : Dev) : (d.countRead).wrp = d.wrp := rfl
@[simp] theorem Dev.countRead_rdp (d : Dev) : (d.countRead).rdp = d.rdp := rfl
@[simp] theorem Dev.countRead_icm (d : Dev) : (d.countRead).icm = d.icm := rfl
@[simp] theorem Dev.countRead_mxt (d : Dev) : (d.countRead).mxt = d.mxt := rfl
@[simp] theorem Dev.countRead_ldc (d : Dev) : (d.countRead).ldc = d.ldc := rfl
@[simp] theorem Dev.countRead_mch (d : Dev) : (d.countRead).mch = d.mch := rfl
@[simp] theorem Dev.countRead_crt (d : Dev) : (d.countRead).crt = d.crt := rfl
@[simp] theorem Dev.countRead_jrn (d : Dev) : (d.countRead).jrn = d.jrn := rfl
@[simp] theorem Dev.countRead_map (d : Dev) : (d.countRead).map = d.map := rfl
@[simp] theorem Dev.countRead_par (d : Dev) : (d.countRead).par = d.par := rfl
@[simp] theorem Dev.countRead_outr (d : Dev) : (d.countRead).outr = d.outr := rfl
@[simp] theorem Dev.countRead_hrt (d : Dev) : (d.countRead).hrt = d.hrt := rfl
@[simp] theorem Dev.countRead_tng (d : Dev) : (d.countRead).tng = d.tng := rfl
@[simp] theorem Dev.countRead_cxe (d : Dev) : (d.countRead).cxe = d.cxe := rfl
@[simp] theorem Dev.countRead_dge (d : Dev) : (d.countRead).dge = d.dge := rfl
@[simp] theorem Dev.countRead_aee (d : Dev) : (d.countRead).aee = d.aee := rfl
@[simp] theorem Dev.countRead_key (d : Dev) : (d.countRead).key = d.key := rfl
@[simp] theorem Dev.countRead_drv (d : Dev) : (d.countRead).drv = d.drv := rfl
@[simp] theorem Dev.countRead_icu (d : Dev) : (d.countRead).icu = d.icu := rfl
@[simp] theorem Dev.countRead_cfl (d : Dev) : (d.countRead).cfl = d.cfl := rfl
@[simp] theorem Dev.countRead_bot (d : Dev) : (d.countRead).bot = d.bot := rfl
@[simp] theorem Dev.countRead_wdt (d : Dev) : (d.countRead).wdt = d.wdt := rfl
@[simp] theorem Dev.countRead_mnf (d : Dev) : (d.countRead).mnf = d.mnf := rfl
@[simp] theorem Dev.countRead_evl (d : Dev) : (d.countRead).evl = d.evl := rfl
@[simp] theorem Dev.countRead_mgt (d : Dev) : (d.countRead).mgt = d.mgt := rfl
@[simp] theorem Dev.countRead_spdm (d : Dev) : (d.countRead).spdm = d.spdm := rfl
@[simp] theorem Dev.countRead_emb (d : Dev) : (d.countRead).emb = d.emb := rfl
@[simp] theorem Dev.countRead_blw (d : Dev) : (d.countRead).blw = d.blw := rfl
@[simp] theorem Dev.countRead_out (d : Dev) : (d.countRead).out = d.out := rfl

@[simp] theorem Dev.modSrc_clk (d : Dev) (n : Nat) (f : Src → Src) : (d.modSrc n f).clk = d.clk := rfl
@[simp] theorem Dev.modSrc_tol (d : Dev) (n : Nat) (f : Src → Src) : (d.modSrc n f).tol = d.tol := rfl
@[simp] theorem Dev.modSrc_fab (d : Dev) (n : Nat) (f : Src → Src) : (d.modSrc n f).fab = d.fab := rfl
@[simp] theorem Dev.modSrc_hlk (d : Dev) (n : Nat) (f : Src → Src) : (d.modSrc n f).hlk = d.hlk := rfl
@[simp] theorem Dev.modSrc_fnm (d : Dev) (n : Nat) (f : Src → Src) : (d.modSrc n f).fnm = d.fnm := rfl
@[simp] theorem Dev.modSrc_qen (d : Dev) (n : Nat) (f : Src → Src) : (d.modSrc n f).qen = d.qen := rfl
@[simp] theorem Dev.modSrc_nvm (d : Dev) (n : Nat) (f : Src → Src) : (d.modSrc n f).nvm = d.nvm := rfl
@[simp] theorem Dev.modSrc_wrp (d : Dev) (n : Nat) (f : Src → Src) : (d.modSrc n f).wrp = d.wrp := rfl
@[simp] theorem Dev.modSrc_rdp (d : Dev) (n : Nat) (f : Src → Src) : (d.modSrc n f).rdp = d.rdp := rfl
@[simp] theorem Dev.modSrc_icm (d : Dev) (n : Nat) (f : Src → Src) : (d.modSrc n f).icm = d.icm := rfl
@[simp] theorem Dev.modSrc_mxt (d : Dev) (n : Nat) (f : Src → Src) : (d.modSrc n f).mxt = d.mxt := rfl
@[simp] theorem Dev.modSrc_ldc (d : Dev) (n : Nat) (f : Src → Src) : (d.modSrc n f).ldc = d.ldc := rfl
@[simp] theorem Dev.modSrc_mch (d : Dev) (n : Nat) (f : Src → Src) : (d.modSrc n f).mch = d.mch := rfl
@[simp] theorem Dev.modSrc_crt (d : Dev) (n : Nat) (f : Src → Src) : (d.modSrc n f).crt = d.crt := rfl
@[simp] theorem Dev.modSrc_jrn (d : Dev) (n : Nat) (f : Src → Src) : (d.modSrc n f).jrn = d.jrn := rfl
@[simp] theorem Dev.modSrc_map (d : Dev) (n : Nat) (f : Src → Src) : (d.modSrc n f).map = d.map := rfl
@[simp] theorem Dev.modSrc_par (d : Dev) (n : Nat) (f : Src → Src) : (d.modSrc n f).par = d.par := rfl
@[simp] theorem Dev.modSrc_outr (d : Dev) (n : Nat) (f : Src → Src) : (d.modSrc n f).outr = d.outr := rfl
@[simp] theorem Dev.modSrc_hrt (d : Dev) (n : Nat) (f : Src → Src) : (d.modSrc n f).hrt = d.hrt := rfl
@[simp] theorem Dev.modSrc_tng (d : Dev) (n : Nat) (f : Src → Src) : (d.modSrc n f).tng = d.tng := rfl
@[simp] theorem Dev.modSrc_cxe (d : Dev) (n : Nat) (f : Src → Src) : (d.modSrc n f).cxe = d.cxe := rfl
@[simp] theorem Dev.modSrc_dge (d : Dev) (n : Nat) (f : Src → Src) : (d.modSrc n f).dge = d.dge := rfl
@[simp] theorem Dev.modSrc_aee (d : Dev) (n : Nat) (f : Src → Src) : (d.modSrc n f).aee = d.aee := rfl
@[simp] theorem Dev.modSrc_key (d : Dev) (n : Nat) (f : Src → Src) : (d.modSrc n f).key = d.key := rfl
@[simp] theorem Dev.modSrc_drv (d : Dev) (n : Nat) (f : Src → Src) : (d.modSrc n f).drv = d.drv := rfl
@[simp] theorem Dev.modSrc_cfl (d : Dev) (n : Nat) (f : Src → Src) : (d.modSrc n f).cfl = d.cfl := rfl
@[simp] theorem Dev.modSrc_bot (d : Dev) (n : Nat) (f : Src → Src) : (d.modSrc n f).bot = d.bot := rfl
@[simp] theorem Dev.modSrc_wdt (d : Dev) (n : Nat) (f : Src → Src) : (d.modSrc n f).wdt = d.wdt := rfl
@[simp] theorem Dev.modSrc_mnf (d : Dev) (n : Nat) (f : Src → Src) : (d.modSrc n f).mnf = d.mnf := rfl
@[simp] theorem Dev.modSrc_evl (d : Dev) (n : Nat) (f : Src → Src) : (d.modSrc n f).evl = d.evl := rfl
@[simp] theorem Dev.modSrc_mgt (d : Dev) (n : Nat) (f : Src → Src) : (d.modSrc n f).mgt = d.mgt := rfl
@[simp] theorem Dev.modSrc_spdm (d : Dev) (n : Nat) (f : Src → Src) : (d.modSrc n f).spdm = d.spdm := rfl
@[simp] theorem Dev.modSrc_emb (d : Dev) (n : Nat) (f : Src → Src) : (d.modSrc n f).emb = d.emb := rfl
@[simp] theorem Dev.modSrc_blw (d : Dev) (n : Nat) (f : Src → Src) : (d.modSrc n f).blw = d.blw := rfl
@[simp] theorem Dev.modSrc_out (d : Dev) (n : Nat) (f : Src → Src) : (d.modSrc n f).out = d.out := rfl

@[simp] theorem Dev.modBank_clk (d : Dev) (b : Nat) (f : Bank → Bank) : (d.modBank b f).clk = d.clk := rfl
@[simp] theorem Dev.modBank_tol (d : Dev) (b : Nat) (f : Bank → Bank) : (d.modBank b f).tol = d.tol := rfl
@[simp] theorem Dev.modBank_fab (d : Dev) (b : Nat) (f : Bank → Bank) : (d.modBank b f).fab = d.fab := rfl
@[simp] theorem Dev.modBank_hlk (d : Dev) (b : Nat) (f : Bank → Bank) : (d.modBank b f).hlk = d.hlk := rfl
@[simp] theorem Dev.modBank_fnm (d : Dev) (b : Nat) (f : Bank → Bank) : (d.modBank b f).fnm = d.fnm := rfl
@[simp] theorem Dev.modBank_qen (d : Dev) (b : Nat) (f : Bank → Bank) : (d.modBank b f).qen = d.qen := rfl
@[simp] theorem Dev.modBank_nvm (d : Dev) (b : Nat) (f : Bank → Bank) : (d.modBank b f).nvm = d.nvm := rfl
@[simp] theorem Dev.modBank_wrp (d : Dev) (b : Nat) (f : Bank → Bank) : (d.modBank b f).wrp = d.wrp := rfl
@[simp] theorem Dev.modBank_rdp (d : Dev) (b : Nat) (f : Bank → Bank) : (d.modBank b f).rdp = d.rdp := rfl
@[simp] theorem Dev.modBank_icm (d : Dev) (b : Nat) (f : Bank → Bank) : (d.modBank b f).icm = d.icm := rfl
@[simp] theorem Dev.modBank_mxt (d : Dev) (b : Nat) (f : Bank → Bank) : (d.modBank b f).mxt = d.mxt := rfl
@[simp] theorem Dev.modBank_ldc (d : Dev) (b : Nat) (f : Bank → Bank) : (d.modBank b f).ldc = d.ldc := rfl
@[simp] theorem Dev.modBank_mch (d : Dev) (b : Nat) (f : Bank → Bank) : (d.modBank b f).mch = d.mch := rfl
@[simp] theorem Dev.modBank_crt (d : Dev) (b : Nat) (f : Bank → Bank) : (d.modBank b f).crt = d.crt := rfl
@[simp] theorem Dev.modBank_jrn (d : Dev) (b : Nat) (f : Bank → Bank) : (d.modBank b f).jrn = d.jrn := rfl
@[simp] theorem Dev.modBank_map (d : Dev) (b : Nat) (f : Bank → Bank) : (d.modBank b f).map = d.map := rfl
@[simp] theorem Dev.modBank_par (d : Dev) (b : Nat) (f : Bank → Bank) : (d.modBank b f).par = d.par := rfl
@[simp] theorem Dev.modBank_outr (d : Dev) (b : Nat) (f : Bank → Bank) : (d.modBank b f).outr = d.outr := rfl
@[simp] theorem Dev.modBank_hrt (d : Dev) (b : Nat) (f : Bank → Bank) : (d.modBank b f).hrt = d.hrt := rfl
@[simp] theorem Dev.modBank_tng (d : Dev) (b : Nat) (f : Bank → Bank) : (d.modBank b f).tng = d.tng := rfl
@[simp] theorem Dev.modBank_cxe (d : Dev) (b : Nat) (f : Bank → Bank) : (d.modBank b f).cxe = d.cxe := rfl
@[simp] theorem Dev.modBank_dge (d : Dev) (b : Nat) (f : Bank → Bank) : (d.modBank b f).dge = d.dge := rfl
@[simp] theorem Dev.modBank_aee (d : Dev) (b : Nat) (f : Bank → Bank) : (d.modBank b f).aee = d.aee := rfl
@[simp] theorem Dev.modBank_key (d : Dev) (b : Nat) (f : Bank → Bank) : (d.modBank b f).key = d.key := rfl
@[simp] theorem Dev.modBank_drv (d : Dev) (b : Nat) (f : Bank → Bank) : (d.modBank b f).drv = d.drv := rfl
@[simp] theorem Dev.modBank_cfl (d : Dev) (b : Nat) (f : Bank → Bank) : (d.modBank b f).cfl = d.cfl := rfl
@[simp] theorem Dev.modBank_bot (d : Dev) (b : Nat) (f : Bank → Bank) : (d.modBank b f).bot = d.bot := rfl
@[simp] theorem Dev.modBank_wdt (d : Dev) (b : Nat) (f : Bank → Bank) : (d.modBank b f).wdt = d.wdt := rfl
@[simp] theorem Dev.modBank_mnf (d : Dev) (b : Nat) (f : Bank → Bank) : (d.modBank b f).mnf = d.mnf := rfl
@[simp] theorem Dev.modBank_evl (d : Dev) (b : Nat) (f : Bank → Bank) : (d.modBank b f).evl = d.evl := rfl
@[simp] theorem Dev.modBank_mgt (d : Dev) (b : Nat) (f : Bank → Bank) : (d.modBank b f).mgt = d.mgt := rfl
@[simp] theorem Dev.modBank_spdm (d : Dev) (b : Nat) (f : Bank → Bank) : (d.modBank b f).spdm = d.spdm := rfl
@[simp] theorem Dev.modBank_emb (d : Dev) (b : Nat) (f : Bank → Bank) : (d.modBank b f).emb = d.emb := rfl
@[simp] theorem Dev.modBank_blw (d : Dev) (b : Nat) (f : Bank → Bank) : (d.modBank b f).blw = d.blw := rfl
@[simp] theorem Dev.modBank_out (d : Dev) (b : Nat) (f : Bank → Bank) : (d.modBank b f).out = d.out := rfl

@[simp] theorem Dev.modWb_clk (d : Dev) (id : Nat) (f : Waybill → Waybill) : (d.modWb id f).clk = d.clk := rfl
@[simp] theorem Dev.modWb_tol (d : Dev) (id : Nat) (f : Waybill → Waybill) : (d.modWb id f).tol = d.tol := rfl
@[simp] theorem Dev.modWb_fab (d : Dev) (id : Nat) (f : Waybill → Waybill) : (d.modWb id f).fab = d.fab := rfl
@[simp] theorem Dev.modWb_hlk (d : Dev) (id : Nat) (f : Waybill → Waybill) : (d.modWb id f).hlk = d.hlk := rfl
@[simp] theorem Dev.modWb_fnm (d : Dev) (id : Nat) (f : Waybill → Waybill) : (d.modWb id f).fnm = d.fnm := rfl
@[simp] theorem Dev.modWb_qen (d : Dev) (id : Nat) (f : Waybill → Waybill) : (d.modWb id f).qen = d.qen := rfl
@[simp] theorem Dev.modWb_nvm (d : Dev) (id : Nat) (f : Waybill → Waybill) : (d.modWb id f).nvm = d.nvm := rfl
@[simp] theorem Dev.modWb_wrp (d : Dev) (id : Nat) (f : Waybill → Waybill) : (d.modWb id f).wrp = d.wrp := rfl
@[simp] theorem Dev.modWb_rdp (d : Dev) (id : Nat) (f : Waybill → Waybill) : (d.modWb id f).rdp = d.rdp := rfl
@[simp] theorem Dev.modWb_icm (d : Dev) (id : Nat) (f : Waybill → Waybill) : (d.modWb id f).icm = d.icm := rfl
@[simp] theorem Dev.modWb_mxt (d : Dev) (id : Nat) (f : Waybill → Waybill) : (d.modWb id f).mxt = d.mxt := rfl
@[simp] theorem Dev.modWb_ldc (d : Dev) (id : Nat) (f : Waybill → Waybill) : (d.modWb id f).ldc = d.ldc := rfl
@[simp] theorem Dev.modWb_mch (d : Dev) (id : Nat) (f : Waybill → Waybill) : (d.modWb id f).mch = d.mch := rfl
@[simp] theorem Dev.modWb_crt (d : Dev) (id : Nat) (f : Waybill → Waybill) : (d.modWb id f).crt = d.crt := rfl
@[simp] theorem Dev.modWb_jrn (d : Dev) (id : Nat) (f : Waybill → Waybill) : (d.modWb id f).jrn = d.jrn := rfl
@[simp] theorem Dev.modWb_map (d : Dev) (id : Nat) (f : Waybill → Waybill) : (d.modWb id f).map = d.map := rfl
@[simp] theorem Dev.modWb_par (d : Dev) (id : Nat) (f : Waybill → Waybill) : (d.modWb id f).par = d.par := rfl
@[simp] theorem Dev.modWb_outr (d : Dev) (id : Nat) (f : Waybill → Waybill) : (d.modWb id f).outr = d.outr := rfl
@[simp] theorem Dev.modWb_tng (d : Dev) (id : Nat) (f : Waybill → Waybill) : (d.modWb id f).tng = d.tng := rfl
@[simp] theorem Dev.modWb_cxe (d : Dev) (id : Nat) (f : Waybill → Waybill) : (d.modWb id f).cxe = d.cxe := rfl
@[simp] theorem Dev.modWb_dge (d : Dev) (id : Nat) (f : Waybill → Waybill) : (d.modWb id f).dge = d.dge := rfl
@[simp] theorem Dev.modWb_aee (d : Dev) (id : Nat) (f : Waybill → Waybill) : (d.modWb id f).aee = d.aee := rfl
@[simp] theorem Dev.modWb_key (d : Dev) (id : Nat) (f : Waybill → Waybill) : (d.modWb id f).key = d.key := rfl
@[simp] theorem Dev.modWb_drv (d : Dev) (id : Nat) (f : Waybill → Waybill) : (d.modWb id f).drv = d.drv := rfl
@[simp] theorem Dev.modWb_icu (d : Dev) (id : Nat) (f : Waybill → Waybill) : (d.modWb id f).icu = d.icu := rfl
@[simp] theorem Dev.modWb_cfl (d : Dev) (id : Nat) (f : Waybill → Waybill) : (d.modWb id f).cfl = d.cfl := rfl
@[simp] theorem Dev.modWb_bot (d : Dev) (id : Nat) (f : Waybill → Waybill) : (d.modWb id f).bot = d.bot := rfl
@[simp] theorem Dev.modWb_wdt (d : Dev) (id : Nat) (f : Waybill → Waybill) : (d.modWb id f).wdt = d.wdt := rfl
@[simp] theorem Dev.modWb_mnf (d : Dev) (id : Nat) (f : Waybill → Waybill) : (d.modWb id f).mnf = d.mnf := rfl
@[simp] theorem Dev.modWb_evl (d : Dev) (id : Nat) (f : Waybill → Waybill) : (d.modWb id f).evl = d.evl := rfl
@[simp] theorem Dev.modWb_mgt (d : Dev) (id : Nat) (f : Waybill → Waybill) : (d.modWb id f).mgt = d.mgt := rfl
@[simp] theorem Dev.modWb_spdm (d : Dev) (id : Nat) (f : Waybill → Waybill) : (d.modWb id f).spdm = d.spdm := rfl
@[simp] theorem Dev.modWb_emb (d : Dev) (id : Nat) (f : Waybill → Waybill) : (d.modWb id f).emb = d.emb := rfl
@[simp] theorem Dev.modWb_blw (d : Dev) (id : Nat) (f : Waybill → Waybill) : (d.modWb id f).blw = d.blw := rfl
@[simp] theorem Dev.modWb_out (d : Dev) (id : Nat) (f : Waybill → Waybill) : (d.modWb id f).out = d.out := rfl

@[simp] theorem Dev.dropWb_clk (d : Dev) (id : Nat) : (d.dropWb id).clk = d.clk := rfl
@[simp] theorem Dev.dropWb_tol (d : Dev) (id : Nat) : (d.dropWb id).tol = d.tol := rfl
@[simp] theorem Dev.dropWb_fab (d : Dev) (id : Nat) : (d.dropWb id).fab = d.fab := rfl
@[simp] theorem Dev.dropWb_hlk (d : Dev) (id : Nat) : (d.dropWb id).hlk = d.hlk := rfl
@[simp] theorem Dev.dropWb_fnm (d : Dev) (id : Nat) : (d.dropWb id).fnm = d.fnm := rfl
@[simp] theorem Dev.dropWb_qen (d : Dev) (id : Nat) : (d.dropWb id).qen = d.qen := rfl
@[simp] theorem Dev.dropWb_nvm (d : Dev) (id : Nat) : (d.dropWb id).nvm = d.nvm := rfl
@[simp] theorem Dev.dropWb_wrp (d : Dev) (id : Nat) : (d.dropWb id).wrp = d.wrp := rfl
@[simp] theorem Dev.dropWb_rdp (d : Dev) (id : Nat) : (d.dropWb id).rdp = d.rdp := rfl
@[simp] theorem Dev.dropWb_icm (d : Dev) (id : Nat) : (d.dropWb id).icm = d.icm := rfl
@[simp] theorem Dev.dropWb_mxt (d : Dev) (id : Nat) : (d.dropWb id).mxt = d.mxt := rfl
@[simp] theorem Dev.dropWb_ldc (d : Dev) (id : Nat) : (d.dropWb id).ldc = d.ldc := rfl
@[simp] theorem Dev.dropWb_mch (d : Dev) (id : Nat) : (d.dropWb id).mch = d.mch := rfl
@[simp] theorem Dev.dropWb_crt (d : Dev) (id : Nat) : (d.dropWb id).crt = d.crt := rfl
@[simp] theorem Dev.dropWb_jrn (d : Dev) (id : Nat) : (d.dropWb id).jrn = d.jrn := rfl
@[simp] theorem Dev.dropWb_map (d : Dev) (id : Nat) : (d.dropWb id).map = d.map := rfl
@[simp] theorem Dev.dropWb_par (d : Dev) (id : Nat) : (d.dropWb id).par = d.par := rfl
@[simp] theorem Dev.dropWb_outr (d : Dev) (id : Nat) : (d.dropWb id).outr = d.outr := rfl
@[simp] theorem Dev.dropWb_tng (d : Dev) (id : Nat) : (d.dropWb id).tng = d.tng := rfl
@[simp] theorem Dev.dropWb_cxe (d : Dev) (id : Nat) : (d.dropWb id).cxe = d.cxe := rfl
@[simp] theorem Dev.dropWb_dge (d : Dev) (id : Nat) : (d.dropWb id).dge = d.dge := rfl
@[simp] theorem Dev.dropWb_aee (d : Dev) (id : Nat) : (d.dropWb id).aee = d.aee := rfl
@[simp] theorem Dev.dropWb_key (d : Dev) (id : Nat) : (d.dropWb id).key = d.key := rfl
@[simp] theorem Dev.dropWb_drv (d : Dev) (id : Nat) : (d.dropWb id).drv = d.drv := rfl
@[simp] theorem Dev.dropWb_icu (d : Dev) (id : Nat) : (d.dropWb id).icu = d.icu := rfl
@[simp] theorem Dev.dropWb_cfl (d : Dev) (id : Nat) : (d.dropWb id).cfl = d.cfl := rfl
@[simp] theorem Dev.dropWb_bot (d : Dev) (id : Nat) : (d.dropWb id).bot = d.bot := rfl
@[simp] theorem Dev.dropWb_wdt (d : Dev) (id : Nat) : (d.dropWb id).wdt = d.wdt := rfl
@[simp] theorem Dev.dropWb_mnf (d : Dev) (id : Nat) : (d.dropWb id).mnf = d.mnf := rfl
@[simp] theorem Dev.dropWb_evl (d : Dev) (id : Nat) : (d.dropWb id).evl = d.evl := rfl
@[simp] theorem Dev.dropWb_mgt (d : Dev) (id : Nat) : (d.dropWb id).mgt = d.mgt := rfl
@[simp] theorem Dev.dropWb_spdm (d : Dev) (id : Nat) : (d.dropWb id).spdm = d.spdm := rfl
@[simp] theorem Dev.dropWb_emb (d : Dev) (id : Nat) : (d.dropWb id).emb = d.emb := rfl
@[simp] theorem Dev.dropWb_blw (d : Dev) (id : Nat) : (d.dropWb id).blw = d.blw := rfl
@[simp] theorem Dev.dropWb_out (d : Dev) (id : Nat) : (d.dropWb id).out = d.out := rfl

@[simp] theorem Dev.modImage_clk (d : Dev) (slot : Nat) (f : Image → Image) : (d.modImage slot f).clk = d.clk := rfl
@[simp] theorem Dev.modImage_tol (d : Dev) (slot : Nat) (f : Image → Image) : (d.modImage slot f).tol = d.tol := rfl
@[simp] theorem Dev.modImage_fab (d : Dev) (slot : Nat) (f : Image → Image) : (d.modImage slot f).fab = d.fab := rfl
@[simp] theorem Dev.modImage_hlk (d : Dev) (slot : Nat) (f : Image → Image) : (d.modImage slot f).hlk = d.hlk := rfl
@[simp] theorem Dev.modImage_fnm (d : Dev) (slot : Nat) (f : Image → Image) : (d.modImage slot f).fnm = d.fnm := rfl
@[simp] theorem Dev.modImage_qen (d : Dev) (slot : Nat) (f : Image → Image) : (d.modImage slot f).qen = d.qen := rfl
@[simp] theorem Dev.modImage_nvm (d : Dev) (slot : Nat) (f : Image → Image) : (d.modImage slot f).nvm = d.nvm := rfl
@[simp] theorem Dev.modImage_wrp (d : Dev) (slot : Nat) (f : Image → Image) : (d.modImage slot f).wrp = d.wrp := rfl
@[simp] theorem Dev.modImage_rdp (d : Dev) (slot : Nat) (f : Image → Image) : (d.modImage slot f).rdp = d.rdp := rfl
@[simp] theorem Dev.modImage_icm (d : Dev) (slot : Nat) (f : Image → Image) : (d.modImage slot f).icm = d.icm := rfl
@[simp] theorem Dev.modImage_mxt (d : Dev) (slot : Nat) (f : Image → Image) : (d.modImage slot f).mxt = d.mxt := rfl
@[simp] theorem Dev.modImage_ldc (d : Dev) (slot : Nat) (f : Image → Image) : (d.modImage slot f).ldc = d.ldc := rfl
@[simp] theorem Dev.modImage_mch (d : Dev) (slot : Nat) (f : Image → Image) : (d.modImage slot f).mch = d.mch := rfl
@[simp] theorem Dev.modImage_crt (d : Dev) (slot : Nat) (f : Image → Image) : (d.modImage slot f).crt = d.crt := rfl
@[simp] theorem Dev.modImage_jrn (d : Dev) (slot : Nat) (f : Image → Image) : (d.modImage slot f).jrn = d.jrn := rfl
@[simp] theorem Dev.modImage_map (d : Dev) (slot : Nat) (f : Image → Image) : (d.modImage slot f).map = d.map := rfl
@[simp] theorem Dev.modImage_par (d : Dev) (slot : Nat) (f : Image → Image) : (d.modImage slot f).par = d.par := rfl
@[simp] theorem Dev.modImage_outr (d : Dev) (slot : Nat) (f : Image → Image) : (d.modImage slot f).outr = d.outr := rfl
@[simp] theorem Dev.modImage_tng (d : Dev) (slot : Nat) (f : Image → Image) : (d.modImage slot f).tng = d.tng := rfl
@[simp] theorem Dev.modImage_cxe (d : Dev) (slot : Nat) (f : Image → Image) : (d.modImage slot f).cxe = d.cxe := rfl
@[simp] theorem Dev.modImage_dge (d : Dev) (slot : Nat) (f : Image → Image) : (d.modImage slot f).dge = d.dge := rfl
@[simp] theorem Dev.modImage_aee (d : Dev) (slot : Nat) (f : Image → Image) : (d.modImage slot f).aee = d.aee := rfl
@[simp] theorem Dev.modImage_key (d : Dev) (slot : Nat) (f : Image → Image) : (d.modImage slot f).key = d.key := rfl
@[simp] theorem Dev.modImage_drv (d : Dev) (slot : Nat) (f : Image → Image) : (d.modImage slot f).drv = d.drv := rfl
@[simp] theorem Dev.modImage_icu (d : Dev) (slot : Nat) (f : Image → Image) : (d.modImage slot f).icu = d.icu := rfl
@[simp] theorem Dev.modImage_cfl (d : Dev) (slot : Nat) (f : Image → Image) : (d.modImage slot f).cfl = d.cfl := rfl
@[simp] theorem Dev.modImage_bot (d : Dev) (slot : Nat) (f : Image → Image) : (d.modImage slot f).bot = d.bot := rfl
@[simp] theorem Dev.modImage_wdt (d : Dev) (slot : Nat) (f : Image → Image) : (d.modImage slot f).wdt = d.wdt := rfl
@[simp] theorem Dev.modImage_mnf (d : Dev) (slot : Nat) (f : Image → Image) : (d.modImage slot f).mnf = d.mnf := rfl
@[simp] theorem Dev.modImage_evl (d : Dev) (slot : Nat) (f : Image → Image) : (d.modImage slot f).evl = d.evl := rfl
@[simp] theorem Dev.modImage_mgt (d : Dev) (slot : Nat) (f : Image → Image) : (d.modImage slot f).mgt = d.mgt := rfl
@[simp] theorem Dev.modImage_spdm (d : Dev) (slot : Nat) (f : Image → Image) : (d.modImage slot f).spdm = d.spdm := rfl
@[simp] theorem Dev.modImage_emb (d : Dev) (slot : Nat) (f : Image → Image) : (d.modImage slot f).emb = d.emb := rfl
@[simp] theorem Dev.modImage_blw (d : Dev) (slot : Nat) (f : Image → Image) : (d.modImage slot f).blw = d.blw := rfl
@[simp] theorem Dev.modImage_out (d : Dev) (slot : Nat) (f : Image → Image) : (d.modImage slot f).out = d.out := rfl

@[simp] theorem Dev.setInst_clk (d : Dev) (id : Nat) (c : Ctx) : (d.setInst id c).clk = d.clk := rfl
@[simp] theorem Dev.setInst_tol (d : Dev) (id : Nat) (c : Ctx) : (d.setInst id c).tol = d.tol := rfl
@[simp] theorem Dev.setInst_fab (d : Dev) (id : Nat) (c : Ctx) : (d.setInst id c).fab = d.fab := rfl
@[simp] theorem Dev.setInst_hlk (d : Dev) (id : Nat) (c : Ctx) : (d.setInst id c).hlk = d.hlk := rfl
@[simp] theorem Dev.setInst_fnm (d : Dev) (id : Nat) (c : Ctx) : (d.setInst id c).fnm = d.fnm := rfl
@[simp] theorem Dev.setInst_qen (d : Dev) (id : Nat) (c : Ctx) : (d.setInst id c).qen = d.qen := rfl
@[simp] theorem Dev.setInst_nvm (d : Dev) (id : Nat) (c : Ctx) : (d.setInst id c).nvm = d.nvm := rfl
@[simp] theorem Dev.setInst_wrp (d : Dev) (id : Nat) (c : Ctx) : (d.setInst id c).wrp = d.wrp := rfl
@[simp] theorem Dev.setInst_rdp (d : Dev) (id : Nat) (c : Ctx) : (d.setInst id c).rdp = d.rdp := rfl
@[simp] theorem Dev.setInst_icm (d : Dev) (id : Nat) (c : Ctx) : (d.setInst id c).icm = d.icm := rfl
@[simp] theorem Dev.setInst_mxt (d : Dev) (id : Nat) (c : Ctx) : (d.setInst id c).mxt = d.mxt := rfl
@[simp] theorem Dev.setInst_ldc (d : Dev) (id : Nat) (c : Ctx) : (d.setInst id c).ldc = d.ldc := rfl
@[simp] theorem Dev.setInst_mch (d : Dev) (id : Nat) (c : Ctx) : (d.setInst id c).mch = d.mch := rfl
@[simp] theorem Dev.setInst_crt (d : Dev) (id : Nat) (c : Ctx) : (d.setInst id c).crt = d.crt := rfl
@[simp] theorem Dev.setInst_jrn (d : Dev) (id : Nat) (c : Ctx) : (d.setInst id c).jrn = d.jrn := rfl
@[simp] theorem Dev.setInst_map (d : Dev) (id : Nat) (c : Ctx) : (d.setInst id c).map = d.map := rfl
@[simp] theorem Dev.setInst_par (d : Dev) (id : Nat) (c : Ctx) : (d.setInst id c).par = d.par := rfl
@[simp] theorem Dev.setInst_outr (d : Dev) (id : Nat) (c : Ctx) : (d.setInst id c).outr = d.outr := rfl
@[simp] theorem Dev.setInst_hrt (d : Dev) (id : Nat) (c : Ctx) : (d.setInst id c).hrt = d.hrt := rfl
@[simp] theorem Dev.setInst_tng (d : Dev) (id : Nat) (c : Ctx) : (d.setInst id c).tng = d.tng := rfl
@[simp] theorem Dev.setInst_cxe (d : Dev) (id : Nat) (c : Ctx) : (d.setInst id c).cxe = d.cxe := rfl
@[simp] theorem Dev.setInst_dge (d : Dev) (id : Nat) (c : Ctx) : (d.setInst id c).dge = d.dge := rfl
@[simp] theorem Dev.setInst_aee (d : Dev) (id : Nat) (c : Ctx) : (d.setInst id c).aee = d.aee := rfl
@[simp] theorem Dev.setInst_key (d : Dev) (id : Nat) (c : Ctx) : (d.setInst id c).key = d.key := rfl
@[simp] theorem Dev.setInst_icu (d : Dev) (id : Nat) (c : Ctx) : (d.setInst id c).icu = d.icu := rfl
@[simp] theorem Dev.setInst_cfl (d : Dev) (id : Nat) (c : Ctx) : (d.setInst id c).cfl = d.cfl := rfl
@[simp] theorem Dev.setInst_bot (d : Dev) (id : Nat) (c : Ctx) : (d.setInst id c).bot = d.bot := rfl
@[simp] theorem Dev.setInst_wdt (d : Dev) (id : Nat) (c : Ctx) : (d.setInst id c).wdt = d.wdt := rfl
@[simp] theorem Dev.setInst_mnf (d : Dev) (id : Nat) (c : Ctx) : (d.setInst id c).mnf = d.mnf := rfl
@[simp] theorem Dev.setInst_evl (d : Dev) (id : Nat) (c : Ctx) : (d.setInst id c).evl = d.evl := rfl
@[simp] theorem Dev.setInst_mgt (d : Dev) (id : Nat) (c : Ctx) : (d.setInst id c).mgt = d.mgt := rfl
@[simp] theorem Dev.setInst_spdm (d : Dev) (id : Nat) (c : Ctx) : (d.setInst id c).spdm = d.spdm := rfl
@[simp] theorem Dev.setInst_emb (d : Dev) (id : Nat) (c : Ctx) : (d.setInst id c).emb = d.emb := rfl
@[simp] theorem Dev.setInst_blw (d : Dev) (id : Nat) (c : Ctx) : (d.setInst id c).blw = d.blw := rfl
@[simp] theorem Dev.setInst_out (d : Dev) (id : Nat) (c : Ctx) : (d.setInst id c).out = d.out := rfl

@[simp] theorem Dev.modBuf_clk (d : Dev) (i : Nat) (f : Handoff → Handoff) : (d.modBuf i f).clk = d.clk := rfl
@[simp] theorem Dev.modBuf_tol (d : Dev) (i : Nat) (f : Handoff → Handoff) : (d.modBuf i f).tol = d.tol := rfl
@[simp] theorem Dev.modBuf_hlk (d : Dev) (i : Nat) (f : Handoff → Handoff) : (d.modBuf i f).hlk = d.hlk := rfl
@[simp] theorem Dev.modBuf_fnm (d : Dev) (i : Nat) (f : Handoff → Handoff) : (d.modBuf i f).fnm = d.fnm := rfl
@[simp] theorem Dev.modBuf_qen (d : Dev) (i : Nat) (f : Handoff → Handoff) : (d.modBuf i f).qen = d.qen := rfl
@[simp] theorem Dev.modBuf_nvm (d : Dev) (i : Nat) (f : Handoff → Handoff) : (d.modBuf i f).nvm = d.nvm := rfl
@[simp] theorem Dev.modBuf_wrp (d : Dev) (i : Nat) (f : Handoff → Handoff) : (d.modBuf i f).wrp = d.wrp := rfl
@[simp] theorem Dev.modBuf_rdp (d : Dev) (i : Nat) (f : Handoff → Handoff) : (d.modBuf i f).rdp = d.rdp := rfl
@[simp] theorem Dev.modBuf_icm (d : Dev) (i : Nat) (f : Handoff → Handoff) : (d.modBuf i f).icm = d.icm := rfl
@[simp] theorem Dev.modBuf_mxt (d : Dev) (i : Nat) (f : Handoff → Handoff) : (d.modBuf i f).mxt = d.mxt := rfl
@[simp] theorem Dev.modBuf_ldc (d : Dev) (i : Nat) (f : Handoff → Handoff) : (d.modBuf i f).ldc = d.ldc := rfl
@[simp] theorem Dev.modBuf_mch (d : Dev) (i : Nat) (f : Handoff → Handoff) : (d.modBuf i f).mch = d.mch := rfl
@[simp] theorem Dev.modBuf_crt (d : Dev) (i : Nat) (f : Handoff → Handoff) : (d.modBuf i f).crt = d.crt := rfl
@[simp] theorem Dev.modBuf_jrn (d : Dev) (i : Nat) (f : Handoff → Handoff) : (d.modBuf i f).jrn = d.jrn := rfl
@[simp] theorem Dev.modBuf_map (d : Dev) (i : Nat) (f : Handoff → Handoff) : (d.modBuf i f).map = d.map := rfl
@[simp] theorem Dev.modBuf_par (d : Dev) (i : Nat) (f : Handoff → Handoff) : (d.modBuf i f).par = d.par := rfl
@[simp] theorem Dev.modBuf_outr (d : Dev) (i : Nat) (f : Handoff → Handoff) : (d.modBuf i f).outr = d.outr := rfl
@[simp] theorem Dev.modBuf_hrt (d : Dev) (i : Nat) (f : Handoff → Handoff) : (d.modBuf i f).hrt = d.hrt := rfl
@[simp] theorem Dev.modBuf_tng (d : Dev) (i : Nat) (f : Handoff → Handoff) : (d.modBuf i f).tng = d.tng := rfl
@[simp] theorem Dev.modBuf_cxe (d : Dev) (i : Nat) (f : Handoff → Handoff) : (d.modBuf i f).cxe = d.cxe := rfl
@[simp] theorem Dev.modBuf_dge (d : Dev) (i : Nat) (f : Handoff → Handoff) : (d.modBuf i f).dge = d.dge := rfl
@[simp] theorem Dev.modBuf_aee (d : Dev) (i : Nat) (f : Handoff → Handoff) : (d.modBuf i f).aee = d.aee := rfl
@[simp] theorem Dev.modBuf_key (d : Dev) (i : Nat) (f : Handoff → Handoff) : (d.modBuf i f).key = d.key := rfl
@[simp] theorem Dev.modBuf_drv (d : Dev) (i : Nat) (f : Handoff → Handoff) : (d.modBuf i f).drv = d.drv := rfl
@[simp] theorem Dev.modBuf_icu (d : Dev) (i : Nat) (f : Handoff → Handoff) : (d.modBuf i f).icu = d.icu := rfl
@[simp] theorem Dev.modBuf_cfl (d : Dev) (i : Nat) (f : Handoff → Handoff) : (d.modBuf i f).cfl = d.cfl := rfl
@[simp] theorem Dev.modBuf_bot (d : Dev) (i : Nat) (f : Handoff → Handoff) : (d.modBuf i f).bot = d.bot := rfl
@[simp] theorem Dev.modBuf_wdt (d : Dev) (i : Nat) (f : Handoff → Handoff) : (d.modBuf i f).wdt = d.wdt := rfl
@[simp] theorem Dev.modBuf_mnf (d : Dev) (i : Nat) (f : Handoff → Handoff) : (d.modBuf i f).mnf = d.mnf := rfl
@[simp] theorem Dev.modBuf_evl (d : Dev) (i : Nat) (f : Handoff → Handoff) : (d.modBuf i f).evl = d.evl := rfl
@[simp] theorem Dev.modBuf_mgt (d : Dev) (i : Nat) (f : Handoff → Handoff) : (d.modBuf i f).mgt = d.mgt := rfl
@[simp] theorem Dev.modBuf_spdm (d : Dev) (i : Nat) (f : Handoff → Handoff) : (d.modBuf i f).spdm = d.spdm := rfl
@[simp] theorem Dev.modBuf_emb (d : Dev) (i : Nat) (f : Handoff → Handoff) : (d.modBuf i f).emb = d.emb := rfl
@[simp] theorem Dev.modBuf_blw (d : Dev) (i : Nat) (f : Handoff → Handoff) : (d.modBuf i f).blw = d.blw := rfl
@[simp] theorem Dev.modBuf_out (d : Dev) (i : Nat) (f : Handoff → Handoff) : (d.modBuf i f).out = d.out := rfl

@[simp] theorem Dev.setKslot_clk (d : Dev) (n : Nat) (k : Slot) : (d.setKslot n k).clk = d.clk := rfl
@[simp] theorem Dev.setKslot_tol (d : Dev) (n : Nat) (k : Slot) : (d.setKslot n k).tol = d.tol := rfl
@[simp] theorem Dev.setKslot_fab (d : Dev) (n : Nat) (k : Slot) : (d.setKslot n k).fab = d.fab := rfl
@[simp] theorem Dev.setKslot_hlk (d : Dev) (n : Nat) (k : Slot) : (d.setKslot n k).hlk = d.hlk := rfl
@[simp] theorem Dev.setKslot_fnm (d : Dev) (n : Nat) (k : Slot) : (d.setKslot n k).fnm = d.fnm := rfl
@[simp] theorem Dev.setKslot_qen (d : Dev) (n : Nat) (k : Slot) : (d.setKslot n k).qen = d.qen := rfl
@[simp] theorem Dev.setKslot_nvm (d : Dev) (n : Nat) (k : Slot) : (d.setKslot n k).nvm = d.nvm := rfl
@[simp] theorem Dev.setKslot_wrp (d : Dev) (n : Nat) (k : Slot) : (d.setKslot n k).wrp = d.wrp := rfl
@[simp] theorem Dev.setKslot_rdp (d : Dev) (n : Nat) (k : Slot) : (d.setKslot n k).rdp = d.rdp := rfl
@[simp] theorem Dev.setKslot_icm (d : Dev) (n : Nat) (k : Slot) : (d.setKslot n k).icm = d.icm := rfl
@[simp] theorem Dev.setKslot_mxt (d : Dev) (n : Nat) (k : Slot) : (d.setKslot n k).mxt = d.mxt := rfl
@[simp] theorem Dev.setKslot_ldc (d : Dev) (n : Nat) (k : Slot) : (d.setKslot n k).ldc = d.ldc := rfl
@[simp] theorem Dev.setKslot_mch (d : Dev) (n : Nat) (k : Slot) : (d.setKslot n k).mch = d.mch := rfl
@[simp] theorem Dev.setKslot_crt (d : Dev) (n : Nat) (k : Slot) : (d.setKslot n k).crt = d.crt := rfl
@[simp] theorem Dev.setKslot_jrn (d : Dev) (n : Nat) (k : Slot) : (d.setKslot n k).jrn = d.jrn := rfl
@[simp] theorem Dev.setKslot_map (d : Dev) (n : Nat) (k : Slot) : (d.setKslot n k).map = d.map := rfl
@[simp] theorem Dev.setKslot_par (d : Dev) (n : Nat) (k : Slot) : (d.setKslot n k).par = d.par := rfl
@[simp] theorem Dev.setKslot_outr (d : Dev) (n : Nat) (k : Slot) : (d.setKslot n k).outr = d.outr := rfl
@[simp] theorem Dev.setKslot_hrt (d : Dev) (n : Nat) (k : Slot) : (d.setKslot n k).hrt = d.hrt := rfl
@[simp] theorem Dev.setKslot_tng (d : Dev) (n : Nat) (k : Slot) : (d.setKslot n k).tng = d.tng := rfl
@[simp] theorem Dev.setKslot_cxe (d : Dev) (n : Nat) (k : Slot) : (d.setKslot n k).cxe = d.cxe := rfl
@[simp] theorem Dev.setKslot_dge (d : Dev) (n : Nat) (k : Slot) : (d.setKslot n k).dge = d.dge := rfl
@[simp] theorem Dev.setKslot_aee (d : Dev) (n : Nat) (k : Slot) : (d.setKslot n k).aee = d.aee := rfl
@[simp] theorem Dev.setKslot_drv (d : Dev) (n : Nat) (k : Slot) : (d.setKslot n k).drv = d.drv := rfl
@[simp] theorem Dev.setKslot_icu (d : Dev) (n : Nat) (k : Slot) : (d.setKslot n k).icu = d.icu := rfl
@[simp] theorem Dev.setKslot_cfl (d : Dev) (n : Nat) (k : Slot) : (d.setKslot n k).cfl = d.cfl := rfl
@[simp] theorem Dev.setKslot_bot (d : Dev) (n : Nat) (k : Slot) : (d.setKslot n k).bot = d.bot := rfl
@[simp] theorem Dev.setKslot_wdt (d : Dev) (n : Nat) (k : Slot) : (d.setKslot n k).wdt = d.wdt := rfl
@[simp] theorem Dev.setKslot_mnf (d : Dev) (n : Nat) (k : Slot) : (d.setKslot n k).mnf = d.mnf := rfl
@[simp] theorem Dev.setKslot_evl (d : Dev) (n : Nat) (k : Slot) : (d.setKslot n k).evl = d.evl := rfl
@[simp] theorem Dev.setKslot_mgt (d : Dev) (n : Nat) (k : Slot) : (d.setKslot n k).mgt = d.mgt := rfl
@[simp] theorem Dev.setKslot_spdm (d : Dev) (n : Nat) (k : Slot) : (d.setKslot n k).spdm = d.spdm := rfl
@[simp] theorem Dev.setKslot_emb (d : Dev) (n : Nat) (k : Slot) : (d.setKslot n k).emb = d.emb := rfl
@[simp] theorem Dev.setKslot_blw (d : Dev) (n : Nat) (k : Slot) : (d.setKslot n k).blw = d.blw := rfl
@[simp] theorem Dev.setKslot_out (d : Dev) (n : Nat) (k : Slot) : (d.setKslot n k).out = d.out := rfl

@[simp] theorem Dev.vaultWrite_clk (d : Dev) : (d.vaultWrite).clk = d.clk := rfl
@[simp] theorem Dev.vaultWrite_tol (d : Dev) : (d.vaultWrite).tol = d.tol := rfl
@[simp] theorem Dev.vaultWrite_fab (d : Dev) : (d.vaultWrite).fab = d.fab := rfl
@[simp] theorem Dev.vaultWrite_hlk (d : Dev) : (d.vaultWrite).hlk = d.hlk := rfl
@[simp] theorem Dev.vaultWrite_fnm (d : Dev) : (d.vaultWrite).fnm = d.fnm := rfl
@[simp] theorem Dev.vaultWrite_qen (d : Dev) : (d.vaultWrite).qen = d.qen := rfl
@[simp] theorem Dev.vaultWrite_nvm (d : Dev) : (d.vaultWrite).nvm = d.nvm := rfl
@[simp] theorem Dev.vaultWrite_wrp (d : Dev) : (d.vaultWrite).wrp = d.wrp := rfl
@[simp] theorem Dev.vaultWrite_rdp (d : Dev) : (d.vaultWrite).rdp = d.rdp := rfl
@[simp] theorem Dev.vaultWrite_icm (d : Dev) : (d.vaultWrite).icm = d.icm := rfl
@[simp] theorem Dev.vaultWrite_mxt (d : Dev) : (d.vaultWrite).mxt = d.mxt := rfl
@[simp] theorem Dev.vaultWrite_ldc (d : Dev) : (d.vaultWrite).ldc = d.ldc := rfl
@[simp] theorem Dev.vaultWrite_mch (d : Dev) : (d.vaultWrite).mch = d.mch := rfl
@[simp] theorem Dev.vaultWrite_crt (d : Dev) : (d.vaultWrite).crt = d.crt := rfl
@[simp] theorem Dev.vaultWrite_jrn (d : Dev) : (d.vaultWrite).jrn = d.jrn := rfl
@[simp] theorem Dev.vaultWrite_map (d : Dev) : (d.vaultWrite).map = d.map := rfl
@[simp] theorem Dev.vaultWrite_par (d : Dev) : (d.vaultWrite).par = d.par := rfl
@[simp] theorem Dev.vaultWrite_outr (d : Dev) : (d.vaultWrite).outr = d.outr := rfl
@[simp] theorem Dev.vaultWrite_hrt (d : Dev) : (d.vaultWrite).hrt = d.hrt := rfl
@[simp] theorem Dev.vaultWrite_tng (d : Dev) : (d.vaultWrite).tng = d.tng := rfl
@[simp] theorem Dev.vaultWrite_cxe (d : Dev) : (d.vaultWrite).cxe = d.cxe := rfl
@[simp] theorem Dev.vaultWrite_dge (d : Dev) : (d.vaultWrite).dge = d.dge := rfl
@[simp] theorem Dev.vaultWrite_aee (d : Dev) : (d.vaultWrite).aee = d.aee := rfl
@[simp] theorem Dev.vaultWrite_drv (d : Dev) : (d.vaultWrite).drv = d.drv := rfl
@[simp] theorem Dev.vaultWrite_icu (d : Dev) : (d.vaultWrite).icu = d.icu := rfl
@[simp] theorem Dev.vaultWrite_cfl (d : Dev) : (d.vaultWrite).cfl = d.cfl := rfl
@[simp] theorem Dev.vaultWrite_bot (d : Dev) : (d.vaultWrite).bot = d.bot := rfl
@[simp] theorem Dev.vaultWrite_wdt (d : Dev) : (d.vaultWrite).wdt = d.wdt := rfl
@[simp] theorem Dev.vaultWrite_mnf (d : Dev) : (d.vaultWrite).mnf = d.mnf := rfl
@[simp] theorem Dev.vaultWrite_evl (d : Dev) : (d.vaultWrite).evl = d.evl := rfl
@[simp] theorem Dev.vaultWrite_mgt (d : Dev) : (d.vaultWrite).mgt = d.mgt := rfl
@[simp] theorem Dev.vaultWrite_spdm (d : Dev) : (d.vaultWrite).spdm = d.spdm := rfl
@[simp] theorem Dev.vaultWrite_emb (d : Dev) : (d.vaultWrite).emb = d.emb := rfl
@[simp] theorem Dev.vaultWrite_blw (d : Dev) : (d.vaultWrite).blw = d.blw := rfl
@[simp] theorem Dev.vaultWrite_out (d : Dev) : (d.vaultWrite).out = d.out := rfl

@[simp] theorem Dev.flushLaneKeys_clk (d : Dev) (serial : Nat) : (d.flushLaneKeys serial).clk = d.clk := rfl
@[simp] theorem Dev.flushLaneKeys_tol (d : Dev) (serial : Nat) : (d.flushLaneKeys serial).tol = d.tol := rfl
@[simp] theorem Dev.flushLaneKeys_fab (d : Dev) (serial : Nat) : (d.flushLaneKeys serial).fab = d.fab := rfl
@[simp] theorem Dev.flushLaneKeys_hlk (d : Dev) (serial : Nat) : (d.flushLaneKeys serial).hlk = d.hlk := rfl
@[simp] theorem Dev.flushLaneKeys_fnm (d : Dev) (serial : Nat) : (d.flushLaneKeys serial).fnm = d.fnm := rfl
@[simp] theorem Dev.flushLaneKeys_qen (d : Dev) (serial : Nat) : (d.flushLaneKeys serial).qen = d.qen := rfl
@[simp] theorem Dev.flushLaneKeys_nvm (d : Dev) (serial : Nat) : (d.flushLaneKeys serial).nvm = d.nvm := rfl
@[simp] theorem Dev.flushLaneKeys_wrp (d : Dev) (serial : Nat) : (d.flushLaneKeys serial).wrp = d.wrp := rfl
@[simp] theorem Dev.flushLaneKeys_rdp (d : Dev) (serial : Nat) : (d.flushLaneKeys serial).rdp = d.rdp := rfl
@[simp] theorem Dev.flushLaneKeys_icm (d : Dev) (serial : Nat) : (d.flushLaneKeys serial).icm = d.icm := rfl
@[simp] theorem Dev.flushLaneKeys_ldc (d : Dev) (serial : Nat) : (d.flushLaneKeys serial).ldc = d.ldc := rfl
@[simp] theorem Dev.flushLaneKeys_mch (d : Dev) (serial : Nat) : (d.flushLaneKeys serial).mch = d.mch := rfl
@[simp] theorem Dev.flushLaneKeys_crt (d : Dev) (serial : Nat) : (d.flushLaneKeys serial).crt = d.crt := rfl
@[simp] theorem Dev.flushLaneKeys_jrn (d : Dev) (serial : Nat) : (d.flushLaneKeys serial).jrn = d.jrn := rfl
@[simp] theorem Dev.flushLaneKeys_map (d : Dev) (serial : Nat) : (d.flushLaneKeys serial).map = d.map := rfl
@[simp] theorem Dev.flushLaneKeys_par (d : Dev) (serial : Nat) : (d.flushLaneKeys serial).par = d.par := rfl
@[simp] theorem Dev.flushLaneKeys_outr (d : Dev) (serial : Nat) : (d.flushLaneKeys serial).outr = d.outr := rfl
@[simp] theorem Dev.flushLaneKeys_hrt (d : Dev) (serial : Nat) : (d.flushLaneKeys serial).hrt = d.hrt := rfl
@[simp] theorem Dev.flushLaneKeys_tng (d : Dev) (serial : Nat) : (d.flushLaneKeys serial).tng = d.tng := rfl
@[simp] theorem Dev.flushLaneKeys_cxe (d : Dev) (serial : Nat) : (d.flushLaneKeys serial).cxe = d.cxe := rfl
@[simp] theorem Dev.flushLaneKeys_dge (d : Dev) (serial : Nat) : (d.flushLaneKeys serial).dge = d.dge := rfl
@[simp] theorem Dev.flushLaneKeys_aee (d : Dev) (serial : Nat) : (d.flushLaneKeys serial).aee = d.aee := rfl
@[simp] theorem Dev.flushLaneKeys_key (d : Dev) (serial : Nat) : (d.flushLaneKeys serial).key = d.key := rfl
@[simp] theorem Dev.flushLaneKeys_drv (d : Dev) (serial : Nat) : (d.flushLaneKeys serial).drv = d.drv := rfl
@[simp] theorem Dev.flushLaneKeys_icu (d : Dev) (serial : Nat) : (d.flushLaneKeys serial).icu = d.icu := rfl
@[simp] theorem Dev.flushLaneKeys_cfl (d : Dev) (serial : Nat) : (d.flushLaneKeys serial).cfl = d.cfl := rfl
@[simp] theorem Dev.flushLaneKeys_bot (d : Dev) (serial : Nat) : (d.flushLaneKeys serial).bot = d.bot := rfl
@[simp] theorem Dev.flushLaneKeys_wdt (d : Dev) (serial : Nat) : (d.flushLaneKeys serial).wdt = d.wdt := rfl
@[simp] theorem Dev.flushLaneKeys_mnf (d : Dev) (serial : Nat) : (d.flushLaneKeys serial).mnf = d.mnf := rfl
@[simp] theorem Dev.flushLaneKeys_evl (d : Dev) (serial : Nat) : (d.flushLaneKeys serial).evl = d.evl := rfl
@[simp] theorem Dev.flushLaneKeys_mgt (d : Dev) (serial : Nat) : (d.flushLaneKeys serial).mgt = d.mgt := rfl
@[simp] theorem Dev.flushLaneKeys_spdm (d : Dev) (serial : Nat) : (d.flushLaneKeys serial).spdm = d.spdm := rfl
@[simp] theorem Dev.flushLaneKeys_emb (d : Dev) (serial : Nat) : (d.flushLaneKeys serial).emb = d.emb := rfl
@[simp] theorem Dev.flushLaneKeys_blw (d : Dev) (serial : Nat) : (d.flushLaneKeys serial).blw = d.blw := rfl
@[simp] theorem Dev.flushLaneKeys_out (d : Dev) (serial : Nat) : (d.flushLaneKeys serial).out = d.out := rfl

@[simp] theorem Dev.modDie_clk (d : Dev) (n : Nat) (f : Die → Die) : (d.modDie n f).clk = d.clk := rfl
@[simp] theorem Dev.modDie_tol (d : Dev) (n : Nat) (f : Die → Die) : (d.modDie n f).tol = d.tol := rfl
@[simp] theorem Dev.modDie_fab (d : Dev) (n : Nat) (f : Die → Die) : (d.modDie n f).fab = d.fab := rfl
@[simp] theorem Dev.modDie_hlk (d : Dev) (n : Nat) (f : Die → Die) : (d.modDie n f).hlk = d.hlk := rfl
@[simp] theorem Dev.modDie_fnm (d : Dev) (n : Nat) (f : Die → Die) : (d.modDie n f).fnm = d.fnm := rfl
@[simp] theorem Dev.modDie_qen (d : Dev) (n : Nat) (f : Die → Die) : (d.modDie n f).qen = d.qen := rfl
@[simp] theorem Dev.modDie_nvm (d : Dev) (n : Nat) (f : Die → Die) : (d.modDie n f).nvm = d.nvm := rfl
@[simp] theorem Dev.modDie_wrp (d : Dev) (n : Nat) (f : Die → Die) : (d.modDie n f).wrp = d.wrp := rfl
@[simp] theorem Dev.modDie_rdp (d : Dev) (n : Nat) (f : Die → Die) : (d.modDie n f).rdp = d.rdp := rfl
@[simp] theorem Dev.modDie_icm (d : Dev) (n : Nat) (f : Die → Die) : (d.modDie n f).icm = d.icm := rfl
@[simp] theorem Dev.modDie_mxt (d : Dev) (n : Nat) (f : Die → Die) : (d.modDie n f).mxt = d.mxt := rfl
@[simp] theorem Dev.modDie_ldc (d : Dev) (n : Nat) (f : Die → Die) : (d.modDie n f).ldc = d.ldc := rfl
@[simp] theorem Dev.modDie_crt (d : Dev) (n : Nat) (f : Die → Die) : (d.modDie n f).crt = d.crt := rfl
@[simp] theorem Dev.modDie_jrn (d : Dev) (n : Nat) (f : Die → Die) : (d.modDie n f).jrn = d.jrn := rfl
@[simp] theorem Dev.modDie_map (d : Dev) (n : Nat) (f : Die → Die) : (d.modDie n f).map = d.map := rfl
@[simp] theorem Dev.modDie_par (d : Dev) (n : Nat) (f : Die → Die) : (d.modDie n f).par = d.par := rfl
@[simp] theorem Dev.modDie_outr (d : Dev) (n : Nat) (f : Die → Die) : (d.modDie n f).outr = d.outr := rfl
@[simp] theorem Dev.modDie_hrt (d : Dev) (n : Nat) (f : Die → Die) : (d.modDie n f).hrt = d.hrt := rfl
@[simp] theorem Dev.modDie_tng (d : Dev) (n : Nat) (f : Die → Die) : (d.modDie n f).tng = d.tng := rfl
@[simp] theorem Dev.modDie_cxe (d : Dev) (n : Nat) (f : Die → Die) : (d.modDie n f).cxe = d.cxe := rfl
@[simp] theorem Dev.modDie_dge (d : Dev) (n : Nat) (f : Die → Die) : (d.modDie n f).dge = d.dge := rfl
@[simp] theorem Dev.modDie_aee (d : Dev) (n : Nat) (f : Die → Die) : (d.modDie n f).aee = d.aee := rfl
@[simp] theorem Dev.modDie_key (d : Dev) (n : Nat) (f : Die → Die) : (d.modDie n f).key = d.key := rfl
@[simp] theorem Dev.modDie_drv (d : Dev) (n : Nat) (f : Die → Die) : (d.modDie n f).drv = d.drv := rfl
@[simp] theorem Dev.modDie_icu (d : Dev) (n : Nat) (f : Die → Die) : (d.modDie n f).icu = d.icu := rfl
@[simp] theorem Dev.modDie_cfl (d : Dev) (n : Nat) (f : Die → Die) : (d.modDie n f).cfl = d.cfl := rfl
@[simp] theorem Dev.modDie_bot (d : Dev) (n : Nat) (f : Die → Die) : (d.modDie n f).bot = d.bot := rfl
@[simp] theorem Dev.modDie_wdt (d : Dev) (n : Nat) (f : Die → Die) : (d.modDie n f).wdt = d.wdt := rfl
@[simp] theorem Dev.modDie_mnf (d : Dev) (n : Nat) (f : Die → Die) : (d.modDie n f).mnf = d.mnf := rfl
@[simp] theorem Dev.modDie_evl (d : Dev) (n : Nat) (f : Die → Die) : (d.modDie n f).evl = d.evl := rfl
@[simp] theorem Dev.modDie_mgt (d : Dev) (n : Nat) (f : Die → Die) : (d.modDie n f).mgt = d.mgt := rfl
@[simp] theorem Dev.modDie_spdm (d : Dev) (n : Nat) (f : Die → Die) : (d.modDie n f).spdm = d.spdm := rfl
@[simp] theorem Dev.modDie_emb (d : Dev) (n : Nat) (f : Die → Die) : (d.modDie n f).emb = d.emb := rfl
@[simp] theorem Dev.modDie_blw (d : Dev) (n : Nat) (f : Die → Die) : (d.modDie n f).blw = d.blw := rfl
@[simp] theorem Dev.modDie_out (d : Dev) (n : Nat) (f : Die → Die) : (d.modDie n f).out = d.out := rfl

@[simp] theorem Dev.modChan_clk (d : Dev) (c : Nat) (f : Chan → Chan) : (d.modChan c f).clk = d.clk := rfl
@[simp] theorem Dev.modChan_tol (d : Dev) (c : Nat) (f : Chan → Chan) : (d.modChan c f).tol = d.tol := rfl
@[simp] theorem Dev.modChan_fab (d : Dev) (c : Nat) (f : Chan → Chan) : (d.modChan c f).fab = d.fab := rfl
@[simp] theorem Dev.modChan_hlk (d : Dev) (c : Nat) (f : Chan → Chan) : (d.modChan c f).hlk = d.hlk := rfl
@[simp] theorem Dev.modChan_fnm (d : Dev) (c : Nat) (f : Chan → Chan) : (d.modChan c f).fnm = d.fnm := rfl
@[simp] theorem Dev.modChan_qen (d : Dev) (c : Nat) (f : Chan → Chan) : (d.modChan c f).qen = d.qen := rfl
@[simp] theorem Dev.modChan_nvm (d : Dev) (c : Nat) (f : Chan → Chan) : (d.modChan c f).nvm = d.nvm := rfl
@[simp] theorem Dev.modChan_wrp (d : Dev) (c : Nat) (f : Chan → Chan) : (d.modChan c f).wrp = d.wrp := rfl
@[simp] theorem Dev.modChan_rdp (d : Dev) (c : Nat) (f : Chan → Chan) : (d.modChan c f).rdp = d.rdp := rfl
@[simp] theorem Dev.modChan_icm (d : Dev) (c : Nat) (f : Chan → Chan) : (d.modChan c f).icm = d.icm := rfl
@[simp] theorem Dev.modChan_mxt (d : Dev) (c : Nat) (f : Chan → Chan) : (d.modChan c f).mxt = d.mxt := rfl
@[simp] theorem Dev.modChan_ldc (d : Dev) (c : Nat) (f : Chan → Chan) : (d.modChan c f).ldc = d.ldc := rfl
@[simp] theorem Dev.modChan_crt (d : Dev) (c : Nat) (f : Chan → Chan) : (d.modChan c f).crt = d.crt := rfl
@[simp] theorem Dev.modChan_jrn (d : Dev) (c : Nat) (f : Chan → Chan) : (d.modChan c f).jrn = d.jrn := rfl
@[simp] theorem Dev.modChan_map (d : Dev) (c : Nat) (f : Chan → Chan) : (d.modChan c f).map = d.map := rfl
@[simp] theorem Dev.modChan_par (d : Dev) (c : Nat) (f : Chan → Chan) : (d.modChan c f).par = d.par := rfl
@[simp] theorem Dev.modChan_outr (d : Dev) (c : Nat) (f : Chan → Chan) : (d.modChan c f).outr = d.outr := rfl
@[simp] theorem Dev.modChan_hrt (d : Dev) (c : Nat) (f : Chan → Chan) : (d.modChan c f).hrt = d.hrt := rfl
@[simp] theorem Dev.modChan_tng (d : Dev) (c : Nat) (f : Chan → Chan) : (d.modChan c f).tng = d.tng := rfl
@[simp] theorem Dev.modChan_cxe (d : Dev) (c : Nat) (f : Chan → Chan) : (d.modChan c f).cxe = d.cxe := rfl
@[simp] theorem Dev.modChan_dge (d : Dev) (c : Nat) (f : Chan → Chan) : (d.modChan c f).dge = d.dge := rfl
@[simp] theorem Dev.modChan_aee (d : Dev) (c : Nat) (f : Chan → Chan) : (d.modChan c f).aee = d.aee := rfl
@[simp] theorem Dev.modChan_key (d : Dev) (c : Nat) (f : Chan → Chan) : (d.modChan c f).key = d.key := rfl
@[simp] theorem Dev.modChan_drv (d : Dev) (c : Nat) (f : Chan → Chan) : (d.modChan c f).drv = d.drv := rfl
@[simp] theorem Dev.modChan_icu (d : Dev) (c : Nat) (f : Chan → Chan) : (d.modChan c f).icu = d.icu := rfl
@[simp] theorem Dev.modChan_cfl (d : Dev) (c : Nat) (f : Chan → Chan) : (d.modChan c f).cfl = d.cfl := rfl
@[simp] theorem Dev.modChan_bot (d : Dev) (c : Nat) (f : Chan → Chan) : (d.modChan c f).bot = d.bot := rfl
@[simp] theorem Dev.modChan_wdt (d : Dev) (c : Nat) (f : Chan → Chan) : (d.modChan c f).wdt = d.wdt := rfl
@[simp] theorem Dev.modChan_mnf (d : Dev) (c : Nat) (f : Chan → Chan) : (d.modChan c f).mnf = d.mnf := rfl
@[simp] theorem Dev.modChan_evl (d : Dev) (c : Nat) (f : Chan → Chan) : (d.modChan c f).evl = d.evl := rfl
@[simp] theorem Dev.modChan_mgt (d : Dev) (c : Nat) (f : Chan → Chan) : (d.modChan c f).mgt = d.mgt := rfl
@[simp] theorem Dev.modChan_spdm (d : Dev) (c : Nat) (f : Chan → Chan) : (d.modChan c f).spdm = d.spdm := rfl
@[simp] theorem Dev.modChan_emb (d : Dev) (c : Nat) (f : Chan → Chan) : (d.modChan c f).emb = d.emb := rfl
@[simp] theorem Dev.modChan_blw (d : Dev) (c : Nat) (f : Chan → Chan) : (d.modChan c f).blw = d.blw := rfl
@[simp] theorem Dev.modChan_out (d : Dev) (c : Nat) (f : Chan → Chan) : (d.modChan c f).out = d.out := rfl

@[simp] theorem Dev.modGrp_clk (d : Dev) (g : Nat) (f : Cart → Cart) : (d.modGrp g f).clk = d.clk := rfl
@[simp] theorem Dev.modGrp_tol (d : Dev) (g : Nat) (f : Cart → Cart) : (d.modGrp g f).tol = d.tol := rfl
@[simp] theorem Dev.modGrp_fab (d : Dev) (g : Nat) (f : Cart → Cart) : (d.modGrp g f).fab = d.fab := rfl
@[simp] theorem Dev.modGrp_hlk (d : Dev) (g : Nat) (f : Cart → Cart) : (d.modGrp g f).hlk = d.hlk := rfl
@[simp] theorem Dev.modGrp_fnm (d : Dev) (g : Nat) (f : Cart → Cart) : (d.modGrp g f).fnm = d.fnm := rfl
@[simp] theorem Dev.modGrp_qen (d : Dev) (g : Nat) (f : Cart → Cart) : (d.modGrp g f).qen = d.qen := rfl
@[simp] theorem Dev.modGrp_nvm (d : Dev) (g : Nat) (f : Cart → Cart) : (d.modGrp g f).nvm = d.nvm := rfl
@[simp] theorem Dev.modGrp_wrp (d : Dev) (g : Nat) (f : Cart → Cart) : (d.modGrp g f).wrp = d.wrp := rfl
@[simp] theorem Dev.modGrp_rdp (d : Dev) (g : Nat) (f : Cart → Cart) : (d.modGrp g f).rdp = d.rdp := rfl
@[simp] theorem Dev.modGrp_icm (d : Dev) (g : Nat) (f : Cart → Cart) : (d.modGrp g f).icm = d.icm := rfl
@[simp] theorem Dev.modGrp_mxt (d : Dev) (g : Nat) (f : Cart → Cart) : (d.modGrp g f).mxt = d.mxt := rfl
@[simp] theorem Dev.modGrp_ldc (d : Dev) (g : Nat) (f : Cart → Cart) : (d.modGrp g f).ldc = d.ldc := rfl
@[simp] theorem Dev.modGrp_mch (d : Dev) (g : Nat) (f : Cart → Cart) : (d.modGrp g f).mch = d.mch := rfl
@[simp] theorem Dev.modGrp_jrn (d : Dev) (g : Nat) (f : Cart → Cart) : (d.modGrp g f).jrn = d.jrn := rfl
@[simp] theorem Dev.modGrp_map (d : Dev) (g : Nat) (f : Cart → Cart) : (d.modGrp g f).map = d.map := rfl
@[simp] theorem Dev.modGrp_par (d : Dev) (g : Nat) (f : Cart → Cart) : (d.modGrp g f).par = d.par := rfl
@[simp] theorem Dev.modGrp_outr (d : Dev) (g : Nat) (f : Cart → Cart) : (d.modGrp g f).outr = d.outr := rfl
@[simp] theorem Dev.modGrp_hrt (d : Dev) (g : Nat) (f : Cart → Cart) : (d.modGrp g f).hrt = d.hrt := rfl
@[simp] theorem Dev.modGrp_tng (d : Dev) (g : Nat) (f : Cart → Cart) : (d.modGrp g f).tng = d.tng := rfl
@[simp] theorem Dev.modGrp_cxe (d : Dev) (g : Nat) (f : Cart → Cart) : (d.modGrp g f).cxe = d.cxe := rfl
@[simp] theorem Dev.modGrp_dge (d : Dev) (g : Nat) (f : Cart → Cart) : (d.modGrp g f).dge = d.dge := rfl
@[simp] theorem Dev.modGrp_aee (d : Dev) (g : Nat) (f : Cart → Cart) : (d.modGrp g f).aee = d.aee := rfl
@[simp] theorem Dev.modGrp_key (d : Dev) (g : Nat) (f : Cart → Cart) : (d.modGrp g f).key = d.key := rfl
@[simp] theorem Dev.modGrp_drv (d : Dev) (g : Nat) (f : Cart → Cart) : (d.modGrp g f).drv = d.drv := rfl
@[simp] theorem Dev.modGrp_icu (d : Dev) (g : Nat) (f : Cart → Cart) : (d.modGrp g f).icu = d.icu := rfl
@[simp] theorem Dev.modGrp_cfl (d : Dev) (g : Nat) (f : Cart → Cart) : (d.modGrp g f).cfl = d.cfl := rfl
@[simp] theorem Dev.modGrp_bot (d : Dev) (g : Nat) (f : Cart → Cart) : (d.modGrp g f).bot = d.bot := rfl
@[simp] theorem Dev.modGrp_wdt (d : Dev) (g : Nat) (f : Cart → Cart) : (d.modGrp g f).wdt = d.wdt := rfl
@[simp] theorem Dev.modGrp_mnf (d : Dev) (g : Nat) (f : Cart → Cart) : (d.modGrp g f).mnf = d.mnf := rfl
@[simp] theorem Dev.modGrp_evl (d : Dev) (g : Nat) (f : Cart → Cart) : (d.modGrp g f).evl = d.evl := rfl
@[simp] theorem Dev.modGrp_mgt (d : Dev) (g : Nat) (f : Cart → Cart) : (d.modGrp g f).mgt = d.mgt := rfl
@[simp] theorem Dev.modGrp_spdm (d : Dev) (g : Nat) (f : Cart → Cart) : (d.modGrp g f).spdm = d.spdm := rfl
@[simp] theorem Dev.modGrp_emb (d : Dev) (g : Nat) (f : Cart → Cart) : (d.modGrp g f).emb = d.emb := rfl
@[simp] theorem Dev.modGrp_blw (d : Dev) (g : Nat) (f : Cart → Cart) : (d.modGrp g f).blw = d.blw := rfl
@[simp] theorem Dev.modGrp_out (d : Dev) (g : Nat) (f : Cart → Cart) : (d.modGrp g f).out = d.out := rfl

@[simp] theorem Dev.modBlk_clk (d : Dev) (die block : Nat) (f : Block → Block) : (d.modBlk die block f).clk = d.clk := rfl
@[simp] theorem Dev.modBlk_tol (d : Dev) (die block : Nat) (f : Block → Block) : (d.modBlk die block f).tol = d.tol := rfl
@[simp] theorem Dev.modBlk_fab (d : Dev) (die block : Nat) (f : Block → Block) : (d.modBlk die block f).fab = d.fab := rfl
@[simp] theorem Dev.modBlk_hlk (d : Dev) (die block : Nat) (f : Block → Block) : (d.modBlk die block f).hlk = d.hlk := rfl
@[simp] theorem Dev.modBlk_fnm (d : Dev) (die block : Nat) (f : Block → Block) : (d.modBlk die block f).fnm = d.fnm := rfl
@[simp] theorem Dev.modBlk_qen (d : Dev) (die block : Nat) (f : Block → Block) : (d.modBlk die block f).qen = d.qen := rfl
@[simp] theorem Dev.modBlk_nvm (d : Dev) (die block : Nat) (f : Block → Block) : (d.modBlk die block f).nvm = d.nvm := rfl
@[simp] theorem Dev.modBlk_wrp (d : Dev) (die block : Nat) (f : Block → Block) : (d.modBlk die block f).wrp = d.wrp := rfl
@[simp] theorem Dev.modBlk_rdp (d : Dev) (die block : Nat) (f : Block → Block) : (d.modBlk die block f).rdp = d.rdp := rfl
@[simp] theorem Dev.modBlk_icm (d : Dev) (die block : Nat) (f : Block → Block) : (d.modBlk die block f).icm = d.icm := rfl
@[simp] theorem Dev.modBlk_mxt (d : Dev) (die block : Nat) (f : Block → Block) : (d.modBlk die block f).mxt = d.mxt := rfl
@[simp] theorem Dev.modBlk_ldc (d : Dev) (die block : Nat) (f : Block → Block) : (d.modBlk die block f).ldc = d.ldc := rfl
@[simp] theorem Dev.modBlk_mch (d : Dev) (die block : Nat) (f : Block → Block) : (d.modBlk die block f).mch = d.mch := rfl
@[simp] theorem Dev.modBlk_crt (d : Dev) (die block : Nat) (f : Block → Block) : (d.modBlk die block f).crt = d.crt := rfl
@[simp] theorem Dev.modBlk_jrn (d : Dev) (die block : Nat) (f : Block → Block) : (d.modBlk die block f).jrn = d.jrn := rfl
@[simp] theorem Dev.modBlk_par (d : Dev) (die block : Nat) (f : Block → Block) : (d.modBlk die block f).par = d.par := rfl
@[simp] theorem Dev.modBlk_outr (d : Dev) (die block : Nat) (f : Block → Block) : (d.modBlk die block f).outr = d.outr := rfl
@[simp] theorem Dev.modBlk_hrt (d : Dev) (die block : Nat) (f : Block → Block) : (d.modBlk die block f).hrt = d.hrt := rfl
@[simp] theorem Dev.modBlk_tng (d : Dev) (die block : Nat) (f : Block → Block) : (d.modBlk die block f).tng = d.tng := rfl
@[simp] theorem Dev.modBlk_cxe (d : Dev) (die block : Nat) (f : Block → Block) : (d.modBlk die block f).cxe = d.cxe := rfl
@[simp] theorem Dev.modBlk_dge (d : Dev) (die block : Nat) (f : Block → Block) : (d.modBlk die block f).dge = d.dge := rfl
@[simp] theorem Dev.modBlk_aee (d : Dev) (die block : Nat) (f : Block → Block) : (d.modBlk die block f).aee = d.aee := rfl
@[simp] theorem Dev.modBlk_key (d : Dev) (die block : Nat) (f : Block → Block) : (d.modBlk die block f).key = d.key := rfl
@[simp] theorem Dev.modBlk_drv (d : Dev) (die block : Nat) (f : Block → Block) : (d.modBlk die block f).drv = d.drv := rfl
@[simp] theorem Dev.modBlk_icu (d : Dev) (die block : Nat) (f : Block → Block) : (d.modBlk die block f).icu = d.icu := rfl
@[simp] theorem Dev.modBlk_cfl (d : Dev) (die block : Nat) (f : Block → Block) : (d.modBlk die block f).cfl = d.cfl := rfl
@[simp] theorem Dev.modBlk_bot (d : Dev) (die block : Nat) (f : Block → Block) : (d.modBlk die block f).bot = d.bot := rfl
@[simp] theorem Dev.modBlk_wdt (d : Dev) (die block : Nat) (f : Block → Block) : (d.modBlk die block f).wdt = d.wdt := rfl
@[simp] theorem Dev.modBlk_mnf (d : Dev) (die block : Nat) (f : Block → Block) : (d.modBlk die block f).mnf = d.mnf := rfl
@[simp] theorem Dev.modBlk_evl (d : Dev) (die block : Nat) (f : Block → Block) : (d.modBlk die block f).evl = d.evl := rfl
@[simp] theorem Dev.modBlk_mgt (d : Dev) (die block : Nat) (f : Block → Block) : (d.modBlk die block f).mgt = d.mgt := rfl
@[simp] theorem Dev.modBlk_spdm (d : Dev) (die block : Nat) (f : Block → Block) : (d.modBlk die block f).spdm = d.spdm := rfl
@[simp] theorem Dev.modBlk_emb (d : Dev) (die block : Nat) (f : Block → Block) : (d.modBlk die block f).emb = d.emb := rfl
@[simp] theorem Dev.modBlk_blw (d : Dev) (die block : Nat) (f : Block → Block) : (d.modBlk die block f).blw = d.blw := rfl
@[simp] theorem Dev.modBlk_out (d : Dev) (die block : Nat) (f : Block → Block) : (d.modBlk die block f).out = d.out := rfl

@[simp] theorem Dev.setFill_clk (d : Dev) (die block n : Nat) : (d.setFill die block n).clk = d.clk := rfl
@[simp] theorem Dev.setFill_tol (d : Dev) (die block n : Nat) : (d.setFill die block n).tol = d.tol := rfl
@[simp] theorem Dev.setFill_fab (d : Dev) (die block n : Nat) : (d.setFill die block n).fab = d.fab := rfl
@[simp] theorem Dev.setFill_hlk (d : Dev) (die block n : Nat) : (d.setFill die block n).hlk = d.hlk := rfl
@[simp] theorem Dev.setFill_fnm (d : Dev) (die block n : Nat) : (d.setFill die block n).fnm = d.fnm := rfl
@[simp] theorem Dev.setFill_qen (d : Dev) (die block n : Nat) : (d.setFill die block n).qen = d.qen := rfl
@[simp] theorem Dev.setFill_nvm (d : Dev) (die block n : Nat) : (d.setFill die block n).nvm = d.nvm := rfl
@[simp] theorem Dev.setFill_wrp (d : Dev) (die block n : Nat) : (d.setFill die block n).wrp = d.wrp := rfl
@[simp] theorem Dev.setFill_rdp (d : Dev) (die block n : Nat) : (d.setFill die block n).rdp = d.rdp := rfl
@[simp] theorem Dev.setFill_icm (d : Dev) (die block n : Nat) : (d.setFill die block n).icm = d.icm := rfl
@[simp] theorem Dev.setFill_mxt (d : Dev) (die block n : Nat) : (d.setFill die block n).mxt = d.mxt := rfl
@[simp] theorem Dev.setFill_ldc (d : Dev) (die block n : Nat) : (d.setFill die block n).ldc = d.ldc := rfl
@[simp] theorem Dev.setFill_crt (d : Dev) (die block n : Nat) : (d.setFill die block n).crt = d.crt := rfl
@[simp] theorem Dev.setFill_jrn (d : Dev) (die block n : Nat) : (d.setFill die block n).jrn = d.jrn := rfl
@[simp] theorem Dev.setFill_map (d : Dev) (die block n : Nat) : (d.setFill die block n).map = d.map := rfl
@[simp] theorem Dev.setFill_par (d : Dev) (die block n : Nat) : (d.setFill die block n).par = d.par := rfl
@[simp] theorem Dev.setFill_outr (d : Dev) (die block n : Nat) : (d.setFill die block n).outr = d.outr := rfl
@[simp] theorem Dev.setFill_hrt (d : Dev) (die block n : Nat) : (d.setFill die block n).hrt = d.hrt := rfl
@[simp] theorem Dev.setFill_tng (d : Dev) (die block n : Nat) : (d.setFill die block n).tng = d.tng := rfl
@[simp] theorem Dev.setFill_cxe (d : Dev) (die block n : Nat) : (d.setFill die block n).cxe = d.cxe := rfl
@[simp] theorem Dev.setFill_dge (d : Dev) (die block n : Nat) : (d.setFill die block n).dge = d.dge := rfl
@[simp] theorem Dev.setFill_aee (d : Dev) (die block n : Nat) : (d.setFill die block n).aee = d.aee := rfl
@[simp] theorem Dev.setFill_key (d : Dev) (die block n : Nat) : (d.setFill die block n).key = d.key := rfl
@[simp] theorem Dev.setFill_drv (d : Dev) (die block n : Nat) : (d.setFill die block n).drv = d.drv := rfl
@[simp] theorem Dev.setFill_icu (d : Dev) (die block n : Nat) : (d.setFill die block n).icu = d.icu := rfl
@[simp] theorem Dev.setFill_cfl (d : Dev) (die block n : Nat) : (d.setFill die block n).cfl = d.cfl := rfl
@[simp] theorem Dev.setFill_bot (d : Dev) (die block n : Nat) : (d.setFill die block n).bot = d.bot := rfl
@[simp] theorem Dev.setFill_wdt (d : Dev) (die block n : Nat) : (d.setFill die block n).wdt = d.wdt := rfl
@[simp] theorem Dev.setFill_mnf (d : Dev) (die block n : Nat) : (d.setFill die block n).mnf = d.mnf := rfl
@[simp] theorem Dev.setFill_evl (d : Dev) (die block n : Nat) : (d.setFill die block n).evl = d.evl := rfl
@[simp] theorem Dev.setFill_mgt (d : Dev) (die block n : Nat) : (d.setFill die block n).mgt = d.mgt := rfl
@[simp] theorem Dev.setFill_spdm (d : Dev) (die block n : Nat) : (d.setFill die block n).spdm = d.spdm := rfl
@[simp] theorem Dev.setFill_emb (d : Dev) (die block n : Nat) : (d.setFill die block n).emb = d.emb := rfl
@[simp] theorem Dev.setFill_blw (d : Dev) (die block n : Nat) : (d.setFill die block n).blw = d.blw := rfl
@[simp] theorem Dev.setFill_out (d : Dev) (die block n : Nat) : (d.setFill die block n).out = d.out := rfl

@[simp] theorem Dev.setNs_clk (d : Dev) (nsid : Nat) (n : Option Ns) : (d.setNs nsid n).clk = d.clk := rfl
@[simp] theorem Dev.setNs_tol (d : Dev) (nsid : Nat) (n : Option Ns) : (d.setNs nsid n).tol = d.tol := rfl
@[simp] theorem Dev.setNs_fab (d : Dev) (nsid : Nat) (n : Option Ns) : (d.setNs nsid n).fab = d.fab := rfl
@[simp] theorem Dev.setNs_hlk (d : Dev) (nsid : Nat) (n : Option Ns) : (d.setNs nsid n).hlk = d.hlk := rfl
@[simp] theorem Dev.setNs_fnm (d : Dev) (nsid : Nat) (n : Option Ns) : (d.setNs nsid n).fnm = d.fnm := rfl
@[simp] theorem Dev.setNs_qen (d : Dev) (nsid : Nat) (n : Option Ns) : (d.setNs nsid n).qen = d.qen := rfl
@[simp] theorem Dev.setNs_wrp (d : Dev) (nsid : Nat) (n : Option Ns) : (d.setNs nsid n).wrp = d.wrp := rfl
@[simp] theorem Dev.setNs_rdp (d : Dev) (nsid : Nat) (n : Option Ns) : (d.setNs nsid n).rdp = d.rdp := rfl
@[simp] theorem Dev.setNs_icm (d : Dev) (nsid : Nat) (n : Option Ns) : (d.setNs nsid n).icm = d.icm := rfl
@[simp] theorem Dev.setNs_mxt (d : Dev) (nsid : Nat) (n : Option Ns) : (d.setNs nsid n).mxt = d.mxt := rfl
@[simp] theorem Dev.setNs_ldc (d : Dev) (nsid : Nat) (n : Option Ns) : (d.setNs nsid n).ldc = d.ldc := rfl
@[simp] theorem Dev.setNs_mch (d : Dev) (nsid : Nat) (n : Option Ns) : (d.setNs nsid n).mch = d.mch := rfl
@[simp] theorem Dev.setNs_crt (d : Dev) (nsid : Nat) (n : Option Ns) : (d.setNs nsid n).crt = d.crt := rfl
@[simp] theorem Dev.setNs_jrn (d : Dev) (nsid : Nat) (n : Option Ns) : (d.setNs nsid n).jrn = d.jrn := rfl
@[simp] theorem Dev.setNs_map (d : Dev) (nsid : Nat) (n : Option Ns) : (d.setNs nsid n).map = d.map := rfl
@[simp] theorem Dev.setNs_par (d : Dev) (nsid : Nat) (n : Option Ns) : (d.setNs nsid n).par = d.par := rfl
@[simp] theorem Dev.setNs_outr (d : Dev) (nsid : Nat) (n : Option Ns) : (d.setNs nsid n).outr = d.outr := rfl
@[simp] theorem Dev.setNs_hrt (d : Dev) (nsid : Nat) (n : Option Ns) : (d.setNs nsid n).hrt = d.hrt := rfl
@[simp] theorem Dev.setNs_tng (d : Dev) (nsid : Nat) (n : Option Ns) : (d.setNs nsid n).tng = d.tng := rfl
@[simp] theorem Dev.setNs_cxe (d : Dev) (nsid : Nat) (n : Option Ns) : (d.setNs nsid n).cxe = d.cxe := rfl
@[simp] theorem Dev.setNs_dge (d : Dev) (nsid : Nat) (n : Option Ns) : (d.setNs nsid n).dge = d.dge := rfl
@[simp] theorem Dev.setNs_aee (d : Dev) (nsid : Nat) (n : Option Ns) : (d.setNs nsid n).aee = d.aee := rfl
@[simp] theorem Dev.setNs_key (d : Dev) (nsid : Nat) (n : Option Ns) : (d.setNs nsid n).key = d.key := rfl
@[simp] theorem Dev.setNs_drv (d : Dev) (nsid : Nat) (n : Option Ns) : (d.setNs nsid n).drv = d.drv := rfl
@[simp] theorem Dev.setNs_icu (d : Dev) (nsid : Nat) (n : Option Ns) : (d.setNs nsid n).icu = d.icu := rfl
@[simp] theorem Dev.setNs_cfl (d : Dev) (nsid : Nat) (n : Option Ns) : (d.setNs nsid n).cfl = d.cfl := rfl
@[simp] theorem Dev.setNs_bot (d : Dev) (nsid : Nat) (n : Option Ns) : (d.setNs nsid n).bot = d.bot := rfl
@[simp] theorem Dev.setNs_wdt (d : Dev) (nsid : Nat) (n : Option Ns) : (d.setNs nsid n).wdt = d.wdt := rfl
@[simp] theorem Dev.setNs_mnf (d : Dev) (nsid : Nat) (n : Option Ns) : (d.setNs nsid n).mnf = d.mnf := rfl
@[simp] theorem Dev.setNs_evl (d : Dev) (nsid : Nat) (n : Option Ns) : (d.setNs nsid n).evl = d.evl := rfl
@[simp] theorem Dev.setNs_mgt (d : Dev) (nsid : Nat) (n : Option Ns) : (d.setNs nsid n).mgt = d.mgt := rfl
@[simp] theorem Dev.setNs_spdm (d : Dev) (nsid : Nat) (n : Option Ns) : (d.setNs nsid n).spdm = d.spdm := rfl
@[simp] theorem Dev.setNs_emb (d : Dev) (nsid : Nat) (n : Option Ns) : (d.setNs nsid n).emb = d.emb := rfl
@[simp] theorem Dev.setNs_blw (d : Dev) (nsid : Nat) (n : Option Ns) : (d.setNs nsid n).blw = d.blw := rfl
@[simp] theorem Dev.setNs_out (d : Dev) (nsid : Nat) (n : Option Ns) : (d.setNs nsid n).out = d.out := rfl

@[simp] theorem Dev.emit_clk (d : Dev) (o : Output) : (d.emit o).clk = d.clk := rfl
@[simp] theorem Dev.emit_tol (d : Dev) (o : Output) : (d.emit o).tol = d.tol := rfl
@[simp] theorem Dev.emit_fab (d : Dev) (o : Output) : (d.emit o).fab = d.fab := rfl
@[simp] theorem Dev.emit_hlk (d : Dev) (o : Output) : (d.emit o).hlk = d.hlk := rfl
@[simp] theorem Dev.emit_fnm (d : Dev) (o : Output) : (d.emit o).fnm = d.fnm := rfl
@[simp] theorem Dev.emit_qen (d : Dev) (o : Output) : (d.emit o).qen = d.qen := rfl
@[simp] theorem Dev.emit_nvm (d : Dev) (o : Output) : (d.emit o).nvm = d.nvm := rfl
@[simp] theorem Dev.emit_wrp (d : Dev) (o : Output) : (d.emit o).wrp = d.wrp := rfl
@[simp] theorem Dev.emit_rdp (d : Dev) (o : Output) : (d.emit o).rdp = d.rdp := rfl
@[simp] theorem Dev.emit_icm (d : Dev) (o : Output) : (d.emit o).icm = d.icm := rfl
@[simp] theorem Dev.emit_mxt (d : Dev) (o : Output) : (d.emit o).mxt = d.mxt := rfl
@[simp] theorem Dev.emit_ldc (d : Dev) (o : Output) : (d.emit o).ldc = d.ldc := rfl
@[simp] theorem Dev.emit_mch (d : Dev) (o : Output) : (d.emit o).mch = d.mch := rfl
@[simp] theorem Dev.emit_crt (d : Dev) (o : Output) : (d.emit o).crt = d.crt := rfl
@[simp] theorem Dev.emit_jrn (d : Dev) (o : Output) : (d.emit o).jrn = d.jrn := rfl
@[simp] theorem Dev.emit_map (d : Dev) (o : Output) : (d.emit o).map = d.map := rfl
@[simp] theorem Dev.emit_par (d : Dev) (o : Output) : (d.emit o).par = d.par := rfl
@[simp] theorem Dev.emit_outr (d : Dev) (o : Output) : (d.emit o).outr = d.outr := rfl
@[simp] theorem Dev.emit_hrt (d : Dev) (o : Output) : (d.emit o).hrt = d.hrt := rfl
@[simp] theorem Dev.emit_tng (d : Dev) (o : Output) : (d.emit o).tng = d.tng := rfl
@[simp] theorem Dev.emit_cxe (d : Dev) (o : Output) : (d.emit o).cxe = d.cxe := rfl
@[simp] theorem Dev.emit_dge (d : Dev) (o : Output) : (d.emit o).dge = d.dge := rfl
@[simp] theorem Dev.emit_aee (d : Dev) (o : Output) : (d.emit o).aee = d.aee := rfl
@[simp] theorem Dev.emit_key (d : Dev) (o : Output) : (d.emit o).key = d.key := rfl
@[simp] theorem Dev.emit_drv (d : Dev) (o : Output) : (d.emit o).drv = d.drv := rfl
@[simp] theorem Dev.emit_icu (d : Dev) (o : Output) : (d.emit o).icu = d.icu := rfl
@[simp] theorem Dev.emit_cfl (d : Dev) (o : Output) : (d.emit o).cfl = d.cfl := rfl
@[simp] theorem Dev.emit_bot (d : Dev) (o : Output) : (d.emit o).bot = d.bot := rfl
@[simp] theorem Dev.emit_wdt (d : Dev) (o : Output) : (d.emit o).wdt = d.wdt := rfl
@[simp] theorem Dev.emit_mnf (d : Dev) (o : Output) : (d.emit o).mnf = d.mnf := rfl
@[simp] theorem Dev.emit_evl (d : Dev) (o : Output) : (d.emit o).evl = d.evl := rfl
@[simp] theorem Dev.emit_mgt (d : Dev) (o : Output) : (d.emit o).mgt = d.mgt := rfl
@[simp] theorem Dev.emit_spdm (d : Dev) (o : Output) : (d.emit o).spdm = d.spdm := rfl
@[simp] theorem Dev.emit_emb (d : Dev) (o : Output) : (d.emit o).emb = d.emb := rfl
@[simp] theorem Dev.emit_blw (d : Dev) (o : Output) : (d.emit o).blw = d.blw := rfl

@[simp] theorem Dev.modPort_clk (d : Dev) (n : Nat) (f : Port → Port) : (d.modPort n f).clk = d.clk := rfl
@[simp] theorem Dev.modPort_tol (d : Dev) (n : Nat) (f : Port → Port) : (d.modPort n f).tol = d.tol := rfl
@[simp] theorem Dev.modPort_fab (d : Dev) (n : Nat) (f : Port → Port) : (d.modPort n f).fab = d.fab := rfl
@[simp] theorem Dev.modPort_fnm (d : Dev) (n : Nat) (f : Port → Port) : (d.modPort n f).fnm = d.fnm := rfl
@[simp] theorem Dev.modPort_qen (d : Dev) (n : Nat) (f : Port → Port) : (d.modPort n f).qen = d.qen := rfl
@[simp] theorem Dev.modPort_nvm (d : Dev) (n : Nat) (f : Port → Port) : (d.modPort n f).nvm = d.nvm := rfl
@[simp] theorem Dev.modPort_wrp (d : Dev) (n : Nat) (f : Port → Port) : (d.modPort n f).wrp = d.wrp := rfl
@[simp] theorem Dev.modPort_rdp (d : Dev) (n : Nat) (f : Port → Port) : (d.modPort n f).rdp = d.rdp := rfl
@[simp] theorem Dev.modPort_icm (d : Dev) (n : Nat) (f : Port → Port) : (d.modPort n f).icm = d.icm := rfl
@[simp] theorem Dev.modPort_mxt (d : Dev) (n : Nat) (f : Port → Port) : (d.modPort n f).mxt = d.mxt := rfl
@[simp] theorem Dev.modPort_ldc (d : Dev) (n : Nat) (f : Port → Port) : (d.modPort n f).ldc = d.ldc := rfl
@[simp] theorem Dev.modPort_mch (d : Dev) (n : Nat) (f : Port → Port) : (d.modPort n f).mch = d.mch := rfl
@[simp] theorem Dev.modPort_crt (d : Dev) (n : Nat) (f : Port → Port) : (d.modPort n f).crt = d.crt := rfl
@[simp] theorem Dev.modPort_jrn (d : Dev) (n : Nat) (f : Port → Port) : (d.modPort n f).jrn = d.jrn := rfl
@[simp] theorem Dev.modPort_map (d : Dev) (n : Nat) (f : Port → Port) : (d.modPort n f).map = d.map := rfl
@[simp] theorem Dev.modPort_par (d : Dev) (n : Nat) (f : Port → Port) : (d.modPort n f).par = d.par := rfl
@[simp] theorem Dev.modPort_outr (d : Dev) (n : Nat) (f : Port → Port) : (d.modPort n f).outr = d.outr := rfl
@[simp] theorem Dev.modPort_hrt (d : Dev) (n : Nat) (f : Port → Port) : (d.modPort n f).hrt = d.hrt := rfl
@[simp] theorem Dev.modPort_tng (d : Dev) (n : Nat) (f : Port → Port) : (d.modPort n f).tng = d.tng := rfl
@[simp] theorem Dev.modPort_cxe (d : Dev) (n : Nat) (f : Port → Port) : (d.modPort n f).cxe = d.cxe := rfl
@[simp] theorem Dev.modPort_dge (d : Dev) (n : Nat) (f : Port → Port) : (d.modPort n f).dge = d.dge := rfl
@[simp] theorem Dev.modPort_aee (d : Dev) (n : Nat) (f : Port → Port) : (d.modPort n f).aee = d.aee := rfl
@[simp] theorem Dev.modPort_key (d : Dev) (n : Nat) (f : Port → Port) : (d.modPort n f).key = d.key := rfl
@[simp] theorem Dev.modPort_drv (d : Dev) (n : Nat) (f : Port → Port) : (d.modPort n f).drv = d.drv := rfl
@[simp] theorem Dev.modPort_icu (d : Dev) (n : Nat) (f : Port → Port) : (d.modPort n f).icu = d.icu := rfl
@[simp] theorem Dev.modPort_cfl (d : Dev) (n : Nat) (f : Port → Port) : (d.modPort n f).cfl = d.cfl := rfl
@[simp] theorem Dev.modPort_bot (d : Dev) (n : Nat) (f : Port → Port) : (d.modPort n f).bot = d.bot := rfl
@[simp] theorem Dev.modPort_wdt (d : Dev) (n : Nat) (f : Port → Port) : (d.modPort n f).wdt = d.wdt := rfl
@[simp] theorem Dev.modPort_mnf (d : Dev) (n : Nat) (f : Port → Port) : (d.modPort n f).mnf = d.mnf := rfl
@[simp] theorem Dev.modPort_evl (d : Dev) (n : Nat) (f : Port → Port) : (d.modPort n f).evl = d.evl := rfl
@[simp] theorem Dev.modPort_mgt (d : Dev) (n : Nat) (f : Port → Port) : (d.modPort n f).mgt = d.mgt := rfl
@[simp] theorem Dev.modPort_spdm (d : Dev) (n : Nat) (f : Port → Port) : (d.modPort n f).spdm = d.spdm := rfl
@[simp] theorem Dev.modPort_emb (d : Dev) (n : Nat) (f : Port → Port) : (d.modPort n f).emb = d.emb := rfl
@[simp] theorem Dev.modPort_blw (d : Dev) (n : Nat) (f : Port → Port) : (d.modPort n f).blw = d.blw := rfl
@[simp] theorem Dev.modPort_out (d : Dev) (n : Nat) (f : Port → Port) : (d.modPort n f).out = d.out := rfl

@[simp] theorem Dev.modFn_clk (d : Dev) (fix : Nat) (f : Fn → Fn) : (d.modFn fix f).clk = d.clk := rfl
@[simp] theorem Dev.modFn_tol (d : Dev) (fix : Nat) (f : Fn → Fn) : (d.modFn fix f).tol = d.tol := rfl
@[simp] theorem Dev.modFn_fab (d : Dev) (fix : Nat) (f : Fn → Fn) : (d.modFn fix f).fab = d.fab := rfl
@[simp] theorem Dev.modFn_hlk (d : Dev) (fix : Nat) (f : Fn → Fn) : (d.modFn fix f).hlk = d.hlk := rfl
@[simp] theorem Dev.modFn_qen (d : Dev) (fix : Nat) (f : Fn → Fn) : (d.modFn fix f).qen = d.qen := rfl
@[simp] theorem Dev.modFn_nvm (d : Dev) (fix : Nat) (f : Fn → Fn) : (d.modFn fix f).nvm = d.nvm := rfl
@[simp] theorem Dev.modFn_wrp (d : Dev) (fix : Nat) (f : Fn → Fn) : (d.modFn fix f).wrp = d.wrp := rfl
@[simp] theorem Dev.modFn_rdp (d : Dev) (fix : Nat) (f : Fn → Fn) : (d.modFn fix f).rdp = d.rdp := rfl
@[simp] theorem Dev.modFn_icm (d : Dev) (fix : Nat) (f : Fn → Fn) : (d.modFn fix f).icm = d.icm := rfl
@[simp] theorem Dev.modFn_mxt (d : Dev) (fix : Nat) (f : Fn → Fn) : (d.modFn fix f).mxt = d.mxt := rfl
@[simp] theorem Dev.modFn_ldc (d : Dev) (fix : Nat) (f : Fn → Fn) : (d.modFn fix f).ldc = d.ldc := rfl
@[simp] theorem Dev.modFn_mch (d : Dev) (fix : Nat) (f : Fn → Fn) : (d.modFn fix f).mch = d.mch := rfl
@[simp] theorem Dev.modFn_crt (d : Dev) (fix : Nat) (f : Fn → Fn) : (d.modFn fix f).crt = d.crt := rfl
@[simp] theorem Dev.modFn_jrn (d : Dev) (fix : Nat) (f : Fn → Fn) : (d.modFn fix f).jrn = d.jrn := rfl
@[simp] theorem Dev.modFn_map (d : Dev) (fix : Nat) (f : Fn → Fn) : (d.modFn fix f).map = d.map := rfl
@[simp] theorem Dev.modFn_par (d : Dev) (fix : Nat) (f : Fn → Fn) : (d.modFn fix f).par = d.par := rfl
@[simp] theorem Dev.modFn_outr (d : Dev) (fix : Nat) (f : Fn → Fn) : (d.modFn fix f).outr = d.outr := rfl
@[simp] theorem Dev.modFn_hrt (d : Dev) (fix : Nat) (f : Fn → Fn) : (d.modFn fix f).hrt = d.hrt := rfl
@[simp] theorem Dev.modFn_tng (d : Dev) (fix : Nat) (f : Fn → Fn) : (d.modFn fix f).tng = d.tng := rfl
@[simp] theorem Dev.modFn_cxe (d : Dev) (fix : Nat) (f : Fn → Fn) : (d.modFn fix f).cxe = d.cxe := rfl
@[simp] theorem Dev.modFn_dge (d : Dev) (fix : Nat) (f : Fn → Fn) : (d.modFn fix f).dge = d.dge := rfl
@[simp] theorem Dev.modFn_aee (d : Dev) (fix : Nat) (f : Fn → Fn) : (d.modFn fix f).aee = d.aee := rfl
@[simp] theorem Dev.modFn_key (d : Dev) (fix : Nat) (f : Fn → Fn) : (d.modFn fix f).key = d.key := rfl
@[simp] theorem Dev.modFn_drv (d : Dev) (fix : Nat) (f : Fn → Fn) : (d.modFn fix f).drv = d.drv := rfl
@[simp] theorem Dev.modFn_icu (d : Dev) (fix : Nat) (f : Fn → Fn) : (d.modFn fix f).icu = d.icu := rfl
@[simp] theorem Dev.modFn_cfl (d : Dev) (fix : Nat) (f : Fn → Fn) : (d.modFn fix f).cfl = d.cfl := rfl
@[simp] theorem Dev.modFn_bot (d : Dev) (fix : Nat) (f : Fn → Fn) : (d.modFn fix f).bot = d.bot := rfl
@[simp] theorem Dev.modFn_wdt (d : Dev) (fix : Nat) (f : Fn → Fn) : (d.modFn fix f).wdt = d.wdt := rfl
@[simp] theorem Dev.modFn_mnf (d : Dev) (fix : Nat) (f : Fn → Fn) : (d.modFn fix f).mnf = d.mnf := rfl
@[simp] theorem Dev.modFn_evl (d : Dev) (fix : Nat) (f : Fn → Fn) : (d.modFn fix f).evl = d.evl := rfl
@[simp] theorem Dev.modFn_mgt (d : Dev) (fix : Nat) (f : Fn → Fn) : (d.modFn fix f).mgt = d.mgt := rfl
@[simp] theorem Dev.modFn_spdm (d : Dev) (fix : Nat) (f : Fn → Fn) : (d.modFn fix f).spdm = d.spdm := rfl
@[simp] theorem Dev.modFn_emb (d : Dev) (fix : Nat) (f : Fn → Fn) : (d.modFn fix f).emb = d.emb := rfl
@[simp] theorem Dev.modFn_blw (d : Dev) (fix : Nat) (f : Fn → Fn) : (d.modFn fix f).blw = d.blw := rfl
@[simp] theorem Dev.modFn_out (d : Dev) (fix : Nat) (f : Fn → Fn) : (d.modFn fix f).out = d.out := rfl

@[simp] theorem Dev.modPool_clk (d : Dev) (p : Nat) (f : Pool → Pool) : (d.modPool p f).clk = d.clk := rfl
@[simp] theorem Dev.modPool_fab (d : Dev) (p : Nat) (f : Pool → Pool) : (d.modPool p f).fab = d.fab := rfl
@[simp] theorem Dev.modPool_hlk (d : Dev) (p : Nat) (f : Pool → Pool) : (d.modPool p f).hlk = d.hlk := rfl
@[simp] theorem Dev.modPool_fnm (d : Dev) (p : Nat) (f : Pool → Pool) : (d.modPool p f).fnm = d.fnm := rfl
@[simp] theorem Dev.modPool_qen (d : Dev) (p : Nat) (f : Pool → Pool) : (d.modPool p f).qen = d.qen := rfl
@[simp] theorem Dev.modPool_nvm (d : Dev) (p : Nat) (f : Pool → Pool) : (d.modPool p f).nvm = d.nvm := rfl
@[simp] theorem Dev.modPool_wrp (d : Dev) (p : Nat) (f : Pool → Pool) : (d.modPool p f).wrp = d.wrp := rfl
@[simp] theorem Dev.modPool_rdp (d : Dev) (p : Nat) (f : Pool → Pool) : (d.modPool p f).rdp = d.rdp := rfl
@[simp] theorem Dev.modPool_icm (d : Dev) (p : Nat) (f : Pool → Pool) : (d.modPool p f).icm = d.icm := rfl
@[simp] theorem Dev.modPool_mxt (d : Dev) (p : Nat) (f : Pool → Pool) : (d.modPool p f).mxt = d.mxt := rfl
@[simp] theorem Dev.modPool_ldc (d : Dev) (p : Nat) (f : Pool → Pool) : (d.modPool p f).ldc = d.ldc := rfl
@[simp] theorem Dev.modPool_mch (d : Dev) (p : Nat) (f : Pool → Pool) : (d.modPool p f).mch = d.mch := rfl
@[simp] theorem Dev.modPool_crt (d : Dev) (p : Nat) (f : Pool → Pool) : (d.modPool p f).crt = d.crt := rfl
@[simp] theorem Dev.modPool_jrn (d : Dev) (p : Nat) (f : Pool → Pool) : (d.modPool p f).jrn = d.jrn := rfl
@[simp] theorem Dev.modPool_map (d : Dev) (p : Nat) (f : Pool → Pool) : (d.modPool p f).map = d.map := rfl
@[simp] theorem Dev.modPool_par (d : Dev) (p : Nat) (f : Pool → Pool) : (d.modPool p f).par = d.par := rfl
@[simp] theorem Dev.modPool_outr (d : Dev) (p : Nat) (f : Pool → Pool) : (d.modPool p f).outr = d.outr := rfl
@[simp] theorem Dev.modPool_hrt (d : Dev) (p : Nat) (f : Pool → Pool) : (d.modPool p f).hrt = d.hrt := rfl
@[simp] theorem Dev.modPool_tng (d : Dev) (p : Nat) (f : Pool → Pool) : (d.modPool p f).tng = d.tng := rfl
@[simp] theorem Dev.modPool_cxe (d : Dev) (p : Nat) (f : Pool → Pool) : (d.modPool p f).cxe = d.cxe := rfl
@[simp] theorem Dev.modPool_dge (d : Dev) (p : Nat) (f : Pool → Pool) : (d.modPool p f).dge = d.dge := rfl
@[simp] theorem Dev.modPool_aee (d : Dev) (p : Nat) (f : Pool → Pool) : (d.modPool p f).aee = d.aee := rfl
@[simp] theorem Dev.modPool_key (d : Dev) (p : Nat) (f : Pool → Pool) : (d.modPool p f).key = d.key := rfl
@[simp] theorem Dev.modPool_drv (d : Dev) (p : Nat) (f : Pool → Pool) : (d.modPool p f).drv = d.drv := rfl
@[simp] theorem Dev.modPool_icu (d : Dev) (p : Nat) (f : Pool → Pool) : (d.modPool p f).icu = d.icu := rfl
@[simp] theorem Dev.modPool_cfl (d : Dev) (p : Nat) (f : Pool → Pool) : (d.modPool p f).cfl = d.cfl := rfl
@[simp] theorem Dev.modPool_bot (d : Dev) (p : Nat) (f : Pool → Pool) : (d.modPool p f).bot = d.bot := rfl
@[simp] theorem Dev.modPool_wdt (d : Dev) (p : Nat) (f : Pool → Pool) : (d.modPool p f).wdt = d.wdt := rfl
@[simp] theorem Dev.modPool_mnf (d : Dev) (p : Nat) (f : Pool → Pool) : (d.modPool p f).mnf = d.mnf := rfl
@[simp] theorem Dev.modPool_evl (d : Dev) (p : Nat) (f : Pool → Pool) : (d.modPool p f).evl = d.evl := rfl
@[simp] theorem Dev.modPool_mgt (d : Dev) (p : Nat) (f : Pool → Pool) : (d.modPool p f).mgt = d.mgt := rfl
@[simp] theorem Dev.modPool_spdm (d : Dev) (p : Nat) (f : Pool → Pool) : (d.modPool p f).spdm = d.spdm := rfl
@[simp] theorem Dev.modPool_emb (d : Dev) (p : Nat) (f : Pool → Pool) : (d.modPool p f).emb = d.emb := rfl
@[simp] theorem Dev.modPool_blw (d : Dev) (p : Nat) (f : Pool → Pool) : (d.modPool p f).blw = d.blw := rfl
@[simp] theorem Dev.modPool_out (d : Dev) (p : Nat) (f : Pool → Pool) : (d.modPool p f).out = d.out := rfl

@[simp] theorem Dev.logSev_clk (d : Dev) (code sev unit : Nat) (data : Bytes) : (d.logSev code sev unit data).clk = d.clk := rfl
@[simp] theorem Dev.logSev_tol (d : Dev) (code sev unit : Nat) (data : Bytes) : (d.logSev code sev unit data).tol = d.tol := rfl
@[simp] theorem Dev.logSev_fab (d : Dev) (code sev unit : Nat) (data : Bytes) : (d.logSev code sev unit data).fab = d.fab := rfl
@[simp] theorem Dev.logSev_hlk (d : Dev) (code sev unit : Nat) (data : Bytes) : (d.logSev code sev unit data).hlk = d.hlk := rfl
@[simp] theorem Dev.logSev_fnm (d : Dev) (code sev unit : Nat) (data : Bytes) : (d.logSev code sev unit data).fnm = d.fnm := rfl
@[simp] theorem Dev.logSev_qen (d : Dev) (code sev unit : Nat) (data : Bytes) : (d.logSev code sev unit data).qen = d.qen := rfl
@[simp] theorem Dev.logSev_nvm (d : Dev) (code sev unit : Nat) (data : Bytes) : (d.logSev code sev unit data).nvm = d.nvm := rfl
@[simp] theorem Dev.logSev_wrp (d : Dev) (code sev unit : Nat) (data : Bytes) : (d.logSev code sev unit data).wrp = d.wrp := rfl
@[simp] theorem Dev.logSev_rdp (d : Dev) (code sev unit : Nat) (data : Bytes) : (d.logSev code sev unit data).rdp = d.rdp := rfl
@[simp] theorem Dev.logSev_icm (d : Dev) (code sev unit : Nat) (data : Bytes) : (d.logSev code sev unit data).icm = d.icm := rfl
@[simp] theorem Dev.logSev_mxt (d : Dev) (code sev unit : Nat) (data : Bytes) : (d.logSev code sev unit data).mxt = d.mxt := rfl
@[simp] theorem Dev.logSev_ldc (d : Dev) (code sev unit : Nat) (data : Bytes) : (d.logSev code sev unit data).ldc = d.ldc := rfl
@[simp] theorem Dev.logSev_mch (d : Dev) (code sev unit : Nat) (data : Bytes) : (d.logSev code sev unit data).mch = d.mch := rfl
@[simp] theorem Dev.logSev_crt (d : Dev) (code sev unit : Nat) (data : Bytes) : (d.logSev code sev unit data).crt = d.crt := rfl
@[simp] theorem Dev.logSev_jrn (d : Dev) (code sev unit : Nat) (data : Bytes) : (d.logSev code sev unit data).jrn = d.jrn := rfl
@[simp] theorem Dev.logSev_map (d : Dev) (code sev unit : Nat) (data : Bytes) : (d.logSev code sev unit data).map = d.map := rfl
@[simp] theorem Dev.logSev_par (d : Dev) (code sev unit : Nat) (data : Bytes) : (d.logSev code sev unit data).par = d.par := rfl
@[simp] theorem Dev.logSev_outr (d : Dev) (code sev unit : Nat) (data : Bytes) : (d.logSev code sev unit data).outr = d.outr := rfl
@[simp] theorem Dev.logSev_hrt (d : Dev) (code sev unit : Nat) (data : Bytes) : (d.logSev code sev unit data).hrt = d.hrt := rfl
@[simp] theorem Dev.logSev_tng (d : Dev) (code sev unit : Nat) (data : Bytes) : (d.logSev code sev unit data).tng = d.tng := rfl
@[simp] theorem Dev.logSev_cxe (d : Dev) (code sev unit : Nat) (data : Bytes) : (d.logSev code sev unit data).cxe = d.cxe := rfl
@[simp] theorem Dev.logSev_dge (d : Dev) (code sev unit : Nat) (data : Bytes) : (d.logSev code sev unit data).dge = d.dge := rfl
@[simp] theorem Dev.logSev_aee (d : Dev) (code sev unit : Nat) (data : Bytes) : (d.logSev code sev unit data).aee = d.aee := rfl
@[simp] theorem Dev.logSev_key (d : Dev) (code sev unit : Nat) (data : Bytes) : (d.logSev code sev unit data).key = d.key := rfl
@[simp] theorem Dev.logSev_drv (d : Dev) (code sev unit : Nat) (data : Bytes) : (d.logSev code sev unit data).drv = d.drv := rfl
@[simp] theorem Dev.logSev_icu (d : Dev) (code sev unit : Nat) (data : Bytes) : (d.logSev code sev unit data).icu = d.icu := rfl
@[simp] theorem Dev.logSev_cfl (d : Dev) (code sev unit : Nat) (data : Bytes) : (d.logSev code sev unit data).cfl = d.cfl := rfl
@[simp] theorem Dev.logSev_bot (d : Dev) (code sev unit : Nat) (data : Bytes) : (d.logSev code sev unit data).bot = d.bot := rfl
@[simp] theorem Dev.logSev_wdt (d : Dev) (code sev unit : Nat) (data : Bytes) : (d.logSev code sev unit data).wdt = d.wdt := rfl
@[simp] theorem Dev.logSev_mnf (d : Dev) (code sev unit : Nat) (data : Bytes) : (d.logSev code sev unit data).mnf = d.mnf := rfl
@[simp] theorem Dev.logSev_mgt (d : Dev) (code sev unit : Nat) (data : Bytes) : (d.logSev code sev unit data).mgt = d.mgt := rfl
@[simp] theorem Dev.logSev_spdm (d : Dev) (code sev unit : Nat) (data : Bytes) : (d.logSev code sev unit data).spdm = d.spdm := rfl
@[simp] theorem Dev.logSev_emb (d : Dev) (code sev unit : Nat) (data : Bytes) : (d.logSev code sev unit data).emb = d.emb := rfl
@[simp] theorem Dev.logSev_blw (d : Dev) (code sev unit : Nat) (data : Bytes) : (d.logSev code sev unit data).blw = d.blw := rfl
@[simp] theorem Dev.logSev_out (d : Dev) (code sev unit : Nat) (data : Bytes) : (d.logSev code sev unit data).out = d.out := rfl

@[simp] theorem Dev.modUnit_clk (d : Dev) (id : Nat) (f : MUnit → MUnit) : (d.modUnit id f).clk = d.clk := rfl
@[simp] theorem Dev.modUnit_tol (d : Dev) (id : Nat) (f : MUnit → MUnit) : (d.modUnit id f).tol = d.tol := rfl
@[simp] theorem Dev.modUnit_fab (d : Dev) (id : Nat) (f : MUnit → MUnit) : (d.modUnit id f).fab = d.fab := rfl
@[simp] theorem Dev.modUnit_hlk (d : Dev) (id : Nat) (f : MUnit → MUnit) : (d.modUnit id f).hlk = d.hlk := rfl
@[simp] theorem Dev.modUnit_fnm (d : Dev) (id : Nat) (f : MUnit → MUnit) : (d.modUnit id f).fnm = d.fnm := rfl
@[simp] theorem Dev.modUnit_qen (d : Dev) (id : Nat) (f : MUnit → MUnit) : (d.modUnit id f).qen = d.qen := rfl
@[simp] theorem Dev.modUnit_nvm (d : Dev) (id : Nat) (f : MUnit → MUnit) : (d.modUnit id f).nvm = d.nvm := rfl
@[simp] theorem Dev.modUnit_wrp (d : Dev) (id : Nat) (f : MUnit → MUnit) : (d.modUnit id f).wrp = d.wrp := rfl
@[simp] theorem Dev.modUnit_rdp (d : Dev) (id : Nat) (f : MUnit → MUnit) : (d.modUnit id f).rdp = d.rdp := rfl
@[simp] theorem Dev.modUnit_icm (d : Dev) (id : Nat) (f : MUnit → MUnit) : (d.modUnit id f).icm = d.icm := rfl
@[simp] theorem Dev.modUnit_mxt (d : Dev) (id : Nat) (f : MUnit → MUnit) : (d.modUnit id f).mxt = d.mxt := rfl
@[simp] theorem Dev.modUnit_ldc (d : Dev) (id : Nat) (f : MUnit → MUnit) : (d.modUnit id f).ldc = d.ldc := rfl
@[simp] theorem Dev.modUnit_mch (d : Dev) (id : Nat) (f : MUnit → MUnit) : (d.modUnit id f).mch = d.mch := rfl
@[simp] theorem Dev.modUnit_crt (d : Dev) (id : Nat) (f : MUnit → MUnit) : (d.modUnit id f).crt = d.crt := rfl
@[simp] theorem Dev.modUnit_jrn (d : Dev) (id : Nat) (f : MUnit → MUnit) : (d.modUnit id f).jrn = d.jrn := rfl
@[simp] theorem Dev.modUnit_map (d : Dev) (id : Nat) (f : MUnit → MUnit) : (d.modUnit id f).map = d.map := rfl
@[simp] theorem Dev.modUnit_par (d : Dev) (id : Nat) (f : MUnit → MUnit) : (d.modUnit id f).par = d.par := rfl
@[simp] theorem Dev.modUnit_outr (d : Dev) (id : Nat) (f : MUnit → MUnit) : (d.modUnit id f).outr = d.outr := rfl
@[simp] theorem Dev.modUnit_hrt (d : Dev) (id : Nat) (f : MUnit → MUnit) : (d.modUnit id f).hrt = d.hrt := rfl
@[simp] theorem Dev.modUnit_tng (d : Dev) (id : Nat) (f : MUnit → MUnit) : (d.modUnit id f).tng = d.tng := rfl
@[simp] theorem Dev.modUnit_cxe (d : Dev) (id : Nat) (f : MUnit → MUnit) : (d.modUnit id f).cxe = d.cxe := rfl
@[simp] theorem Dev.modUnit_dge (d : Dev) (id : Nat) (f : MUnit → MUnit) : (d.modUnit id f).dge = d.dge := rfl
@[simp] theorem Dev.modUnit_aee (d : Dev) (id : Nat) (f : MUnit → MUnit) : (d.modUnit id f).aee = d.aee := rfl
@[simp] theorem Dev.modUnit_key (d : Dev) (id : Nat) (f : MUnit → MUnit) : (d.modUnit id f).key = d.key := rfl
@[simp] theorem Dev.modUnit_drv (d : Dev) (id : Nat) (f : MUnit → MUnit) : (d.modUnit id f).drv = d.drv := rfl
@[simp] theorem Dev.modUnit_icu (d : Dev) (id : Nat) (f : MUnit → MUnit) : (d.modUnit id f).icu = d.icu := rfl
@[simp] theorem Dev.modUnit_cfl (d : Dev) (id : Nat) (f : MUnit → MUnit) : (d.modUnit id f).cfl = d.cfl := rfl
@[simp] theorem Dev.modUnit_bot (d : Dev) (id : Nat) (f : MUnit → MUnit) : (d.modUnit id f).bot = d.bot := rfl
@[simp] theorem Dev.modUnit_wdt (d : Dev) (id : Nat) (f : MUnit → MUnit) : (d.modUnit id f).wdt = d.wdt := rfl
@[simp] theorem Dev.modUnit_evl (d : Dev) (id : Nat) (f : MUnit → MUnit) : (d.modUnit id f).evl = d.evl := rfl
@[simp] theorem Dev.modUnit_mgt (d : Dev) (id : Nat) (f : MUnit → MUnit) : (d.modUnit id f).mgt = d.mgt := rfl
@[simp] theorem Dev.modUnit_spdm (d : Dev) (id : Nat) (f : MUnit → MUnit) : (d.modUnit id f).spdm = d.spdm := rfl
@[simp] theorem Dev.modUnit_emb (d : Dev) (id : Nat) (f : MUnit → MUnit) : (d.modUnit id f).emb = d.emb := rfl
@[simp] theorem Dev.modUnit_blw (d : Dev) (id : Nat) (f : MUnit → MUnit) : (d.modUnit id f).blw = d.blw := rfl
@[simp] theorem Dev.modUnit_out (d : Dev) (id : Nat) (f : MUnit → MUnit) : (d.modUnit id f).out = d.out := rfl

@[simp] theorem Dev.captureTelemetry_clk (d : Dev) : (d.captureTelemetry).clk = d.clk := rfl
@[simp] theorem Dev.captureTelemetry_tol (d : Dev) : (d.captureTelemetry).tol = d.tol := rfl
@[simp] theorem Dev.captureTelemetry_fab (d : Dev) : (d.captureTelemetry).fab = d.fab := rfl
@[simp] theorem Dev.captureTelemetry_hlk (d : Dev) : (d.captureTelemetry).hlk = d.hlk := rfl
@[simp] theorem Dev.captureTelemetry_fnm (d : Dev) : (d.captureTelemetry).fnm = d.fnm := rfl
@[simp] theorem Dev.captureTelemetry_qen (d : Dev) : (d.captureTelemetry).qen = d.qen := rfl
@[simp] theorem Dev.captureTelemetry_nvm (d : Dev) : (d.captureTelemetry).nvm = d.nvm := rfl
@[simp] theorem Dev.captureTelemetry_wrp (d : Dev) : (d.captureTelemetry).wrp = d.wrp := rfl
@[simp] theorem Dev.captureTelemetry_rdp (d : Dev) : (d.captureTelemetry).rdp = d.rdp := rfl
@[simp] theorem Dev.captureTelemetry_icm (d : Dev) : (d.captureTelemetry).icm = d.icm := rfl
@[simp] theorem Dev.captureTelemetry_mxt (d : Dev) : (d.captureTelemetry).mxt = d.mxt := rfl
@[simp] theorem Dev.captureTelemetry_ldc (d : Dev) : (d.captureTelemetry).ldc = d.ldc := rfl
@[simp] theorem Dev.captureTelemetry_mch (d : Dev) : (d.captureTelemetry).mch = d.mch := rfl
@[simp] theorem Dev.captureTelemetry_crt (d : Dev) : (d.captureTelemetry).crt = d.crt := rfl
@[simp] theorem Dev.captureTelemetry_jrn (d : Dev) : (d.captureTelemetry).jrn = d.jrn := rfl
@[simp] theorem Dev.captureTelemetry_map (d : Dev) : (d.captureTelemetry).map = d.map := rfl
@[simp] theorem Dev.captureTelemetry_par (d : Dev) : (d.captureTelemetry).par = d.par := rfl
@[simp] theorem Dev.captureTelemetry_outr (d : Dev) : (d.captureTelemetry).outr = d.outr := rfl
@[simp] theorem Dev.captureTelemetry_hrt (d : Dev) : (d.captureTelemetry).hrt = d.hrt := rfl
@[simp] theorem Dev.captureTelemetry_tng (d : Dev) : (d.captureTelemetry).tng = d.tng := rfl
@[simp] theorem Dev.captureTelemetry_cxe (d : Dev) : (d.captureTelemetry).cxe = d.cxe := rfl
@[simp] theorem Dev.captureTelemetry_dge (d : Dev) : (d.captureTelemetry).dge = d.dge := rfl
@[simp] theorem Dev.captureTelemetry_aee (d : Dev) : (d.captureTelemetry).aee = d.aee := rfl
@[simp] theorem Dev.captureTelemetry_key (d : Dev) : (d.captureTelemetry).key = d.key := rfl
@[simp] theorem Dev.captureTelemetry_drv (d : Dev) : (d.captureTelemetry).drv = d.drv := rfl
@[simp] theorem Dev.captureTelemetry_icu (d : Dev) : (d.captureTelemetry).icu = d.icu := rfl
@[simp] theorem Dev.captureTelemetry_cfl (d : Dev) : (d.captureTelemetry).cfl = d.cfl := rfl
@[simp] theorem Dev.captureTelemetry_bot (d : Dev) : (d.captureTelemetry).bot = d.bot := rfl
@[simp] theorem Dev.captureTelemetry_wdt (d : Dev) : (d.captureTelemetry).wdt = d.wdt := rfl
@[simp] theorem Dev.captureTelemetry_mnf (d : Dev) : (d.captureTelemetry).mnf = d.mnf := rfl
@[simp] theorem Dev.captureTelemetry_evl (d : Dev) : (d.captureTelemetry).evl = d.evl := rfl
@[simp] theorem Dev.captureTelemetry_spdm (d : Dev) : (d.captureTelemetry).spdm = d.spdm := rfl
@[simp] theorem Dev.captureTelemetry_emb (d : Dev) : (d.captureTelemetry).emb = d.emb := rfl
@[simp] theorem Dev.captureTelemetry_blw (d : Dev) : (d.captureTelemetry).blw = d.blw := rfl
@[simp] theorem Dev.captureTelemetry_out (d : Dev) : (d.captureTelemetry).out = d.out := rfl

@[simp] theorem Dev.modCmd_clk (d : Dev) (r : CmdRef) (f : Cmd → Cmd) : (d.modCmd r f).clk = d.clk := rfl
@[simp] theorem Dev.modCmd_tol (d : Dev) (r : CmdRef) (f : Cmd → Cmd) : (d.modCmd r f).tol = d.tol := rfl
@[simp] theorem Dev.modCmd_fab (d : Dev) (r : CmdRef) (f : Cmd → Cmd) : (d.modCmd r f).fab = d.fab := rfl
@[simp] theorem Dev.modCmd_hlk (d : Dev) (r : CmdRef) (f : Cmd → Cmd) : (d.modCmd r f).hlk = d.hlk := rfl
@[simp] theorem Dev.modCmd_fnm (d : Dev) (r : CmdRef) (f : Cmd → Cmd) : (d.modCmd r f).fnm = d.fnm := rfl
@[simp] theorem Dev.modCmd_qen (d : Dev) (r : CmdRef) (f : Cmd → Cmd) : (d.modCmd r f).qen = d.qen := rfl
@[simp] theorem Dev.modCmd_wrp (d : Dev) (r : CmdRef) (f : Cmd → Cmd) : (d.modCmd r f).wrp = d.wrp := rfl
@[simp] theorem Dev.modCmd_rdp (d : Dev) (r : CmdRef) (f : Cmd → Cmd) : (d.modCmd r f).rdp = d.rdp := rfl
@[simp] theorem Dev.modCmd_icm (d : Dev) (r : CmdRef) (f : Cmd → Cmd) : (d.modCmd r f).icm = d.icm := rfl
@[simp] theorem Dev.modCmd_mxt (d : Dev) (r : CmdRef) (f : Cmd → Cmd) : (d.modCmd r f).mxt = d.mxt := rfl
@[simp] theorem Dev.modCmd_ldc (d : Dev) (r : CmdRef) (f : Cmd → Cmd) : (d.modCmd r f).ldc = d.ldc := rfl
@[simp] theorem Dev.modCmd_mch (d : Dev) (r : CmdRef) (f : Cmd → Cmd) : (d.modCmd r f).mch = d.mch := rfl
@[simp] theorem Dev.modCmd_crt (d : Dev) (r : CmdRef) (f : Cmd → Cmd) : (d.modCmd r f).crt = d.crt := rfl
@[simp] theorem Dev.modCmd_jrn (d : Dev) (r : CmdRef) (f : Cmd → Cmd) : (d.modCmd r f).jrn = d.jrn := rfl
@[simp] theorem Dev.modCmd_map (d : Dev) (r : CmdRef) (f : Cmd → Cmd) : (d.modCmd r f).map = d.map := rfl
@[simp] theorem Dev.modCmd_par (d : Dev) (r : CmdRef) (f : Cmd → Cmd) : (d.modCmd r f).par = d.par := rfl
@[simp] theorem Dev.modCmd_outr (d : Dev) (r : CmdRef) (f : Cmd → Cmd) : (d.modCmd r f).outr = d.outr := rfl
@[simp] theorem Dev.modCmd_hrt (d : Dev) (r : CmdRef) (f : Cmd → Cmd) : (d.modCmd r f).hrt = d.hrt := rfl
@[simp] theorem Dev.modCmd_tng (d : Dev) (r : CmdRef) (f : Cmd → Cmd) : (d.modCmd r f).tng = d.tng := rfl
@[simp] theorem Dev.modCmd_cxe (d : Dev) (r : CmdRef) (f : Cmd → Cmd) : (d.modCmd r f).cxe = d.cxe := rfl
@[simp] theorem Dev.modCmd_dge (d : Dev) (r : CmdRef) (f : Cmd → Cmd) : (d.modCmd r f).dge = d.dge := rfl
@[simp] theorem Dev.modCmd_aee (d : Dev) (r : CmdRef) (f : Cmd → Cmd) : (d.modCmd r f).aee = d.aee := rfl
@[simp] theorem Dev.modCmd_key (d : Dev) (r : CmdRef) (f : Cmd → Cmd) : (d.modCmd r f).key = d.key := rfl
@[simp] theorem Dev.modCmd_drv (d : Dev) (r : CmdRef) (f : Cmd → Cmd) : (d.modCmd r f).drv = d.drv := rfl
@[simp] theorem Dev.modCmd_icu (d : Dev) (r : CmdRef) (f : Cmd → Cmd) : (d.modCmd r f).icu = d.icu := rfl
@[simp] theorem Dev.modCmd_cfl (d : Dev) (r : CmdRef) (f : Cmd → Cmd) : (d.modCmd r f).cfl = d.cfl := rfl
@[simp] theorem Dev.modCmd_bot (d : Dev) (r : CmdRef) (f : Cmd → Cmd) : (d.modCmd r f).bot = d.bot := rfl
@[simp] theorem Dev.modCmd_wdt (d : Dev) (r : CmdRef) (f : Cmd → Cmd) : (d.modCmd r f).wdt = d.wdt := rfl
@[simp] theorem Dev.modCmd_mnf (d : Dev) (r : CmdRef) (f : Cmd → Cmd) : (d.modCmd r f).mnf = d.mnf := rfl
@[simp] theorem Dev.modCmd_evl (d : Dev) (r : CmdRef) (f : Cmd → Cmd) : (d.modCmd r f).evl = d.evl := rfl
@[simp] theorem Dev.modCmd_mgt (d : Dev) (r : CmdRef) (f : Cmd → Cmd) : (d.modCmd r f).mgt = d.mgt := rfl
@[simp] theorem Dev.modCmd_spdm (d : Dev) (r : CmdRef) (f : Cmd → Cmd) : (d.modCmd r f).spdm = d.spdm := rfl
@[simp] theorem Dev.modCmd_emb (d : Dev) (r : CmdRef) (f : Cmd → Cmd) : (d.modCmd r f).emb = d.emb := rfl
@[simp] theorem Dev.modCmd_blw (d : Dev) (r : CmdRef) (f : Cmd → Cmd) : (d.modCmd r f).blw = d.blw := rfl
@[simp] theorem Dev.modCmd_out (d : Dev) (r : CmdRef) (f : Cmd → Cmd) : (d.modCmd r f).out = d.out := rfl

@[simp] theorem Dev.dropCmd_clk (d : Dev) (r : CmdRef) : (d.dropCmd r).clk = d.clk := rfl
@[simp] theorem Dev.dropCmd_tol (d : Dev) (r : CmdRef) : (d.dropCmd r).tol = d.tol := rfl
@[simp] theorem Dev.dropCmd_fab (d : Dev) (r : CmdRef) : (d.dropCmd r).fab = d.fab := rfl
@[simp] theorem Dev.dropCmd_hlk (d : Dev) (r : CmdRef) : (d.dropCmd r).hlk = d.hlk := rfl
@[simp] theorem Dev.dropCmd_fnm (d : Dev) (r : CmdRef) : (d.dropCmd r).fnm = d.fnm := rfl
@[simp] theorem Dev.dropCmd_qen (d : Dev) (r : CmdRef) : (d.dropCmd r).qen = d.qen := rfl
@[simp] theorem Dev.dropCmd_wrp (d : Dev) (r : CmdRef) : (d.dropCmd r).wrp = d.wrp := rfl
@[simp] theorem Dev.dropCmd_rdp (d : Dev) (r : CmdRef) : (d.dropCmd r).rdp = d.rdp := rfl
@[simp] theorem Dev.dropCmd_icm (d : Dev) (r : CmdRef) : (d.dropCmd r).icm = d.icm := rfl
@[simp] theorem Dev.dropCmd_mxt (d : Dev) (r : CmdRef) : (d.dropCmd r).mxt = d.mxt := rfl
@[simp] theorem Dev.dropCmd_ldc (d : Dev) (r : CmdRef) : (d.dropCmd r).ldc = d.ldc := rfl
@[simp] theorem Dev.dropCmd_mch (d : Dev) (r : CmdRef) : (d.dropCmd r).mch = d.mch := rfl
@[simp] theorem Dev.dropCmd_crt (d : Dev) (r : CmdRef) : (d.dropCmd r).crt = d.crt := rfl
@[simp] theorem Dev.dropCmd_jrn (d : Dev) (r : CmdRef) : (d.dropCmd r).jrn = d.jrn := rfl
@[simp] theorem Dev.dropCmd_map (d : Dev) (r : CmdRef) : (d.dropCmd r).map = d.map := rfl
@[simp] theorem Dev.dropCmd_par (d : Dev) (r : CmdRef) : (d.dropCmd r).par = d.par := rfl
@[simp] theorem Dev.dropCmd_outr (d : Dev) (r : CmdRef) : (d.dropCmd r).outr = d.outr := rfl
@[simp] theorem Dev.dropCmd_hrt (d : Dev) (r : CmdRef) : (d.dropCmd r).hrt = d.hrt := rfl
@[simp] theorem Dev.dropCmd_tng (d : Dev) (r : CmdRef) : (d.dropCmd r).tng = d.tng := rfl
@[simp] theorem Dev.dropCmd_cxe (d : Dev) (r : CmdRef) : (d.dropCmd r).cxe = d.cxe := rfl
@[simp] theorem Dev.dropCmd_dge (d : Dev) (r : CmdRef) : (d.dropCmd r).dge = d.dge := rfl
@[simp] theorem Dev.dropCmd_aee (d : Dev) (r : CmdRef) : (d.dropCmd r).aee = d.aee := rfl
@[simp] theorem Dev.dropCmd_key (d : Dev) (r : CmdRef) : (d.dropCmd r).key = d.key := rfl
@[simp] theorem Dev.dropCmd_drv (d : Dev) (r : CmdRef) : (d.dropCmd r).drv = d.drv := rfl
@[simp] theorem Dev.dropCmd_icu (d : Dev) (r : CmdRef) : (d.dropCmd r).icu = d.icu := rfl
@[simp] theorem Dev.dropCmd_cfl (d : Dev) (r : CmdRef) : (d.dropCmd r).cfl = d.cfl := rfl
@[simp] theorem Dev.dropCmd_bot (d : Dev) (r : CmdRef) : (d.dropCmd r).bot = d.bot := rfl
@[simp] theorem Dev.dropCmd_wdt (d : Dev) (r : CmdRef) : (d.dropCmd r).wdt = d.wdt := rfl
@[simp] theorem Dev.dropCmd_mnf (d : Dev) (r : CmdRef) : (d.dropCmd r).mnf = d.mnf := rfl
@[simp] theorem Dev.dropCmd_evl (d : Dev) (r : CmdRef) : (d.dropCmd r).evl = d.evl := rfl
@[simp] theorem Dev.dropCmd_mgt (d : Dev) (r : CmdRef) : (d.dropCmd r).mgt = d.mgt := rfl
@[simp] theorem Dev.dropCmd_spdm (d : Dev) (r : CmdRef) : (d.dropCmd r).spdm = d.spdm := rfl
@[simp] theorem Dev.dropCmd_emb (d : Dev) (r : CmdRef) : (d.dropCmd r).emb = d.emb := rfl
@[simp] theorem Dev.dropCmd_blw (d : Dev) (r : CmdRef) : (d.dropCmd r).blw = d.blw := rfl
@[simp] theorem Dev.dropCmd_out (d : Dev) (r : CmdRef) : (d.dropCmd r).out = d.out := rfl

@[simp] theorem Dev.writeResume_clk (d : Dev) : (d.writeResume).clk = d.clk := rfl
@[simp] theorem Dev.writeResume_tol (d : Dev) : (d.writeResume).tol = d.tol := rfl
@[simp] theorem Dev.writeResume_fab (d : Dev) : (d.writeResume).fab = d.fab := rfl
@[simp] theorem Dev.writeResume_hlk (d : Dev) : (d.writeResume).hlk = d.hlk := rfl
@[simp] theorem Dev.writeResume_fnm (d : Dev) : (d.writeResume).fnm = d.fnm := rfl
@[simp] theorem Dev.writeResume_qen (d : Dev) : (d.writeResume).qen = d.qen := rfl
@[simp] theorem Dev.writeResume_nvm (d : Dev) : (d.writeResume).nvm = d.nvm := rfl
@[simp] theorem Dev.writeResume_wrp (d : Dev) : (d.writeResume).wrp = d.wrp := rfl
@[simp] theorem Dev.writeResume_rdp (d : Dev) : (d.writeResume).rdp = d.rdp := rfl
@[simp] theorem Dev.writeResume_icm (d : Dev) : (d.writeResume).icm = d.icm := rfl
@[simp] theorem Dev.writeResume_mxt (d : Dev) : (d.writeResume).mxt = d.mxt := rfl
@[simp] theorem Dev.writeResume_ldc (d : Dev) : (d.writeResume).ldc = d.ldc := rfl
@[simp] theorem Dev.writeResume_mch (d : Dev) : (d.writeResume).mch = d.mch := rfl
@[simp] theorem Dev.writeResume_crt (d : Dev) : (d.writeResume).crt = d.crt := rfl
@[simp] theorem Dev.writeResume_jrn (d : Dev) : (d.writeResume).jrn = d.jrn := rfl
@[simp] theorem Dev.writeResume_map (d : Dev) : (d.writeResume).map = d.map := rfl
@[simp] theorem Dev.writeResume_par (d : Dev) : (d.writeResume).par = d.par := rfl
@[simp] theorem Dev.writeResume_outr (d : Dev) : (d.writeResume).outr = d.outr := rfl
@[simp] theorem Dev.writeResume_hrt (d : Dev) : (d.writeResume).hrt = d.hrt := rfl
@[simp] theorem Dev.writeResume_tng (d : Dev) : (d.writeResume).tng = d.tng := rfl
@[simp] theorem Dev.writeResume_cxe (d : Dev) : (d.writeResume).cxe = d.cxe := rfl
@[simp] theorem Dev.writeResume_dge (d : Dev) : (d.writeResume).dge = d.dge := rfl
@[simp] theorem Dev.writeResume_aee (d : Dev) : (d.writeResume).aee = d.aee := rfl
@[simp] theorem Dev.writeResume_key (d : Dev) : (d.writeResume).key = d.key := rfl
@[simp] theorem Dev.writeResume_drv (d : Dev) : (d.writeResume).drv = d.drv := rfl
@[simp] theorem Dev.writeResume_icu (d : Dev) : (d.writeResume).icu = d.icu := rfl
@[simp] theorem Dev.writeResume_cfl (d : Dev) : (d.writeResume).cfl = d.cfl := rfl
@[simp] theorem Dev.writeResume_wdt (d : Dev) : (d.writeResume).wdt = d.wdt := rfl
@[simp] theorem Dev.writeResume_mnf (d : Dev) : (d.writeResume).mnf = d.mnf := rfl
@[simp] theorem Dev.writeResume_evl (d : Dev) : (d.writeResume).evl = d.evl := rfl
@[simp] theorem Dev.writeResume_mgt (d : Dev) : (d.writeResume).mgt = d.mgt := rfl
@[simp] theorem Dev.writeResume_spdm (d : Dev) : (d.writeResume).spdm = d.spdm := rfl
@[simp] theorem Dev.writeResume_emb (d : Dev) : (d.writeResume).emb = d.emb := rfl
@[simp] theorem Dev.writeResume_blw (d : Dev) : (d.writeResume).blw = d.blw := rfl
@[simp] theorem Dev.writeResume_out (d : Dev) : (d.writeResume).out = d.out := rfl

@[simp] theorem Dev.withEpochs_clk (d : Dev) (fns : FMap Fn) : (d.withEpochs fns).clk = d.clk := rfl
@[simp] theorem Dev.withEpochs_tol (d : Dev) (fns : FMap Fn) : (d.withEpochs fns).tol = d.tol := rfl
@[simp] theorem Dev.withEpochs_fab (d : Dev) (fns : FMap Fn) : (d.withEpochs fns).fab = d.fab := rfl
@[simp] theorem Dev.withEpochs_hlk (d : Dev) (fns : FMap Fn) : (d.withEpochs fns).hlk = d.hlk := rfl
@[simp] theorem Dev.withEpochs_qen (d : Dev) (fns : FMap Fn) : (d.withEpochs fns).qen = d.qen := rfl
@[simp] theorem Dev.withEpochs_nvm (d : Dev) (fns : FMap Fn) : (d.withEpochs fns).nvm = d.nvm := rfl
@[simp] theorem Dev.withEpochs_wrp (d : Dev) (fns : FMap Fn) : (d.withEpochs fns).wrp = d.wrp := rfl
@[simp] theorem Dev.withEpochs_rdp (d : Dev) (fns : FMap Fn) : (d.withEpochs fns).rdp = d.rdp := rfl
@[simp] theorem Dev.withEpochs_icm (d : Dev) (fns : FMap Fn) : (d.withEpochs fns).icm = d.icm := rfl
@[simp] theorem Dev.withEpochs_mxt (d : Dev) (fns : FMap Fn) : (d.withEpochs fns).mxt = d.mxt := rfl
@[simp] theorem Dev.withEpochs_ldc (d : Dev) (fns : FMap Fn) : (d.withEpochs fns).ldc = d.ldc := rfl
@[simp] theorem Dev.withEpochs_mch (d : Dev) (fns : FMap Fn) : (d.withEpochs fns).mch = d.mch := rfl
@[simp] theorem Dev.withEpochs_crt (d : Dev) (fns : FMap Fn) : (d.withEpochs fns).crt = d.crt := rfl
@[simp] theorem Dev.withEpochs_jrn (d : Dev) (fns : FMap Fn) : (d.withEpochs fns).jrn = d.jrn := rfl
@[simp] theorem Dev.withEpochs_map (d : Dev) (fns : FMap Fn) : (d.withEpochs fns).map = d.map := rfl
@[simp] theorem Dev.withEpochs_par (d : Dev) (fns : FMap Fn) : (d.withEpochs fns).par = d.par := rfl
@[simp] theorem Dev.withEpochs_outr (d : Dev) (fns : FMap Fn) : (d.withEpochs fns).outr = d.outr := rfl
@[simp] theorem Dev.withEpochs_hrt (d : Dev) (fns : FMap Fn) : (d.withEpochs fns).hrt = d.hrt := rfl
@[simp] theorem Dev.withEpochs_tng (d : Dev) (fns : FMap Fn) : (d.withEpochs fns).tng = d.tng := rfl
@[simp] theorem Dev.withEpochs_cxe (d : Dev) (fns : FMap Fn) : (d.withEpochs fns).cxe = d.cxe := rfl
@[simp] theorem Dev.withEpochs_dge (d : Dev) (fns : FMap Fn) : (d.withEpochs fns).dge = d.dge := rfl
@[simp] theorem Dev.withEpochs_aee (d : Dev) (fns : FMap Fn) : (d.withEpochs fns).aee = d.aee := rfl
@[simp] theorem Dev.withEpochs_key (d : Dev) (fns : FMap Fn) : (d.withEpochs fns).key = d.key := rfl
@[simp] theorem Dev.withEpochs_drv (d : Dev) (fns : FMap Fn) : (d.withEpochs fns).drv = d.drv := rfl
@[simp] theorem Dev.withEpochs_icu (d : Dev) (fns : FMap Fn) : (d.withEpochs fns).icu = d.icu := rfl
@[simp] theorem Dev.withEpochs_cfl (d : Dev) (fns : FMap Fn) : (d.withEpochs fns).cfl = d.cfl := rfl
@[simp] theorem Dev.withEpochs_bot (d : Dev) (fns : FMap Fn) : (d.withEpochs fns).bot = d.bot := rfl
@[simp] theorem Dev.withEpochs_wdt (d : Dev) (fns : FMap Fn) : (d.withEpochs fns).wdt = d.wdt := rfl
@[simp] theorem Dev.withEpochs_mnf (d : Dev) (fns : FMap Fn) : (d.withEpochs fns).mnf = d.mnf := rfl
@[simp] theorem Dev.withEpochs_evl (d : Dev) (fns : FMap Fn) : (d.withEpochs fns).evl = d.evl := rfl
@[simp] theorem Dev.withEpochs_mgt (d : Dev) (fns : FMap Fn) : (d.withEpochs fns).mgt = d.mgt := rfl
@[simp] theorem Dev.withEpochs_spdm (d : Dev) (fns : FMap Fn) : (d.withEpochs fns).spdm = d.spdm := rfl
@[simp] theorem Dev.withEpochs_emb (d : Dev) (fns : FMap Fn) : (d.withEpochs fns).emb = d.emb := rfl
@[simp] theorem Dev.withEpochs_blw (d : Dev) (fns : FMap Fn) : (d.withEpochs fns).blw = d.blw := rfl
@[simp] theorem Dev.withEpochs_out (d : Dev) (fns : FMap Fn) : (d.withEpochs fns).out = d.out := rfl

@[simp] theorem Dev.modLane_clk (d : Dev) (n : Nat) (f : MxtLane → MxtLane) : (d.modLane n f).clk = d.clk := rfl
@[simp] theorem Dev.modLane_tol (d : Dev) (n : Nat) (f : MxtLane → MxtLane) : (d.modLane n f).tol = d.tol := rfl
@[simp] theorem Dev.modLane_fab (d : Dev) (n : Nat) (f : MxtLane → MxtLane) : (d.modLane n f).fab = d.fab := rfl
@[simp] theorem Dev.modLane_hlk (d : Dev) (n : Nat) (f : MxtLane → MxtLane) : (d.modLane n f).hlk = d.hlk := rfl
@[simp] theorem Dev.modLane_fnm (d : Dev) (n : Nat) (f : MxtLane → MxtLane) : (d.modLane n f).fnm = d.fnm := rfl
@[simp] theorem Dev.modLane_qen (d : Dev) (n : Nat) (f : MxtLane → MxtLane) : (d.modLane n f).qen = d.qen := rfl
@[simp] theorem Dev.modLane_nvm (d : Dev) (n : Nat) (f : MxtLane → MxtLane) : (d.modLane n f).nvm = d.nvm := rfl
@[simp] theorem Dev.modLane_wrp (d : Dev) (n : Nat) (f : MxtLane → MxtLane) : (d.modLane n f).wrp = d.wrp := rfl
@[simp] theorem Dev.modLane_rdp (d : Dev) (n : Nat) (f : MxtLane → MxtLane) : (d.modLane n f).rdp = d.rdp := rfl
@[simp] theorem Dev.modLane_icm (d : Dev) (n : Nat) (f : MxtLane → MxtLane) : (d.modLane n f).icm = d.icm := rfl
@[simp] theorem Dev.modLane_ldc (d : Dev) (n : Nat) (f : MxtLane → MxtLane) : (d.modLane n f).ldc = d.ldc := rfl
@[simp] theorem Dev.modLane_mch (d : Dev) (n : Nat) (f : MxtLane → MxtLane) : (d.modLane n f).mch = d.mch := rfl
@[simp] theorem Dev.modLane_crt (d : Dev) (n : Nat) (f : MxtLane → MxtLane) : (d.modLane n f).crt = d.crt := rfl
@[simp] theorem Dev.modLane_jrn (d : Dev) (n : Nat) (f : MxtLane → MxtLane) : (d.modLane n f).jrn = d.jrn := rfl
@[simp] theorem Dev.modLane_map (d : Dev) (n : Nat) (f : MxtLane → MxtLane) : (d.modLane n f).map = d.map := rfl
@[simp] theorem Dev.modLane_par (d : Dev) (n : Nat) (f : MxtLane → MxtLane) : (d.modLane n f).par = d.par := rfl
@[simp] theorem Dev.modLane_outr (d : Dev) (n : Nat) (f : MxtLane → MxtLane) : (d.modLane n f).outr = d.outr := rfl
@[simp] theorem Dev.modLane_hrt (d : Dev) (n : Nat) (f : MxtLane → MxtLane) : (d.modLane n f).hrt = d.hrt := rfl
@[simp] theorem Dev.modLane_tng (d : Dev) (n : Nat) (f : MxtLane → MxtLane) : (d.modLane n f).tng = d.tng := rfl
@[simp] theorem Dev.modLane_cxe (d : Dev) (n : Nat) (f : MxtLane → MxtLane) : (d.modLane n f).cxe = d.cxe := rfl
@[simp] theorem Dev.modLane_dge (d : Dev) (n : Nat) (f : MxtLane → MxtLane) : (d.modLane n f).dge = d.dge := rfl
@[simp] theorem Dev.modLane_aee (d : Dev) (n : Nat) (f : MxtLane → MxtLane) : (d.modLane n f).aee = d.aee := rfl
@[simp] theorem Dev.modLane_key (d : Dev) (n : Nat) (f : MxtLane → MxtLane) : (d.modLane n f).key = d.key := rfl
@[simp] theorem Dev.modLane_drv (d : Dev) (n : Nat) (f : MxtLane → MxtLane) : (d.modLane n f).drv = d.drv := rfl
@[simp] theorem Dev.modLane_icu (d : Dev) (n : Nat) (f : MxtLane → MxtLane) : (d.modLane n f).icu = d.icu := rfl
@[simp] theorem Dev.modLane_cfl (d : Dev) (n : Nat) (f : MxtLane → MxtLane) : (d.modLane n f).cfl = d.cfl := rfl
@[simp] theorem Dev.modLane_bot (d : Dev) (n : Nat) (f : MxtLane → MxtLane) : (d.modLane n f).bot = d.bot := rfl
@[simp] theorem Dev.modLane_wdt (d : Dev) (n : Nat) (f : MxtLane → MxtLane) : (d.modLane n f).wdt = d.wdt := rfl
@[simp] theorem Dev.modLane_mnf (d : Dev) (n : Nat) (f : MxtLane → MxtLane) : (d.modLane n f).mnf = d.mnf := rfl
@[simp] theorem Dev.modLane_evl (d : Dev) (n : Nat) (f : MxtLane → MxtLane) : (d.modLane n f).evl = d.evl := rfl
@[simp] theorem Dev.modLane_mgt (d : Dev) (n : Nat) (f : MxtLane → MxtLane) : (d.modLane n f).mgt = d.mgt := rfl
@[simp] theorem Dev.modLane_spdm (d : Dev) (n : Nat) (f : MxtLane → MxtLane) : (d.modLane n f).spdm = d.spdm := rfl
@[simp] theorem Dev.modLane_emb (d : Dev) (n : Nat) (f : MxtLane → MxtLane) : (d.modLane n f).emb = d.emb := rfl
@[simp] theorem Dev.modLane_blw (d : Dev) (n : Nat) (f : MxtLane → MxtLane) : (d.modLane n f).blw = d.blw := rfl
@[simp] theorem Dev.modLane_out (d : Dev) (n : Nat) (f : MxtLane → MxtLane) : (d.modLane n f).out = d.out := rfl

@[simp] theorem Dev.sequenceDone_clk (d : Dev) (us : Nat) : (d.sequenceDone us).clk = d.clk := rfl
@[simp] theorem Dev.sequenceDone_tol (d : Dev) (us : Nat) : (d.sequenceDone us).tol = d.tol := rfl
@[simp] theorem Dev.sequenceDone_fab (d : Dev) (us : Nat) : (d.sequenceDone us).fab = d.fab := rfl
@[simp] theorem Dev.sequenceDone_hlk (d : Dev) (us : Nat) : (d.sequenceDone us).hlk = d.hlk := rfl
@[simp] theorem Dev.sequenceDone_fnm (d : Dev) (us : Nat) : (d.sequenceDone us).fnm = d.fnm := rfl
@[simp] theorem Dev.sequenceDone_qen (d : Dev) (us : Nat) : (d.sequenceDone us).qen = d.qen := rfl
@[simp] theorem Dev.sequenceDone_nvm (d : Dev) (us : Nat) : (d.sequenceDone us).nvm = d.nvm := rfl
@[simp] theorem Dev.sequenceDone_wrp (d : Dev) (us : Nat) : (d.sequenceDone us).wrp = d.wrp := rfl
@[simp] theorem Dev.sequenceDone_rdp (d : Dev) (us : Nat) : (d.sequenceDone us).rdp = d.rdp := rfl
@[simp] theorem Dev.sequenceDone_icm (d : Dev) (us : Nat) : (d.sequenceDone us).icm = d.icm := rfl
@[simp] theorem Dev.sequenceDone_mxt (d : Dev) (us : Nat) : (d.sequenceDone us).mxt = d.mxt := rfl
@[simp] theorem Dev.sequenceDone_ldc (d : Dev) (us : Nat) : (d.sequenceDone us).ldc = d.ldc := rfl
@[simp] theorem Dev.sequenceDone_mch (d : Dev) (us : Nat) : (d.sequenceDone us).mch = d.mch := rfl
@[simp] theorem Dev.sequenceDone_crt (d : Dev) (us : Nat) : (d.sequenceDone us).crt = d.crt := rfl
@[simp] theorem Dev.sequenceDone_jrn (d : Dev) (us : Nat) : (d.sequenceDone us).jrn = d.jrn := rfl
@[simp] theorem Dev.sequenceDone_map (d : Dev) (us : Nat) : (d.sequenceDone us).map = d.map := rfl
@[simp] theorem Dev.sequenceDone_par (d : Dev) (us : Nat) : (d.sequenceDone us).par = d.par := rfl
@[simp] theorem Dev.sequenceDone_outr (d : Dev) (us : Nat) : (d.sequenceDone us).outr = d.outr := rfl
@[simp] theorem Dev.sequenceDone_hrt (d : Dev) (us : Nat) : (d.sequenceDone us).hrt = d.hrt := rfl
@[simp] theorem Dev.sequenceDone_tng (d : Dev) (us : Nat) : (d.sequenceDone us).tng = d.tng := rfl
@[simp] theorem Dev.sequenceDone_cxe (d : Dev) (us : Nat) : (d.sequenceDone us).cxe = d.cxe := rfl
@[simp] theorem Dev.sequenceDone_dge (d : Dev) (us : Nat) : (d.sequenceDone us).dge = d.dge := rfl
@[simp] theorem Dev.sequenceDone_aee (d : Dev) (us : Nat) : (d.sequenceDone us).aee = d.aee := rfl
@[simp] theorem Dev.sequenceDone_key (d : Dev) (us : Nat) : (d.sequenceDone us).key = d.key := rfl
@[simp] theorem Dev.sequenceDone_drv (d : Dev) (us : Nat) : (d.sequenceDone us).drv = d.drv := rfl
@[simp] theorem Dev.sequenceDone_icu (d : Dev) (us : Nat) : (d.sequenceDone us).icu = d.icu := rfl
@[simp] theorem Dev.sequenceDone_cfl (d : Dev) (us : Nat) : (d.sequenceDone us).cfl = d.cfl := rfl
@[simp] theorem Dev.sequenceDone_bot (d : Dev) (us : Nat) : (d.sequenceDone us).bot = d.bot := rfl
@[simp] theorem Dev.sequenceDone_wdt (d : Dev) (us : Nat) : (d.sequenceDone us).wdt = d.wdt := rfl
@[simp] theorem Dev.sequenceDone_mnf (d : Dev) (us : Nat) : (d.sequenceDone us).mnf = d.mnf := rfl
@[simp] theorem Dev.sequenceDone_evl (d : Dev) (us : Nat) : (d.sequenceDone us).evl = d.evl := rfl
@[simp] theorem Dev.sequenceDone_mgt (d : Dev) (us : Nat) : (d.sequenceDone us).mgt = d.mgt := rfl
@[simp] theorem Dev.sequenceDone_spdm (d : Dev) (us : Nat) : (d.sequenceDone us).spdm = d.spdm := rfl
@[simp] theorem Dev.sequenceDone_emb (d : Dev) (us : Nat) : (d.sequenceDone us).emb = d.emb := rfl
@[simp] theorem Dev.sequenceDone_out (d : Dev) (us : Nat) : (d.sequenceDone us).out = d.out := rfl

@[simp] theorem Dev.commitHlk_clk (d : Dev) : (d.commitHlk).clk = d.clk := rfl
@[simp] theorem Dev.commitHlk_tol (d : Dev) : (d.commitHlk).tol = d.tol := rfl
@[simp] theorem Dev.commitHlk_fab (d : Dev) : (d.commitHlk).fab = d.fab := rfl
@[simp] theorem Dev.commitHlk_fnm (d : Dev) : (d.commitHlk).fnm = d.fnm := rfl
@[simp] theorem Dev.commitHlk_qen (d : Dev) : (d.commitHlk).qen = d.qen := rfl
@[simp] theorem Dev.commitHlk_nvm (d : Dev) : (d.commitHlk).nvm = d.nvm := rfl
@[simp] theorem Dev.commitHlk_wrp (d : Dev) : (d.commitHlk).wrp = d.wrp := rfl
@[simp] theorem Dev.commitHlk_rdp (d : Dev) : (d.commitHlk).rdp = d.rdp := rfl
@[simp] theorem Dev.commitHlk_icm (d : Dev) : (d.commitHlk).icm = d.icm := rfl
@[simp] theorem Dev.commitHlk_mxt (d : Dev) : (d.commitHlk).mxt = d.mxt := rfl
@[simp] theorem Dev.commitHlk_ldc (d : Dev) : (d.commitHlk).ldc = d.ldc := rfl
@[simp] theorem Dev.commitHlk_mch (d : Dev) : (d.commitHlk).mch = d.mch := rfl
@[simp] theorem Dev.commitHlk_crt (d : Dev) : (d.commitHlk).crt = d.crt := rfl
@[simp] theorem Dev.commitHlk_jrn (d : Dev) : (d.commitHlk).jrn = d.jrn := rfl
@[simp] theorem Dev.commitHlk_map (d : Dev) : (d.commitHlk).map = d.map := rfl
@[simp] theorem Dev.commitHlk_par (d : Dev) : (d.commitHlk).par = d.par := rfl
@[simp] theorem Dev.commitHlk_outr (d : Dev) : (d.commitHlk).outr = d.outr := rfl
@[simp] theorem Dev.commitHlk_hrt (d : Dev) : (d.commitHlk).hrt = d.hrt := rfl
@[simp] theorem Dev.commitHlk_tng (d : Dev) : (d.commitHlk).tng = d.tng := rfl
@[simp] theorem Dev.commitHlk_cxe (d : Dev) : (d.commitHlk).cxe = d.cxe := rfl
@[simp] theorem Dev.commitHlk_dge (d : Dev) : (d.commitHlk).dge = d.dge := rfl
@[simp] theorem Dev.commitHlk_aee (d : Dev) : (d.commitHlk).aee = d.aee := rfl
@[simp] theorem Dev.commitHlk_key (d : Dev) : (d.commitHlk).key = d.key := rfl
@[simp] theorem Dev.commitHlk_drv (d : Dev) : (d.commitHlk).drv = d.drv := rfl
@[simp] theorem Dev.commitHlk_icu (d : Dev) : (d.commitHlk).icu = d.icu := rfl
@[simp] theorem Dev.commitHlk_cfl (d : Dev) : (d.commitHlk).cfl = d.cfl := rfl
@[simp] theorem Dev.commitHlk_bot (d : Dev) : (d.commitHlk).bot = d.bot := rfl
@[simp] theorem Dev.commitHlk_wdt (d : Dev) : (d.commitHlk).wdt = d.wdt := rfl
@[simp] theorem Dev.commitHlk_mnf (d : Dev) : (d.commitHlk).mnf = d.mnf := rfl
@[simp] theorem Dev.commitHlk_evl (d : Dev) : (d.commitHlk).evl = d.evl := rfl
@[simp] theorem Dev.commitHlk_mgt (d : Dev) : (d.commitHlk).mgt = d.mgt := rfl
@[simp] theorem Dev.commitHlk_spdm (d : Dev) : (d.commitHlk).spdm = d.spdm := rfl
@[simp] theorem Dev.commitHlk_emb (d : Dev) : (d.commitHlk).emb = d.emb := rfl
@[simp] theorem Dev.commitHlk_blw (d : Dev) : (d.commitHlk).blw = d.blw := rfl
@[simp] theorem Dev.commitHlk_out (d : Dev) : (d.commitHlk).out = d.out := rfl

@[simp] theorem Dev.commitWrp_clk (d : Dev) : (d.commitWrp).clk = d.clk := rfl
@[simp] theorem Dev.commitWrp_tol (d : Dev) : (d.commitWrp).tol = d.tol := rfl
@[simp] theorem Dev.commitWrp_fab (d : Dev) : (d.commitWrp).fab = d.fab := rfl
@[simp] theorem Dev.commitWrp_hlk (d : Dev) : (d.commitWrp).hlk = d.hlk := rfl
@[simp] theorem Dev.commitWrp_fnm (d : Dev) : (d.commitWrp).fnm = d.fnm := rfl
@[simp] theorem Dev.commitWrp_qen (d : Dev) : (d.commitWrp).qen = d.qen := rfl
@[simp] theorem Dev.commitWrp_nvm (d : Dev) : (d.commitWrp).nvm = d.nvm := rfl
@[simp] theorem Dev.commitWrp_rdp (d : Dev) : (d.commitWrp).rdp = d.rdp := rfl
@[simp] theorem Dev.commitWrp_icm (d : Dev) : (d.commitWrp).icm = d.icm := rfl
@[simp] theorem Dev.commitWrp_mxt (d : Dev) : (d.commitWrp).mxt = d.mxt := rfl
@[simp] theorem Dev.commitWrp_ldc (d : Dev) : (d.commitWrp).ldc = d.ldc := rfl
@[simp] theorem Dev.commitWrp_mch (d : Dev) : (d.commitWrp).mch = d.mch := rfl
@[simp] theorem Dev.commitWrp_crt (d : Dev) : (d.commitWrp).crt = d.crt := rfl
@[simp] theorem Dev.commitWrp_jrn (d : Dev) : (d.commitWrp).jrn = d.jrn := rfl
@[simp] theorem Dev.commitWrp_map (d : Dev) : (d.commitWrp).map = d.map := rfl
@[simp] theorem Dev.commitWrp_par (d : Dev) : (d.commitWrp).par = d.par := rfl
@[simp] theorem Dev.commitWrp_outr (d : Dev) : (d.commitWrp).outr = d.outr := rfl
@[simp] theorem Dev.commitWrp_hrt (d : Dev) : (d.commitWrp).hrt = d.hrt := rfl
@[simp] theorem Dev.commitWrp_tng (d : Dev) : (d.commitWrp).tng = d.tng := rfl
@[simp] theorem Dev.commitWrp_cxe (d : Dev) : (d.commitWrp).cxe = d.cxe := rfl
@[simp] theorem Dev.commitWrp_dge (d : Dev) : (d.commitWrp).dge = d.dge := rfl
@[simp] theorem Dev.commitWrp_aee (d : Dev) : (d.commitWrp).aee = d.aee := rfl
@[simp] theorem Dev.commitWrp_key (d : Dev) : (d.commitWrp).key = d.key := rfl
@[simp] theorem Dev.commitWrp_drv (d : Dev) : (d.commitWrp).drv = d.drv := rfl
@[simp] theorem Dev.commitWrp_icu (d : Dev) : (d.commitWrp).icu = d.icu := rfl
@[simp] theorem Dev.commitWrp_cfl (d : Dev) : (d.commitWrp).cfl = d.cfl := rfl
@[simp] theorem Dev.commitWrp_bot (d : Dev) : (d.commitWrp).bot = d.bot := rfl
@[simp] theorem Dev.commitWrp_wdt (d : Dev) : (d.commitWrp).wdt = d.wdt := rfl
@[simp] theorem Dev.commitWrp_mnf (d : Dev) : (d.commitWrp).mnf = d.mnf := rfl
@[simp] theorem Dev.commitWrp_evl (d : Dev) : (d.commitWrp).evl = d.evl := rfl
@[simp] theorem Dev.commitWrp_mgt (d : Dev) : (d.commitWrp).mgt = d.mgt := rfl
@[simp] theorem Dev.commitWrp_spdm (d : Dev) : (d.commitWrp).spdm = d.spdm := rfl
@[simp] theorem Dev.commitWrp_emb (d : Dev) : (d.commitWrp).emb = d.emb := rfl
@[simp] theorem Dev.commitWrp_blw (d : Dev) : (d.commitWrp).blw = d.blw := rfl
@[simp] theorem Dev.commitWrp_out (d : Dev) : (d.commitWrp).out = d.out := rfl

@[simp] theorem Dev.commitRdp_clk (d : Dev) : (d.commitRdp).clk = d.clk := rfl
@[simp] theorem Dev.commitRdp_tol (d : Dev) : (d.commitRdp).tol = d.tol := rfl
@[simp] theorem Dev.commitRdp_fab (d : Dev) : (d.commitRdp).fab = d.fab := rfl
@[simp] theorem Dev.commitRdp_hlk (d : Dev) : (d.commitRdp).hlk = d.hlk := rfl
@[simp] theorem Dev.commitRdp_fnm (d : Dev) : (d.commitRdp).fnm = d.fnm := rfl
@[simp] theorem Dev.commitRdp_qen (d : Dev) : (d.commitRdp).qen = d.qen := rfl
@[simp] theorem Dev.commitRdp_nvm (d : Dev) : (d.commitRdp).nvm = d.nvm := rfl
@[simp] theorem Dev.commitRdp_wrp (d : Dev) : (d.commitRdp).wrp = d.wrp := rfl
@[simp] theorem Dev.commitRdp_icm (d : Dev) : (d.commitRdp).icm = d.icm := rfl
@[simp] theorem Dev.commitRdp_mxt (d : Dev) : (d.commitRdp).mxt = d.mxt := rfl
@[simp] theorem Dev.commitRdp_ldc (d : Dev) : (d.commitRdp).ldc = d.ldc := rfl
@[simp] theorem Dev.commitRdp_mch (d : Dev) : (d.commitRdp).mch = d.mch := rfl
@[simp] theorem Dev.commitRdp_crt (d : Dev) : (d.commitRdp).crt = d.crt := rfl
@[simp] theorem Dev.commitRdp_jrn (d : Dev) : (d.commitRdp).jrn = d.jrn := rfl
@[simp] theorem Dev.commitRdp_map (d : Dev) : (d.commitRdp).map = d.map := rfl
@[simp] theorem Dev.commitRdp_par (d : Dev) : (d.commitRdp).par = d.par := rfl
@[simp] theorem Dev.commitRdp_outr (d : Dev) : (d.commitRdp).outr = d.outr := rfl
@[simp] theorem Dev.commitRdp_hrt (d : Dev) : (d.commitRdp).hrt = d.hrt := rfl
@[simp] theorem Dev.commitRdp_tng (d : Dev) : (d.commitRdp).tng = d.tng := rfl
@[simp] theorem Dev.commitRdp_cxe (d : Dev) : (d.commitRdp).cxe = d.cxe := rfl
@[simp] theorem Dev.commitRdp_dge (d : Dev) : (d.commitRdp).dge = d.dge := rfl
@[simp] theorem Dev.commitRdp_aee (d : Dev) : (d.commitRdp).aee = d.aee := rfl
@[simp] theorem Dev.commitRdp_key (d : Dev) : (d.commitRdp).key = d.key := rfl
@[simp] theorem Dev.commitRdp_drv (d : Dev) : (d.commitRdp).drv = d.drv := rfl
@[simp] theorem Dev.commitRdp_icu (d : Dev) : (d.commitRdp).icu = d.icu := rfl
@[simp] theorem Dev.commitRdp_cfl (d : Dev) : (d.commitRdp).cfl = d.cfl := rfl
@[simp] theorem Dev.commitRdp_bot (d : Dev) : (d.commitRdp).bot = d.bot := rfl
@[simp] theorem Dev.commitRdp_wdt (d : Dev) : (d.commitRdp).wdt = d.wdt := rfl
@[simp] theorem Dev.commitRdp_mnf (d : Dev) : (d.commitRdp).mnf = d.mnf := rfl
@[simp] theorem Dev.commitRdp_evl (d : Dev) : (d.commitRdp).evl = d.evl := rfl
@[simp] theorem Dev.commitRdp_mgt (d : Dev) : (d.commitRdp).mgt = d.mgt := rfl
@[simp] theorem Dev.commitRdp_spdm (d : Dev) : (d.commitRdp).spdm = d.spdm := rfl
@[simp] theorem Dev.commitRdp_emb (d : Dev) : (d.commitRdp).emb = d.emb := rfl
@[simp] theorem Dev.commitRdp_blw (d : Dev) : (d.commitRdp).blw = d.blw := rfl
@[simp] theorem Dev.commitRdp_out (d : Dev) : (d.commitRdp).out = d.out := rfl

@[simp] theorem Dev.commitIcm_clk (d : Dev) : (d.commitIcm).clk = d.clk := rfl
@[simp] theorem Dev.commitIcm_tol (d : Dev) : (d.commitIcm).tol = d.tol := rfl
@[simp] theorem Dev.commitIcm_fab (d : Dev) : (d.commitIcm).fab = d.fab := rfl
@[simp] theorem Dev.commitIcm_hlk (d : Dev) : (d.commitIcm).hlk = d.hlk := rfl
@[simp] theorem Dev.commitIcm_fnm (d : Dev) : (d.commitIcm).fnm = d.fnm := rfl
@[simp] theorem Dev.commitIcm_qen (d : Dev) : (d.commitIcm).qen = d.qen := rfl
@[simp] theorem Dev.commitIcm_nvm (d : Dev) : (d.commitIcm).nvm = d.nvm := rfl
@[simp] theorem Dev.commitIcm_wrp (d : Dev) : (d.commitIcm).wrp = d.wrp := rfl
@[simp] theorem Dev.commitIcm_rdp (d : Dev) : (d.commitIcm).rdp = d.rdp := rfl
@[simp] theorem Dev.commitIcm_mxt (d : Dev) : (d.commitIcm).mxt = d.mxt := rfl
@[simp] theorem Dev.commitIcm_ldc (d : Dev) : (d.commitIcm).ldc = d.ldc := rfl
@[simp] theorem Dev.commitIcm_mch (d : Dev) : (d.commitIcm).mch = d.mch := rfl
@[simp] theorem Dev.commitIcm_crt (d : Dev) : (d.commitIcm).crt = d.crt := rfl
@[simp] theorem Dev.commitIcm_jrn (d : Dev) : (d.commitIcm).jrn = d.jrn := rfl
@[simp] theorem Dev.commitIcm_map (d : Dev) : (d.commitIcm).map = d.map := rfl
@[simp] theorem Dev.commitIcm_par (d : Dev) : (d.commitIcm).par = d.par := rfl
@[simp] theorem Dev.commitIcm_outr (d : Dev) : (d.commitIcm).outr = d.outr := rfl
@[simp] theorem Dev.commitIcm_hrt (d : Dev) : (d.commitIcm).hrt = d.hrt := rfl
@[simp] theorem Dev.commitIcm_tng (d : Dev) : (d.commitIcm).tng = d.tng := rfl
@[simp] theorem Dev.commitIcm_cxe (d : Dev) : (d.commitIcm).cxe = d.cxe := rfl
@[simp] theorem Dev.commitIcm_dge (d : Dev) : (d.commitIcm).dge = d.dge := rfl
@[simp] theorem Dev.commitIcm_aee (d : Dev) : (d.commitIcm).aee = d.aee := rfl
@[simp] theorem Dev.commitIcm_key (d : Dev) : (d.commitIcm).key = d.key := rfl
@[simp] theorem Dev.commitIcm_drv (d : Dev) : (d.commitIcm).drv = d.drv := rfl
@[simp] theorem Dev.commitIcm_icu (d : Dev) : (d.commitIcm).icu = d.icu := rfl
@[simp] theorem Dev.commitIcm_cfl (d : Dev) : (d.commitIcm).cfl = d.cfl := rfl
@[simp] theorem Dev.commitIcm_bot (d : Dev) : (d.commitIcm).bot = d.bot := rfl
@[simp] theorem Dev.commitIcm_wdt (d : Dev) : (d.commitIcm).wdt = d.wdt := rfl
@[simp] theorem Dev.commitIcm_mnf (d : Dev) : (d.commitIcm).mnf = d.mnf := rfl
@[simp] theorem Dev.commitIcm_evl (d : Dev) : (d.commitIcm).evl = d.evl := rfl
@[simp] theorem Dev.commitIcm_mgt (d : Dev) : (d.commitIcm).mgt = d.mgt := rfl
@[simp] theorem Dev.commitIcm_spdm (d : Dev) : (d.commitIcm).spdm = d.spdm := rfl
@[simp] theorem Dev.commitIcm_emb (d : Dev) : (d.commitIcm).emb = d.emb := rfl
@[simp] theorem Dev.commitIcm_blw (d : Dev) : (d.commitIcm).blw = d.blw := rfl
@[simp] theorem Dev.commitIcm_out (d : Dev) : (d.commitIcm).out = d.out := rfl

@[simp] theorem Dev.commitCrt_clk (d : Dev) : (d.commitCrt).clk = d.clk := rfl
@[simp] theorem Dev.commitCrt_tol (d : Dev) : (d.commitCrt).tol = d.tol := rfl
@[simp] theorem Dev.commitCrt_fab (d : Dev) : (d.commitCrt).fab = d.fab := rfl
@[simp] theorem Dev.commitCrt_hlk (d : Dev) : (d.commitCrt).hlk = d.hlk := rfl
@[simp] theorem Dev.commitCrt_fnm (d : Dev) : (d.commitCrt).fnm = d.fnm := rfl
@[simp] theorem Dev.commitCrt_qen (d : Dev) : (d.commitCrt).qen = d.qen := rfl
@[simp] theorem Dev.commitCrt_nvm (d : Dev) : (d.commitCrt).nvm = d.nvm := rfl
@[simp] theorem Dev.commitCrt_wrp (d : Dev) : (d.commitCrt).wrp = d.wrp := rfl
@[simp] theorem Dev.commitCrt_rdp (d : Dev) : (d.commitCrt).rdp = d.rdp := rfl
@[simp] theorem Dev.commitCrt_icm (d : Dev) : (d.commitCrt).icm = d.icm := rfl
@[simp] theorem Dev.commitCrt_mxt (d : Dev) : (d.commitCrt).mxt = d.mxt := rfl
@[simp] theorem Dev.commitCrt_ldc (d : Dev) : (d.commitCrt).ldc = d.ldc := rfl
@[simp] theorem Dev.commitCrt_mch (d : Dev) : (d.commitCrt).mch = d.mch := rfl
@[simp] theorem Dev.commitCrt_jrn (d : Dev) : (d.commitCrt).jrn = d.jrn := rfl
@[simp] theorem Dev.commitCrt_map (d : Dev) : (d.commitCrt).map = d.map := rfl
@[simp] theorem Dev.commitCrt_par (d : Dev) : (d.commitCrt).par = d.par := rfl
@[simp] theorem Dev.commitCrt_outr (d : Dev) : (d.commitCrt).outr = d.outr := rfl
@[simp] theorem Dev.commitCrt_hrt (d : Dev) : (d.commitCrt).hrt = d.hrt := rfl
@[simp] theorem Dev.commitCrt_tng (d : Dev) : (d.commitCrt).tng = d.tng := rfl
@[simp] theorem Dev.commitCrt_cxe (d : Dev) : (d.commitCrt).cxe = d.cxe := rfl
@[simp] theorem Dev.commitCrt_dge (d : Dev) : (d.commitCrt).dge = d.dge := rfl
@[simp] theorem Dev.commitCrt_aee (d : Dev) : (d.commitCrt).aee = d.aee := rfl
@[simp] theorem Dev.commitCrt_key (d : Dev) : (d.commitCrt).key = d.key := rfl
@[simp] theorem Dev.commitCrt_drv (d : Dev) : (d.commitCrt).drv = d.drv := rfl
@[simp] theorem Dev.commitCrt_icu (d : Dev) : (d.commitCrt).icu = d.icu := rfl
@[simp] theorem Dev.commitCrt_cfl (d : Dev) : (d.commitCrt).cfl = d.cfl := rfl
@[simp] theorem Dev.commitCrt_bot (d : Dev) : (d.commitCrt).bot = d.bot := rfl
@[simp] theorem Dev.commitCrt_wdt (d : Dev) : (d.commitCrt).wdt = d.wdt := rfl
@[simp] theorem Dev.commitCrt_mnf (d : Dev) : (d.commitCrt).mnf = d.mnf := rfl
@[simp] theorem Dev.commitCrt_evl (d : Dev) : (d.commitCrt).evl = d.evl := rfl
@[simp] theorem Dev.commitCrt_mgt (d : Dev) : (d.commitCrt).mgt = d.mgt := rfl
@[simp] theorem Dev.commitCrt_spdm (d : Dev) : (d.commitCrt).spdm = d.spdm := rfl
@[simp] theorem Dev.commitCrt_emb (d : Dev) : (d.commitCrt).emb = d.emb := rfl
@[simp] theorem Dev.commitCrt_blw (d : Dev) : (d.commitCrt).blw = d.blw := rfl
@[simp] theorem Dev.commitCrt_out (d : Dev) : (d.commitCrt).out = d.out := rfl

@[simp] theorem Dev.commitJrn_clk (d : Dev) : (d.commitJrn).clk = d.clk := rfl
@[simp] theorem Dev.commitJrn_tol (d : Dev) : (d.commitJrn).tol = d.tol := rfl
@[simp] theorem Dev.commitJrn_fab (d : Dev) : (d.commitJrn).fab = d.fab := rfl
@[simp] theorem Dev.commitJrn_hlk (d : Dev) : (d.commitJrn).hlk = d.hlk := rfl
@[simp] theorem Dev.commitJrn_fnm (d : Dev) : (d.commitJrn).fnm = d.fnm := rfl
@[simp] theorem Dev.commitJrn_qen (d : Dev) : (d.commitJrn).qen = d.qen := rfl
@[simp] theorem Dev.commitJrn_nvm (d : Dev) : (d.commitJrn).nvm = d.nvm := rfl
@[simp] theorem Dev.commitJrn_wrp (d : Dev) : (d.commitJrn).wrp = d.wrp := rfl
@[simp] theorem Dev.commitJrn_rdp (d : Dev) : (d.commitJrn).rdp = d.rdp := rfl
@[simp] theorem Dev.commitJrn_icm (d : Dev) : (d.commitJrn).icm = d.icm := rfl
@[simp] theorem Dev.commitJrn_mxt (d : Dev) : (d.commitJrn).mxt = d.mxt := rfl
@[simp] theorem Dev.commitJrn_ldc (d : Dev) : (d.commitJrn).ldc = d.ldc := rfl
@[simp] theorem Dev.commitJrn_mch (d : Dev) : (d.commitJrn).mch = d.mch := rfl
@[simp] theorem Dev.commitJrn_crt (d : Dev) : (d.commitJrn).crt = d.crt := rfl
@[simp] theorem Dev.commitJrn_map (d : Dev) : (d.commitJrn).map = d.map := rfl
@[simp] theorem Dev.commitJrn_par (d : Dev) : (d.commitJrn).par = d.par := rfl
@[simp] theorem Dev.commitJrn_outr (d : Dev) : (d.commitJrn).outr = d.outr := rfl
@[simp] theorem Dev.commitJrn_hrt (d : Dev) : (d.commitJrn).hrt = d.hrt := rfl
@[simp] theorem Dev.commitJrn_tng (d : Dev) : (d.commitJrn).tng = d.tng := rfl
@[simp] theorem Dev.commitJrn_cxe (d : Dev) : (d.commitJrn).cxe = d.cxe := rfl
@[simp] theorem Dev.commitJrn_dge (d : Dev) : (d.commitJrn).dge = d.dge := rfl
@[simp] theorem Dev.commitJrn_aee (d : Dev) : (d.commitJrn).aee = d.aee := rfl
@[simp] theorem Dev.commitJrn_key (d : Dev) : (d.commitJrn).key = d.key := rfl
@[simp] theorem Dev.commitJrn_drv (d : Dev) : (d.commitJrn).drv = d.drv := rfl
@[simp] theorem Dev.commitJrn_icu (d : Dev) : (d.commitJrn).icu = d.icu := rfl
@[simp] theorem Dev.commitJrn_cfl (d : Dev) : (d.commitJrn).cfl = d.cfl := rfl
@[simp] theorem Dev.commitJrn_bot (d : Dev) : (d.commitJrn).bot = d.bot := rfl
@[simp] theorem Dev.commitJrn_wdt (d : Dev) : (d.commitJrn).wdt = d.wdt := rfl
@[simp] theorem Dev.commitJrn_mnf (d : Dev) : (d.commitJrn).mnf = d.mnf := rfl
@[simp] theorem Dev.commitJrn_evl (d : Dev) : (d.commitJrn).evl = d.evl := rfl
@[simp] theorem Dev.commitJrn_mgt (d : Dev) : (d.commitJrn).mgt = d.mgt := rfl
@[simp] theorem Dev.commitJrn_spdm (d : Dev) : (d.commitJrn).spdm = d.spdm := rfl
@[simp] theorem Dev.commitJrn_emb (d : Dev) : (d.commitJrn).emb = d.emb := rfl
@[simp] theorem Dev.commitJrn_blw (d : Dev) : (d.commitJrn).blw = d.blw := rfl
@[simp] theorem Dev.commitJrn_out (d : Dev) : (d.commitJrn).out = d.out := rfl

@[simp] theorem Dev.commitKey_clk (d : Dev) : (d.commitKey).clk = d.clk := rfl
@[simp] theorem Dev.commitKey_tol (d : Dev) : (d.commitKey).tol = d.tol := rfl
@[simp] theorem Dev.commitKey_fab (d : Dev) : (d.commitKey).fab = d.fab := rfl
@[simp] theorem Dev.commitKey_hlk (d : Dev) : (d.commitKey).hlk = d.hlk := rfl
@[simp] theorem Dev.commitKey_fnm (d : Dev) : (d.commitKey).fnm = d.fnm := rfl
@[simp] theorem Dev.commitKey_qen (d : Dev) : (d.commitKey).qen = d.qen := rfl
@[simp] theorem Dev.commitKey_nvm (d : Dev) : (d.commitKey).nvm = d.nvm := rfl
@[simp] theorem Dev.commitKey_wrp (d : Dev) : (d.commitKey).wrp = d.wrp := rfl
@[simp] theorem Dev.commitKey_rdp (d : Dev) : (d.commitKey).rdp = d.rdp := rfl
@[simp] theorem Dev.commitKey_icm (d : Dev) : (d.commitKey).icm = d.icm := rfl
@[simp] theorem Dev.commitKey_mxt (d : Dev) : (d.commitKey).mxt = d.mxt := rfl
@[simp] theorem Dev.commitKey_ldc (d : Dev) : (d.commitKey).ldc = d.ldc := rfl
@[simp] theorem Dev.commitKey_mch (d : Dev) : (d.commitKey).mch = d.mch := rfl
@[simp] theorem Dev.commitKey_crt (d : Dev) : (d.commitKey).crt = d.crt := rfl
@[simp] theorem Dev.commitKey_jrn (d : Dev) : (d.commitKey).jrn = d.jrn := rfl
@[simp] theorem Dev.commitKey_map (d : Dev) : (d.commitKey).map = d.map := rfl
@[simp] theorem Dev.commitKey_par (d : Dev) : (d.commitKey).par = d.par := rfl
@[simp] theorem Dev.commitKey_outr (d : Dev) : (d.commitKey).outr = d.outr := rfl
@[simp] theorem Dev.commitKey_hrt (d : Dev) : (d.commitKey).hrt = d.hrt := rfl
@[simp] theorem Dev.commitKey_tng (d : Dev) : (d.commitKey).tng = d.tng := rfl
@[simp] theorem Dev.commitKey_cxe (d : Dev) : (d.commitKey).cxe = d.cxe := rfl
@[simp] theorem Dev.commitKey_dge (d : Dev) : (d.commitKey).dge = d.dge := rfl
@[simp] theorem Dev.commitKey_aee (d : Dev) : (d.commitKey).aee = d.aee := rfl
@[simp] theorem Dev.commitKey_drv (d : Dev) : (d.commitKey).drv = d.drv := rfl
@[simp] theorem Dev.commitKey_icu (d : Dev) : (d.commitKey).icu = d.icu := rfl
@[simp] theorem Dev.commitKey_cfl (d : Dev) : (d.commitKey).cfl = d.cfl := rfl
@[simp] theorem Dev.commitKey_bot (d : Dev) : (d.commitKey).bot = d.bot := rfl
@[simp] theorem Dev.commitKey_wdt (d : Dev) : (d.commitKey).wdt = d.wdt := rfl
@[simp] theorem Dev.commitKey_mnf (d : Dev) : (d.commitKey).mnf = d.mnf := rfl
@[simp] theorem Dev.commitKey_evl (d : Dev) : (d.commitKey).evl = d.evl := rfl
@[simp] theorem Dev.commitKey_mgt (d : Dev) : (d.commitKey).mgt = d.mgt := rfl
@[simp] theorem Dev.commitKey_spdm (d : Dev) : (d.commitKey).spdm = d.spdm := rfl
@[simp] theorem Dev.commitKey_emb (d : Dev) : (d.commitKey).emb = d.emb := rfl
@[simp] theorem Dev.commitKey_blw (d : Dev) : (d.commitKey).blw = d.blw := rfl
@[simp] theorem Dev.commitKey_out (d : Dev) : (d.commitKey).out = d.out := rfl

@[simp] theorem Dev.commitWdt_clk (d : Dev) : (d.commitWdt).clk = d.clk := rfl
@[simp] theorem Dev.commitWdt_tol (d : Dev) : (d.commitWdt).tol = d.tol := rfl
@[simp] theorem Dev.commitWdt_fab (d : Dev) : (d.commitWdt).fab = d.fab := rfl
@[simp] theorem Dev.commitWdt_hlk (d : Dev) : (d.commitWdt).hlk = d.hlk := rfl
@[simp] theorem Dev.commitWdt_fnm (d : Dev) : (d.commitWdt).fnm = d.fnm := rfl
@[simp] theorem Dev.commitWdt_qen (d : Dev) : (d.commitWdt).qen = d.qen := rfl
@[simp] theorem Dev.commitWdt_nvm (d : Dev) : (d.commitWdt).nvm = d.nvm := rfl
@[simp] theorem Dev.commitWdt_wrp (d : Dev) : (d.commitWdt).wrp = d.wrp := rfl
@[simp] theorem Dev.commitWdt_rdp (d : Dev) : (d.commitWdt).rdp = d.rdp := rfl
@[simp] theorem Dev.commitWdt_icm (d : Dev) : (d.commitWdt).icm = d.icm := rfl
@[simp] theorem Dev.commitWdt_mxt (d : Dev) : (d.commitWdt).mxt = d.mxt := rfl
@[simp] theorem Dev.commitWdt_ldc (d : Dev) : (d.commitWdt).ldc = d.ldc := rfl
@[simp] theorem Dev.commitWdt_mch (d : Dev) : (d.commitWdt).mch = d.mch := rfl
@[simp] theorem Dev.commitWdt_crt (d : Dev) : (d.commitWdt).crt = d.crt := rfl
@[simp] theorem Dev.commitWdt_jrn (d : Dev) : (d.commitWdt).jrn = d.jrn := rfl
@[simp] theorem Dev.commitWdt_map (d : Dev) : (d.commitWdt).map = d.map := rfl
@[simp] theorem Dev.commitWdt_par (d : Dev) : (d.commitWdt).par = d.par := rfl
@[simp] theorem Dev.commitWdt_outr (d : Dev) : (d.commitWdt).outr = d.outr := rfl
@[simp] theorem Dev.commitWdt_hrt (d : Dev) : (d.commitWdt).hrt = d.hrt := rfl
@[simp] theorem Dev.commitWdt_tng (d : Dev) : (d.commitWdt).tng = d.tng := rfl
@[simp] theorem Dev.commitWdt_cxe (d : Dev) : (d.commitWdt).cxe = d.cxe := rfl
@[simp] theorem Dev.commitWdt_dge (d : Dev) : (d.commitWdt).dge = d.dge := rfl
@[simp] theorem Dev.commitWdt_aee (d : Dev) : (d.commitWdt).aee = d.aee := rfl
@[simp] theorem Dev.commitWdt_key (d : Dev) : (d.commitWdt).key = d.key := rfl
@[simp] theorem Dev.commitWdt_drv (d : Dev) : (d.commitWdt).drv = d.drv := rfl
@[simp] theorem Dev.commitWdt_icu (d : Dev) : (d.commitWdt).icu = d.icu := rfl
@[simp] theorem Dev.commitWdt_cfl (d : Dev) : (d.commitWdt).cfl = d.cfl := rfl
@[simp] theorem Dev.commitWdt_bot (d : Dev) : (d.commitWdt).bot = d.bot := rfl
@[simp] theorem Dev.commitWdt_mnf (d : Dev) : (d.commitWdt).mnf = d.mnf := rfl
@[simp] theorem Dev.commitWdt_evl (d : Dev) : (d.commitWdt).evl = d.evl := rfl
@[simp] theorem Dev.commitWdt_mgt (d : Dev) : (d.commitWdt).mgt = d.mgt := rfl
@[simp] theorem Dev.commitWdt_spdm (d : Dev) : (d.commitWdt).spdm = d.spdm := rfl
@[simp] theorem Dev.commitWdt_emb (d : Dev) : (d.commitWdt).emb = d.emb := rfl
@[simp] theorem Dev.commitWdt_blw (d : Dev) : (d.commitWdt).blw = d.blw := rfl
@[simp] theorem Dev.commitWdt_out (d : Dev) : (d.commitWdt).out = d.out := rfl

@[simp] theorem Dev.clearIcu_clk (d : Dev) : (d.clearIcu).clk = d.clk := rfl
@[simp] theorem Dev.clearIcu_tol (d : Dev) : (d.clearIcu).tol = d.tol := rfl
@[simp] theorem Dev.clearIcu_fab (d : Dev) : (d.clearIcu).fab = d.fab := rfl
@[simp] theorem Dev.clearIcu_hlk (d : Dev) : (d.clearIcu).hlk = d.hlk := rfl
@[simp] theorem Dev.clearIcu_fnm (d : Dev) : (d.clearIcu).fnm = d.fnm := rfl
@[simp] theorem Dev.clearIcu_qen (d : Dev) : (d.clearIcu).qen = d.qen := rfl
@[simp] theorem Dev.clearIcu_nvm (d : Dev) : (d.clearIcu).nvm = d.nvm := rfl
@[simp] theorem Dev.clearIcu_wrp (d : Dev) : (d.clearIcu).wrp = d.wrp := rfl
@[simp] theorem Dev.clearIcu_rdp (d : Dev) : (d.clearIcu).rdp = d.rdp := rfl
@[simp] theorem Dev.clearIcu_icm (d : Dev) : (d.clearIcu).icm = d.icm := rfl
@[simp] theorem Dev.clearIcu_mxt (d : Dev) : (d.clearIcu).mxt = d.mxt := rfl
@[simp] theorem Dev.clearIcu_ldc (d : Dev) : (d.clearIcu).ldc = d.ldc := rfl
@[simp] theorem Dev.clearIcu_mch (d : Dev) : (d.clearIcu).mch = d.mch := rfl
@[simp] theorem Dev.clearIcu_crt (d : Dev) : (d.clearIcu).crt = d.crt := rfl
@[simp] theorem Dev.clearIcu_jrn (d : Dev) : (d.clearIcu).jrn = d.jrn := rfl
@[simp] theorem Dev.clearIcu_map (d : Dev) : (d.clearIcu).map = d.map := rfl
@[simp] theorem Dev.clearIcu_par (d : Dev) : (d.clearIcu).par = d.par := rfl
@[simp] theorem Dev.clearIcu_outr (d : Dev) : (d.clearIcu).outr = d.outr := rfl
@[simp] theorem Dev.clearIcu_hrt (d : Dev) : (d.clearIcu).hrt = d.hrt := rfl
@[simp] theorem Dev.clearIcu_tng (d : Dev) : (d.clearIcu).tng = d.tng := rfl
@[simp] theorem Dev.clearIcu_cxe (d : Dev) : (d.clearIcu).cxe = d.cxe := rfl
@[simp] theorem Dev.clearIcu_dge (d : Dev) : (d.clearIcu).dge = d.dge := rfl
@[simp] theorem Dev.clearIcu_aee (d : Dev) : (d.clearIcu).aee = d.aee := rfl
@[simp] theorem Dev.clearIcu_key (d : Dev) : (d.clearIcu).key = d.key := rfl
@[simp] theorem Dev.clearIcu_drv (d : Dev) : (d.clearIcu).drv = d.drv := rfl
@[simp] theorem Dev.clearIcu_cfl (d : Dev) : (d.clearIcu).cfl = d.cfl := rfl
@[simp] theorem Dev.clearIcu_bot (d : Dev) : (d.clearIcu).bot = d.bot := rfl
@[simp] theorem Dev.clearIcu_wdt (d : Dev) : (d.clearIcu).wdt = d.wdt := rfl
@[simp] theorem Dev.clearIcu_mnf (d : Dev) : (d.clearIcu).mnf = d.mnf := rfl
@[simp] theorem Dev.clearIcu_evl (d : Dev) : (d.clearIcu).evl = d.evl := rfl
@[simp] theorem Dev.clearIcu_mgt (d : Dev) : (d.clearIcu).mgt = d.mgt := rfl
@[simp] theorem Dev.clearIcu_spdm (d : Dev) : (d.clearIcu).spdm = d.spdm := rfl
@[simp] theorem Dev.clearIcu_emb (d : Dev) : (d.clearIcu).emb = d.emb := rfl
@[simp] theorem Dev.clearIcu_blw (d : Dev) : (d.clearIcu).blw = d.blw := rfl
@[simp] theorem Dev.clearIcu_out (d : Dev) : (d.clearIcu).out = d.out := rfl

@[simp] theorem Dev.startWdt_clk (d : Dev) : (d.startWdt).clk = d.clk := rfl
@[simp] theorem Dev.startWdt_tol (d : Dev) : (d.startWdt).tol = d.tol := rfl
@[simp] theorem Dev.startWdt_fab (d : Dev) : (d.startWdt).fab = d.fab := rfl
@[simp] theorem Dev.startWdt_hlk (d : Dev) : (d.startWdt).hlk = d.hlk := rfl
@[simp] theorem Dev.startWdt_fnm (d : Dev) : (d.startWdt).fnm = d.fnm := rfl
@[simp] theorem Dev.startWdt_qen (d : Dev) : (d.startWdt).qen = d.qen := rfl
@[simp] theorem Dev.startWdt_nvm (d : Dev) : (d.startWdt).nvm = d.nvm := rfl
@[simp] theorem Dev.startWdt_wrp (d : Dev) : (d.startWdt).wrp = d.wrp := rfl
@[simp] theorem Dev.startWdt_rdp (d : Dev) : (d.startWdt).rdp = d.rdp := rfl
@[simp] theorem Dev.startWdt_icm (d : Dev) : (d.startWdt).icm = d.icm := rfl
@[simp] theorem Dev.startWdt_mxt (d : Dev) : (d.startWdt).mxt = d.mxt := rfl
@[simp] theorem Dev.startWdt_ldc (d : Dev) : (d.startWdt).ldc = d.ldc := rfl
@[simp] theorem Dev.startWdt_mch (d : Dev) : (d.startWdt).mch = d.mch := rfl
@[simp] theorem Dev.startWdt_crt (d : Dev) : (d.startWdt).crt = d.crt := rfl
@[simp] theorem Dev.startWdt_jrn (d : Dev) : (d.startWdt).jrn = d.jrn := rfl
@[simp] theorem Dev.startWdt_map (d : Dev) : (d.startWdt).map = d.map := rfl
@[simp] theorem Dev.startWdt_par (d : Dev) : (d.startWdt).par = d.par := rfl
@[simp] theorem Dev.startWdt_outr (d : Dev) : (d.startWdt).outr = d.outr := rfl
@[simp] theorem Dev.startWdt_hrt (d : Dev) : (d.startWdt).hrt = d.hrt := rfl
@[simp] theorem Dev.startWdt_tng (d : Dev) : (d.startWdt).tng = d.tng := rfl
@[simp] theorem Dev.startWdt_cxe (d : Dev) : (d.startWdt).cxe = d.cxe := rfl
@[simp] theorem Dev.startWdt_dge (d : Dev) : (d.startWdt).dge = d.dge := rfl
@[simp] theorem Dev.startWdt_aee (d : Dev) : (d.startWdt).aee = d.aee := rfl
@[simp] theorem Dev.startWdt_key (d : Dev) : (d.startWdt).key = d.key := rfl
@[simp] theorem Dev.startWdt_drv (d : Dev) : (d.startWdt).drv = d.drv := rfl
@[simp] theorem Dev.startWdt_icu (d : Dev) : (d.startWdt).icu = d.icu := rfl
@[simp] theorem Dev.startWdt_cfl (d : Dev) : (d.startWdt).cfl = d.cfl := rfl
@[simp] theorem Dev.startWdt_bot (d : Dev) : (d.startWdt).bot = d.bot := rfl
@[simp] theorem Dev.startWdt_mnf (d : Dev) : (d.startWdt).mnf = d.mnf := rfl
@[simp] theorem Dev.startWdt_evl (d : Dev) : (d.startWdt).evl = d.evl := rfl
@[simp] theorem Dev.startWdt_mgt (d : Dev) : (d.startWdt).mgt = d.mgt := rfl
@[simp] theorem Dev.startWdt_spdm (d : Dev) : (d.startWdt).spdm = d.spdm := rfl
@[simp] theorem Dev.startWdt_emb (d : Dev) : (d.startWdt).emb = d.emb := rfl
@[simp] theorem Dev.startWdt_blw (d : Dev) : (d.startWdt).blw = d.blw := rfl
@[simp] theorem Dev.startWdt_out (d : Dev) : (d.startWdt).out = d.out := rfl

@[simp] theorem Dev.syncManifest_clk (d : Dev) : (d.syncManifest).clk = d.clk := rfl
@[simp] theorem Dev.syncManifest_tol (d : Dev) : (d.syncManifest).tol = d.tol := rfl
@[simp] theorem Dev.syncManifest_fab (d : Dev) : (d.syncManifest).fab = d.fab := rfl
@[simp] theorem Dev.syncManifest_hlk (d : Dev) : (d.syncManifest).hlk = d.hlk := rfl
@[simp] theorem Dev.syncManifest_fnm (d : Dev) : (d.syncManifest).fnm = d.fnm := rfl
@[simp] theorem Dev.syncManifest_qen (d : Dev) : (d.syncManifest).qen = d.qen := rfl
@[simp] theorem Dev.syncManifest_nvm (d : Dev) : (d.syncManifest).nvm = d.nvm := rfl
@[simp] theorem Dev.syncManifest_wrp (d : Dev) : (d.syncManifest).wrp = d.wrp := rfl
@[simp] theorem Dev.syncManifest_rdp (d : Dev) : (d.syncManifest).rdp = d.rdp := rfl
@[simp] theorem Dev.syncManifest_icm (d : Dev) : (d.syncManifest).icm = d.icm := rfl
@[simp] theorem Dev.syncManifest_mxt (d : Dev) : (d.syncManifest).mxt = d.mxt := rfl
@[simp] theorem Dev.syncManifest_ldc (d : Dev) : (d.syncManifest).ldc = d.ldc := rfl
@[simp] theorem Dev.syncManifest_mch (d : Dev) : (d.syncManifest).mch = d.mch := rfl
@[simp] theorem Dev.syncManifest_crt (d : Dev) : (d.syncManifest).crt = d.crt := rfl
@[simp] theorem Dev.syncManifest_jrn (d : Dev) : (d.syncManifest).jrn = d.jrn := rfl
@[simp] theorem Dev.syncManifest_map (d : Dev) : (d.syncManifest).map = d.map := rfl
@[simp] theorem Dev.syncManifest_par (d : Dev) : (d.syncManifest).par = d.par := rfl
@[simp] theorem Dev.syncManifest_outr (d : Dev) : (d.syncManifest).outr = d.outr := rfl
@[simp] theorem Dev.syncManifest_hrt (d : Dev) : (d.syncManifest).hrt = d.hrt := rfl
@[simp] theorem Dev.syncManifest_tng (d : Dev) : (d.syncManifest).tng = d.tng := rfl
@[simp] theorem Dev.syncManifest_cxe (d : Dev) : (d.syncManifest).cxe = d.cxe := rfl
@[simp] theorem Dev.syncManifest_dge (d : Dev) : (d.syncManifest).dge = d.dge := rfl
@[simp] theorem Dev.syncManifest_aee (d : Dev) : (d.syncManifest).aee = d.aee := rfl
@[simp] theorem Dev.syncManifest_key (d : Dev) : (d.syncManifest).key = d.key := rfl
@[simp] theorem Dev.syncManifest_drv (d : Dev) : (d.syncManifest).drv = d.drv := rfl
@[simp] theorem Dev.syncManifest_icu (d : Dev) : (d.syncManifest).icu = d.icu := rfl
@[simp] theorem Dev.syncManifest_cfl (d : Dev) : (d.syncManifest).cfl = d.cfl := rfl
@[simp] theorem Dev.syncManifest_bot (d : Dev) : (d.syncManifest).bot = d.bot := rfl
@[simp] theorem Dev.syncManifest_wdt (d : Dev) : (d.syncManifest).wdt = d.wdt := rfl
@[simp] theorem Dev.syncManifest_evl (d : Dev) : (d.syncManifest).evl = d.evl := rfl
@[simp] theorem Dev.syncManifest_mgt (d : Dev) : (d.syncManifest).mgt = d.mgt := rfl
@[simp] theorem Dev.syncManifest_spdm (d : Dev) : (d.syncManifest).spdm = d.spdm := rfl
@[simp] theorem Dev.syncManifest_emb (d : Dev) : (d.syncManifest).emb = d.emb := rfl
@[simp] theorem Dev.syncManifest_blw (d : Dev) : (d.syncManifest).blw = d.blw := rfl
@[simp] theorem Dev.syncManifest_out (d : Dev) : (d.syncManifest).out = d.out := rfl

@[simp] theorem Dev.modTu_clk (d : Dev) (u : Nat) (f : TUnit → TUnit) : (d.modTu u f).clk = d.clk := rfl
@[simp] theorem Dev.modTu_tol (d : Dev) (u : Nat) (f : TUnit → TUnit) : (d.modTu u f).tol = d.tol := rfl
@[simp] theorem Dev.modTu_fab (d : Dev) (u : Nat) (f : TUnit → TUnit) : (d.modTu u f).fab = d.fab := rfl
@[simp] theorem Dev.modTu_hlk (d : Dev) (u : Nat) (f : TUnit → TUnit) : (d.modTu u f).hlk = d.hlk := rfl
@[simp] theorem Dev.modTu_fnm (d : Dev) (u : Nat) (f : TUnit → TUnit) : (d.modTu u f).fnm = d.fnm := rfl
@[simp] theorem Dev.modTu_qen (d : Dev) (u : Nat) (f : TUnit → TUnit) : (d.modTu u f).qen = d.qen := rfl
@[simp] theorem Dev.modTu_nvm (d : Dev) (u : Nat) (f : TUnit → TUnit) : (d.modTu u f).nvm = d.nvm := rfl
@[simp] theorem Dev.modTu_wrp (d : Dev) (u : Nat) (f : TUnit → TUnit) : (d.modTu u f).wrp = d.wrp := rfl
@[simp] theorem Dev.modTu_rdp (d : Dev) (u : Nat) (f : TUnit → TUnit) : (d.modTu u f).rdp = d.rdp := rfl
@[simp] theorem Dev.modTu_icm (d : Dev) (u : Nat) (f : TUnit → TUnit) : (d.modTu u f).icm = d.icm := rfl
@[simp] theorem Dev.modTu_mxt (d : Dev) (u : Nat) (f : TUnit → TUnit) : (d.modTu u f).mxt = d.mxt := rfl
@[simp] theorem Dev.modTu_ldc (d : Dev) (u : Nat) (f : TUnit → TUnit) : (d.modTu u f).ldc = d.ldc := rfl
@[simp] theorem Dev.modTu_mch (d : Dev) (u : Nat) (f : TUnit → TUnit) : (d.modTu u f).mch = d.mch := rfl
@[simp] theorem Dev.modTu_crt (d : Dev) (u : Nat) (f : TUnit → TUnit) : (d.modTu u f).crt = d.crt := rfl
@[simp] theorem Dev.modTu_jrn (d : Dev) (u : Nat) (f : TUnit → TUnit) : (d.modTu u f).jrn = d.jrn := rfl
@[simp] theorem Dev.modTu_map (d : Dev) (u : Nat) (f : TUnit → TUnit) : (d.modTu u f).map = d.map := rfl
@[simp] theorem Dev.modTu_par (d : Dev) (u : Nat) (f : TUnit → TUnit) : (d.modTu u f).par = d.par := rfl
@[simp] theorem Dev.modTu_outr (d : Dev) (u : Nat) (f : TUnit → TUnit) : (d.modTu u f).outr = d.outr := rfl
@[simp] theorem Dev.modTu_hrt (d : Dev) (u : Nat) (f : TUnit → TUnit) : (d.modTu u f).hrt = d.hrt := rfl
@[simp] theorem Dev.modTu_cxe (d : Dev) (u : Nat) (f : TUnit → TUnit) : (d.modTu u f).cxe = d.cxe := rfl
@[simp] theorem Dev.modTu_dge (d : Dev) (u : Nat) (f : TUnit → TUnit) : (d.modTu u f).dge = d.dge := rfl
@[simp] theorem Dev.modTu_aee (d : Dev) (u : Nat) (f : TUnit → TUnit) : (d.modTu u f).aee = d.aee := rfl
@[simp] theorem Dev.modTu_key (d : Dev) (u : Nat) (f : TUnit → TUnit) : (d.modTu u f).key = d.key := rfl
@[simp] theorem Dev.modTu_drv (d : Dev) (u : Nat) (f : TUnit → TUnit) : (d.modTu u f).drv = d.drv := rfl
@[simp] theorem Dev.modTu_icu (d : Dev) (u : Nat) (f : TUnit → TUnit) : (d.modTu u f).icu = d.icu := rfl
@[simp] theorem Dev.modTu_cfl (d : Dev) (u : Nat) (f : TUnit → TUnit) : (d.modTu u f).cfl = d.cfl := rfl
@[simp] theorem Dev.modTu_bot (d : Dev) (u : Nat) (f : TUnit → TUnit) : (d.modTu u f).bot = d.bot := rfl
@[simp] theorem Dev.modTu_wdt (d : Dev) (u : Nat) (f : TUnit → TUnit) : (d.modTu u f).wdt = d.wdt := rfl
@[simp] theorem Dev.modTu_mnf (d : Dev) (u : Nat) (f : TUnit → TUnit) : (d.modTu u f).mnf = d.mnf := rfl
@[simp] theorem Dev.modTu_evl (d : Dev) (u : Nat) (f : TUnit → TUnit) : (d.modTu u f).evl = d.evl := rfl
@[simp] theorem Dev.modTu_mgt (d : Dev) (u : Nat) (f : TUnit → TUnit) : (d.modTu u f).mgt = d.mgt := rfl
@[simp] theorem Dev.modTu_spdm (d : Dev) (u : Nat) (f : TUnit → TUnit) : (d.modTu u f).spdm = d.spdm := rfl
@[simp] theorem Dev.modTu_emb (d : Dev) (u : Nat) (f : TUnit → TUnit) : (d.modTu u f).emb = d.emb := rfl
@[simp] theorem Dev.modTu_blw (d : Dev) (u : Nat) (f : TUnit → TUnit) : (d.modTu u f).blw = d.blw := rfl
@[simp] theorem Dev.modTu_out (d : Dev) (u : Nat) (f : TUnit → TUnit) : (d.modTu u f).out = d.out := rfl

@[simp] theorem Dev.setGrans_clk (d : Dev) (l : List WGran) : (d.setGrans l).clk = d.clk := rfl
@[simp] theorem Dev.setGrans_tol (d : Dev) (l : List WGran) : (d.setGrans l).tol = d.tol := rfl
@[simp] theorem Dev.setGrans_fab (d : Dev) (l : List WGran) : (d.setGrans l).fab = d.fab := rfl
@[simp] theorem Dev.setGrans_hlk (d : Dev) (l : List WGran) : (d.setGrans l).hlk = d.hlk := rfl
@[simp] theorem Dev.setGrans_fnm (d : Dev) (l : List WGran) : (d.setGrans l).fnm = d.fnm := rfl
@[simp] theorem Dev.setGrans_qen (d : Dev) (l : List WGran) : (d.setGrans l).qen = d.qen := rfl
@[simp] theorem Dev.setGrans_nvm (d : Dev) (l : List WGran) : (d.setGrans l).nvm = d.nvm := rfl
@[simp] theorem Dev.setGrans_rdp (d : Dev) (l : List WGran) : (d.setGrans l).rdp = d.rdp := rfl
@[simp] theorem Dev.setGrans_icm (d : Dev) (l : List WGran) : (d.setGrans l).icm = d.icm := rfl
@[simp] theorem Dev.setGrans_mxt (d : Dev) (l : List WGran) : (d.setGrans l).mxt = d.mxt := rfl
@[simp] theorem Dev.setGrans_ldc (d : Dev) (l : List WGran) : (d.setGrans l).ldc = d.ldc := rfl
@[simp] theorem Dev.setGrans_mch (d : Dev) (l : List WGran) : (d.setGrans l).mch = d.mch := rfl
@[simp] theorem Dev.setGrans_crt (d : Dev) (l : List WGran) : (d.setGrans l).crt = d.crt := rfl
@[simp] theorem Dev.setGrans_jrn (d : Dev) (l : List WGran) : (d.setGrans l).jrn = d.jrn := rfl
@[simp] theorem Dev.setGrans_map (d : Dev) (l : List WGran) : (d.setGrans l).map = d.map := rfl
@[simp] theorem Dev.setGrans_par (d : Dev) (l : List WGran) : (d.setGrans l).par = d.par := rfl
@[simp] theorem Dev.setGrans_outr (d : Dev) (l : List WGran) : (d.setGrans l).outr = d.outr := rfl
@[simp] theorem Dev.setGrans_hrt (d : Dev) (l : List WGran) : (d.setGrans l).hrt = d.hrt := rfl
@[simp] theorem Dev.setGrans_tng (d : Dev) (l : List WGran) : (d.setGrans l).tng = d.tng := rfl
@[simp] theorem Dev.setGrans_cxe (d : Dev) (l : List WGran) : (d.setGrans l).cxe = d.cxe := rfl
@[simp] theorem Dev.setGrans_dge (d : Dev) (l : List WGran) : (d.setGrans l).dge = d.dge := rfl
@[simp] theorem Dev.setGrans_aee (d : Dev) (l : List WGran) : (d.setGrans l).aee = d.aee := rfl
@[simp] theorem Dev.setGrans_key (d : Dev) (l : List WGran) : (d.setGrans l).key = d.key := rfl
@[simp] theorem Dev.setGrans_drv (d : Dev) (l : List WGran) : (d.setGrans l).drv = d.drv := rfl
@[simp] theorem Dev.setGrans_icu (d : Dev) (l : List WGran) : (d.setGrans l).icu = d.icu := rfl
@[simp] theorem Dev.setGrans_cfl (d : Dev) (l : List WGran) : (d.setGrans l).cfl = d.cfl := rfl
@[simp] theorem Dev.setGrans_bot (d : Dev) (l : List WGran) : (d.setGrans l).bot = d.bot := rfl
@[simp] theorem Dev.setGrans_wdt (d : Dev) (l : List WGran) : (d.setGrans l).wdt = d.wdt := rfl
@[simp] theorem Dev.setGrans_mnf (d : Dev) (l : List WGran) : (d.setGrans l).mnf = d.mnf := rfl
@[simp] theorem Dev.setGrans_evl (d : Dev) (l : List WGran) : (d.setGrans l).evl = d.evl := rfl
@[simp] theorem Dev.setGrans_mgt (d : Dev) (l : List WGran) : (d.setGrans l).mgt = d.mgt := rfl
@[simp] theorem Dev.setGrans_spdm (d : Dev) (l : List WGran) : (d.setGrans l).spdm = d.spdm := rfl
@[simp] theorem Dev.setGrans_emb (d : Dev) (l : List WGran) : (d.setGrans l).emb = d.emb := rfl
@[simp] theorem Dev.setGrans_blw (d : Dev) (l : List WGran) : (d.setGrans l).blw = d.blw := rfl
@[simp] theorem Dev.setGrans_out (d : Dev) (l : List WGran) : (d.setGrans l).out = d.out := rfl

@[simp] theorem Dev.modStripe_clk (d : Dev) (col b u : Nat) (f : Stripe → Stripe) : (d.modStripe col b u f).clk = d.clk := rfl
@[simp] theorem Dev.modStripe_tol (d : Dev) (col b u : Nat) (f : Stripe → Stripe) : (d.modStripe col b u f).tol = d.tol := rfl
@[simp] theorem Dev.modStripe_fab (d : Dev) (col b u : Nat) (f : Stripe → Stripe) : (d.modStripe col b u f).fab = d.fab := rfl
@[simp] theorem Dev.modStripe_hlk (d : Dev) (col b u : Nat) (f : Stripe → Stripe) : (d.modStripe col b u f).hlk = d.hlk := rfl
@[simp] theorem Dev.modStripe_fnm (d : Dev) (col b u : Nat) (f : Stripe → Stripe) : (d.modStripe col b u f).fnm = d.fnm := rfl
@[simp] theorem Dev.modStripe_qen (d : Dev) (col b u : Nat) (f : Stripe → Stripe) : (d.modStripe col b u f).qen = d.qen := rfl
@[simp] theorem Dev.modStripe_nvm (d : Dev) (col b u : Nat) (f : Stripe → Stripe) : (d.modStripe col b u f).nvm = d.nvm := rfl
@[simp] theorem Dev.modStripe_wrp (d : Dev) (col b u : Nat) (f : Stripe → Stripe) : (d.modStripe col b u f).wrp = d.wrp := rfl
@[simp] theorem Dev.modStripe_rdp (d : Dev) (col b u : Nat) (f : Stripe → Stripe) : (d.modStripe col b u f).rdp = d.rdp := rfl
@[simp] theorem Dev.modStripe_icm (d : Dev) (col b u : Nat) (f : Stripe → Stripe) : (d.modStripe col b u f).icm = d.icm := rfl
@[simp] theorem Dev.modStripe_mxt (d : Dev) (col b u : Nat) (f : Stripe → Stripe) : (d.modStripe col b u f).mxt = d.mxt := rfl
@[simp] theorem Dev.modStripe_ldc (d : Dev) (col b u : Nat) (f : Stripe → Stripe) : (d.modStripe col b u f).ldc = d.ldc := rfl
@[simp] theorem Dev.modStripe_mch (d : Dev) (col b u : Nat) (f : Stripe → Stripe) : (d.modStripe col b u f).mch = d.mch := rfl
@[simp] theorem Dev.modStripe_crt (d : Dev) (col b u : Nat) (f : Stripe → Stripe) : (d.modStripe col b u f).crt = d.crt := rfl
@[simp] theorem Dev.modStripe_jrn (d : Dev) (col b u : Nat) (f : Stripe → Stripe) : (d.modStripe col b u f).jrn = d.jrn := rfl
@[simp] theorem Dev.modStripe_map (d : Dev) (col b u : Nat) (f : Stripe → Stripe) : (d.modStripe col b u f).map = d.map := rfl
@[simp] theorem Dev.modStripe_outr (d : Dev) (col b u : Nat) (f : Stripe → Stripe) : (d.modStripe col b u f).outr = d.outr := rfl
@[simp] theorem Dev.modStripe_hrt (d : Dev) (col b u : Nat) (f : Stripe → Stripe) : (d.modStripe col b u f).hrt = d.hrt := rfl
@[simp] theorem Dev.modStripe_tng (d : Dev) (col b u : Nat) (f : Stripe → Stripe) : (d.modStripe col b u f).tng = d.tng := rfl
@[simp] theorem Dev.modStripe_cxe (d : Dev) (col b u : Nat) (f : Stripe → Stripe) : (d.modStripe col b u f).cxe = d.cxe := rfl
@[simp] theorem Dev.modStripe_dge (d : Dev) (col b u : Nat) (f : Stripe → Stripe) : (d.modStripe col b u f).dge = d.dge := rfl
@[simp] theorem Dev.modStripe_aee (d : Dev) (col b u : Nat) (f : Stripe → Stripe) : (d.modStripe col b u f).aee = d.aee := rfl
@[simp] theorem Dev.modStripe_key (d : Dev) (col b u : Nat) (f : Stripe → Stripe) : (d.modStripe col b u f).key = d.key := rfl
@[simp] theorem Dev.modStripe_drv (d : Dev) (col b u : Nat) (f : Stripe → Stripe) : (d.modStripe col b u f).drv = d.drv := rfl
@[simp] theorem Dev.modStripe_icu (d : Dev) (col b u : Nat) (f : Stripe → Stripe) : (d.modStripe col b u f).icu = d.icu := rfl
@[simp] theorem Dev.modStripe_cfl (d : Dev) (col b u : Nat) (f : Stripe → Stripe) : (d.modStripe col b u f).cfl = d.cfl := rfl
@[simp] theorem Dev.modStripe_bot (d : Dev) (col b u : Nat) (f : Stripe → Stripe) : (d.modStripe col b u f).bot = d.bot := rfl
@[simp] theorem Dev.modStripe_wdt (d : Dev) (col b u : Nat) (f : Stripe → Stripe) : (d.modStripe col b u f).wdt = d.wdt := rfl
@[simp] theorem Dev.modStripe_mnf (d : Dev) (col b u : Nat) (f : Stripe → Stripe) : (d.modStripe col b u f).mnf = d.mnf := rfl
@[simp] theorem Dev.modStripe_evl (d : Dev) (col b u : Nat) (f : Stripe → Stripe) : (d.modStripe col b u f).evl = d.evl := rfl
@[simp] theorem Dev.modStripe_mgt (d : Dev) (col b u : Nat) (f : Stripe → Stripe) : (d.modStripe col b u f).mgt = d.mgt := rfl
@[simp] theorem Dev.modStripe_spdm (d : Dev) (col b u : Nat) (f : Stripe → Stripe) : (d.modStripe col b u f).spdm = d.spdm := rfl
@[simp] theorem Dev.modStripe_emb (d : Dev) (col b u : Nat) (f : Stripe → Stripe) : (d.modStripe col b u f).emb = d.emb := rfl
@[simp] theorem Dev.modStripe_blw (d : Dev) (col b u : Nat) (f : Stripe → Stripe) : (d.modStripe col b u f).blw = d.blw := rfl
@[simp] theorem Dev.modStripe_out (d : Dev) (col b u : Nat) (f : Stripe → Stripe) : (d.modStripe col b u f).out = d.out := rfl

@[simp] theorem Dev.setReads_clk (d : Dev) (l : List RGran) : (d.setReads l).clk = d.clk := rfl
@[simp] theorem Dev.setReads_tol (d : Dev) (l : List RGran) : (d.setReads l).tol = d.tol := rfl
@[simp] theorem Dev.setReads_fab (d : Dev) (l : List RGran) : (d.setReads l).fab = d.fab := rfl
@[simp] theorem Dev.setReads_hlk (d : Dev) (l : List RGran) : (d.setReads l).hlk = d.hlk := rfl
@[simp] theorem Dev.setReads_fnm (d : Dev) (l : List RGran) : (d.setReads l).fnm = d.fnm := rfl
@[simp] theorem Dev.setReads_qen (d : Dev) (l : List RGran) : (d.setReads l).qen = d.qen := rfl
@[simp] theorem Dev.setReads_nvm (d : Dev) (l : List RGran) : (d.setReads l).nvm = d.nvm := rfl
@[simp] theorem Dev.setReads_wrp (d : Dev) (l : List RGran) : (d.setReads l).wrp = d.wrp := rfl
@[simp] theorem Dev.setReads_icm (d : Dev) (l : List RGran) : (d.setReads l).icm = d.icm := rfl
@[simp] theorem Dev.setReads_mxt (d : Dev) (l : List RGran) : (d.setReads l).mxt = d.mxt := rfl
@[simp] theorem Dev.setReads_ldc (d : Dev) (l : List RGran) : (d.setReads l).ldc = d.ldc := rfl
@[simp] theorem Dev.setReads_mch (d : Dev) (l : List RGran) : (d.setReads l).mch = d.mch := rfl
@[simp] theorem Dev.setReads_crt (d : Dev) (l : List RGran) : (d.setReads l).crt = d.crt := rfl
@[simp] theorem Dev.setReads_jrn (d : Dev) (l : List RGran) : (d.setReads l).jrn = d.jrn := rfl
@[simp] theorem Dev.setReads_map (d : Dev) (l : List RGran) : (d.setReads l).map = d.map := rfl
@[simp] theorem Dev.setReads_par (d : Dev) (l : List RGran) : (d.setReads l).par = d.par := rfl
@[simp] theorem Dev.setReads_outr (d : Dev) (l : List RGran) : (d.setReads l).outr = d.outr := rfl
@[simp] theorem Dev.setReads_hrt (d : Dev) (l : List RGran) : (d.setReads l).hrt = d.hrt := rfl
@[simp] theorem Dev.setReads_tng (d : Dev) (l : List RGran) : (d.setReads l).tng = d.tng := rfl
@[simp] theorem Dev.setReads_cxe (d : Dev) (l : List RGran) : (d.setReads l).cxe = d.cxe := rfl
@[simp] theorem Dev.setReads_dge (d : Dev) (l : List RGran) : (d.setReads l).dge = d.dge := rfl
@[simp] theorem Dev.setReads_aee (d : Dev) (l : List RGran) : (d.setReads l).aee = d.aee := rfl
@[simp] theorem Dev.setReads_key (d : Dev) (l : List RGran) : (d.setReads l).key = d.key := rfl
@[simp] theorem Dev.setReads_drv (d : Dev) (l : List RGran) : (d.setReads l).drv = d.drv := rfl
@[simp] theorem Dev.setReads_icu (d : Dev) (l : List RGran) : (d.setReads l).icu = d.icu := rfl
@[simp] theorem Dev.setReads_cfl (d : Dev) (l : List RGran) : (d.setReads l).cfl = d.cfl := rfl
@[simp] theorem Dev.setReads_bot (d : Dev) (l : List RGran) : (d.setReads l).bot = d.bot := rfl
@[simp] theorem Dev.setReads_wdt (d : Dev) (l : List RGran) : (d.setReads l).wdt = d.wdt := rfl
@[simp] theorem Dev.setReads_mnf (d : Dev) (l : List RGran) : (d.setReads l).mnf = d.mnf := rfl
@[simp] theorem Dev.setReads_evl (d : Dev) (l : List RGran) : (d.setReads l).evl = d.evl := rfl
@[simp] theorem Dev.setReads_mgt (d : Dev) (l : List RGran) : (d.setReads l).mgt = d.mgt := rfl
@[simp] theorem Dev.setReads_spdm (d : Dev) (l : List RGran) : (d.setReads l).spdm = d.spdm := rfl
@[simp] theorem Dev.setReads_emb (d : Dev) (l : List RGran) : (d.setReads l).emb = d.emb := rfl
@[simp] theorem Dev.setReads_blw (d : Dev) (l : List RGran) : (d.setReads l).blw = d.blw := rfl
@[simp] theorem Dev.setReads_out (d : Dev) (l : List RGran) : (d.setReads l).out = d.out := rfl

end Sys2Proof.Machine
end

