-- ==== Sys2Proof/Laws/Ops.lean ====
section
/-! SUPPORT. What the shared operations do, once each: the read-back of every indexed register file, the frames of fetched
commands, of Feresk instructions and calls and of management requests, and the pools. -/

namespace Sys2Proof.Machine

/-! ## The step -/

theorem act_eq (s : State) (g : Dev → Dev) : act s g = .next (s.withDev (g s.dev0)) := rfl
theorem step_cons (c : Instr) (t : List Instr) (s : State) (h : s.pending = c :: t) : step s = exec c { s with pending := t } := by
  simp [step, h]
theorem step_nil (s : State) (h : s.pending = []) : step s = .next s := by simp [step, h]
@[simp] theorem State.withDev_dev (s : State) (d : Dev) : (s.withDev d).dev = d := rfl
@[simp] theorem State.withDev_pending (s : State) (d : Dev) : (s.withDev d).pending = s.pending := rfl

/-! ## Indexed registers -/

@[simp] theorem Dev.lane_modBridge (d : Dev) (n : Nat) (f : Lane → Lane) : (d.modBridge n f).lane n = f (d.lane n) := by
  simp [Dev.lane, Dev.modBridge]
theorem Dev.lane_modBridge_other (d : Dev) (n k : Nat) (f : Lane → Lane) (h : k ≠ n) : (d.modBridge n f).lane k = d.lane k := by
  simp [Dev.lane, Dev.modBridge, fmod, fget_fset_other _ _ _ _ _ h]
@[simp] theorem Dev.ring_modRing (d : Dev) (n : Nat) (f : MRing → MRing) : (d.modRing n f).ring n = f (d.ring n) := by
  simp [Dev.ring, Dev.modRing]
theorem Dev.ring_modRing_other (d : Dev) (n k : Nat) (f : MRing → MRing) (h : k ≠ n) : (d.modRing n f).ring k = d.ring k := by
  simp [Dev.ring, Dev.modRing, fmod, fget_fset_other _ _ _ _ _ h]
@[simp] theorem Dev.thread_modThread (d : Dev) (n : Nat) (f : Thread → Thread) : (d.modThread n f).thread n = f (d.thread n) := by
  simp [Dev.thread, Dev.modThread]
theorem Dev.thread_modThread_other (d : Dev) (n k : Nat) (f : Thread → Thread) (h : k ≠ n) : (d.modThread n f).thread k = d.thread k := by
  simp [Dev.thread, Dev.modThread, fmod, fget_fset_other _ _ _ _ _ h]
@[simp] theorem Dev.dh_modDh (d : Dev) (n : Nat) (f : DrvH → DrvH) : (d.modDh n f).dh n = f (d.dh n) := by
  simp [Dev.dh, Dev.modDh]
theorem Dev.dh_modDh_other (d : Dev) (n k : Nat) (f : DrvH → DrvH) (h : k ≠ n) : (d.modDh n f).dh k = d.dh k := by
  simp [Dev.dh, Dev.modDh, fmod, fget_fset_other _ _ _ _ _ h]
@[simp] theorem Dev.sector_modSector (d : Dev) (n : Nat) (f : Sector → Sector) : (d.modSector n f).sector n = f (d.sector n) := by
  simp [Dev.sector, Dev.modSector]
theorem Dev.sector_modSector_other (d : Dev) (n k : Nat) (f : Sector → Sector) (h : k ≠ n) : (d.modSector n f).sector k = d.sector k := by
  simp [Dev.sector, Dev.modSector, fmod, fget_fset_other _ _ _ _ _ h]
@[simp] theorem Dev.src_modSrc (d : Dev) (n : Nat) (f : Src → Src) : (d.modSrc n f).src n = f (d.src n) := by
  simp [Dev.src, Dev.modSrc]
theorem Dev.src_modSrc_other (d : Dev) (n k : Nat) (f : Src → Src) (h : k ≠ n) : (d.modSrc n f).src k = d.src k := by
  simp [Dev.src, Dev.modSrc, fmod, fget_fset_other _ _ _ _ _ h]
@[simp] theorem Dev.bank_modBank (d : Dev) (n : Nat) (f : Bank → Bank) : (d.modBank n f).bank n = f (d.bank n) := by
  simp [Dev.bank, Dev.modBank]
theorem Dev.bank_modBank_other (d : Dev) (n k : Nat) (f : Bank → Bank) (h : k ≠ n) : (d.modBank n f).bank k = d.bank k := by
  simp [Dev.bank, Dev.modBank, fmod, fget_fset_other _ _ _ _ _ h]
@[simp] theorem Dev.buf_modBuf (d : Dev) (n : Nat) (f : Handoff → Handoff) : (d.modBuf n f).buf n = f (d.buf n) := by
  simp [Dev.buf, Dev.modBuf]
theorem Dev.buf_modBuf_other (d : Dev) (n k : Nat) (f : Handoff → Handoff) (h : k ≠ n) : (d.modBuf n f).buf k = d.buf k := by
  simp [Dev.buf, Dev.modBuf, fmod, fget_fset_other _ _ _ _ _ h]
@[simp] theorem Dev.die_modDie (d : Dev) (n : Nat) (f : Die → Die) : (d.modDie n f).die n = f (d.die n) := by
  simp [Dev.die, Dev.modDie]
theorem Dev.die_modDie_other (d : Dev) (n k : Nat) (f : Die → Die) (h : k ≠ n) : (d.modDie n f).die k = d.die k := by
  simp [Dev.die, Dev.modDie, fmod, fget_fset_other _ _ _ _ _ h]
@[simp] theorem Dev.chan_modChan (d : Dev) (n : Nat) (f : Chan → Chan) : (d.modChan n f).chan n = f (d.chan n) := by
  simp [Dev.chan, Dev.modChan]
theorem Dev.chan_modChan_other (d : Dev) (n k : Nat) (f : Chan → Chan) (h : k ≠ n) : (d.modChan n f).chan k = d.chan k := by
  simp [Dev.chan, Dev.modChan, fmod, fget_fset_other _ _ _ _ _ h]
@[simp] theorem Dev.grp_modGrp (d : Dev) (n : Nat) (f : Cart → Cart) : (d.modGrp n f).grp n = f (d.grp n) := by
  simp [Dev.grp, Dev.modGrp]
theorem Dev.grp_modGrp_other (d : Dev) (n k : Nat) (f : Cart → Cart) (h : k ≠ n) : (d.modGrp n f).grp k = d.grp k := by
  simp [Dev.grp, Dev.modGrp, fmod, fget_fset_other _ _ _ _ _ h]
@[simp] theorem Dev.port_modPort (d : Dev) (n : Nat) (f : Port → Port) : (d.modPort n f).port n = f (d.port n) := by
  simp [Dev.port, Dev.modPort]
theorem Dev.port_modPort_other (d : Dev) (n k : Nat) (f : Port → Port) (h : k ≠ n) : (d.modPort n f).port k = d.port k := by
  simp [Dev.port, Dev.modPort, fmod, fget_fset_other _ _ _ _ _ h]
@[simp] theorem Dev.fn_modFn (d : Dev) (n : Nat) (f : Fn → Fn) : (d.modFn n f).fn n = f (d.fn n) := by
  simp [Dev.fn, Dev.modFn]
theorem Dev.fn_modFn_other (d : Dev) (n k : Nat) (f : Fn → Fn) (h : k ≠ n) : (d.modFn n f).fn k = d.fn k := by
  simp [Dev.fn, Dev.modFn, fmod, fget_fset_other _ _ _ _ _ h]
@[simp] theorem Dev.pool_modPool (d : Dev) (n : Nat) (f : Pool → Pool) : (d.modPool n f).pool n = f (d.pool n) := by
  simp [Dev.pool, Dev.modPool]
theorem Dev.pool_modPool_other (d : Dev) (n k : Nat) (f : Pool → Pool) (h : k ≠ n) : (d.modPool n f).pool k = d.pool k := by
  simp [Dev.pool, Dev.modPool, fmod, fget_fset_other _ _ _ _ _ h]
@[simp] theorem Dev.unit_modUnit (d : Dev) (n : Nat) (f : MUnit → MUnit) : (d.modUnit n f).unit n = f (d.unit n) := by
  simp [Dev.unit, Dev.modUnit]
theorem Dev.unit_modUnit_other (d : Dev) (n k : Nat) (f : MUnit → MUnit) (h : k ≠ n) : (d.modUnit n f).unit k = d.unit k := by
  simp [Dev.unit, Dev.modUnit, fmod, fget_fset_other _ _ _ _ _ h]
@[simp] theorem Dev.mxtLane_modLane (d : Dev) (n : Nat) (f : MxtLane → MxtLane) : (d.modLane n f).mxtLane n = f (d.mxtLane n) := by
  simp [Dev.mxtLane, Dev.modLane]
theorem Dev.mxtLane_modLane_other (d : Dev) (n k : Nat) (f : MxtLane → MxtLane) (h : k ≠ n) : (d.modLane n f).mxtLane k = d.mxtLane k := by
  simp [Dev.mxtLane, Dev.modLane, fmod, fget_fset_other _ _ _ _ _ h]
@[simp] theorem Dev.tu_modTu (d : Dev) (n : Nat) (f : TUnit → TUnit) : (d.modTu n f).tu n = f (d.tu n) := by
  simp [Dev.tu, Dev.modTu]
theorem Dev.tu_modTu_other (d : Dev) (n k : Nat) (f : TUnit → TUnit) (h : k ≠ n) : (d.modTu n f).tu k = d.tu k := by
  simp [Dev.tu, Dev.modTu, fmod, fget_fset_other _ _ _ _ _ h]
@[simp] theorem Dev.inst_setInst (d : Dev) (id : Nat) (c : Ctx) : (d.setInst id c).inst id = some c := by
  simp [Dev.inst, Dev.setInst]
theorem Dev.inst_setInst_other (d : Dev) (id k : Nat) (c : Ctx) (h : k ≠ id) : (d.setInst id c).inst k = d.inst k := by
  simp [Dev.inst, Dev.setInst, fget_fset_other _ _ _ _ _ h]
@[simp] theorem Dev.ns_setNs (d : Dev) (nsid : Nat) (n : Option Ns) : (d.setNs nsid n).ns nsid = n := by
  simp [Dev.ns, Dev.setNs]

/-! ## Frames of commands -/

/-- A fetched admin command that has not run: its meaning runs once it counts as run. -/
theorem Dev.admin_at {d : Dev} {ref : CmdRef} (h : d.waits ref) (f : Dev → Dev) : d.admin ref f = f (d.ran ref) := by
  obtain ⟨c, h1, h2, _⟩ := h
  have e : (d.fresh ref).isSome = true := by rw [Dev.fresh, h1]; simp [Option.filter, h2]
  simp [Dev.admin, e]
/-- The same for an I/O command on a ready device with no Sanitize. -/
theorem Dev.io_at {d : Dev} {ref : CmdRef} (h : d.waits ref) (m : d.ioMay ref) (f : Dev → Dev) : d.io ref f = f (d.ran ref) := by
  obtain ⟨c, h1, h2, _⟩ := h
  have e : (d.fresh ref).isSome = true := by rw [Dev.fresh, h1]; simp [Option.filter, h2]
  simp [Dev.io, e, m.1, m.2]
/-- The same for an admin command of PFs alone. -/
theorem Dev.pfAdmin_at {d : Dev} {ref : CmdRef} (h : d.waits ref) (m : d.pfMay ref) (f : Dev → Dev) :
    d.pfAdmin ref f = f (d.ran ref) := by
  have e : (d.ran ref).isPf ref.fix = true := m
  simp [Dev.pfAdmin, Dev.admin_at h, e]
/-- The same for a command that changes namespaces. -/
theorem Dev.nsAdmin_at {d : Dev} {ref : CmdRef} (h : d.waits ref) (m : d.nsMay ref) (f : Dev → Dev) :
    d.nsAdmin ref f = f (d.ran ref) := by
  have a : (d.ran ref).nvm.ready = true := m.2.1
  have b : (d.ran ref).nvm.sanitize = 0 := m.2.2
  simp [Dev.nsAdmin, Dev.pfAdmin_at h m.1, a, b]

/-! ## Feresk -/

/-- An instruction at hand whose effect is `x`. -/
theorem Dev.instr_ok {d : Dev} {ctx op id : Nat} {c x : Ctx} {f : Fw} {im : Image} {e : Image → Ctx → Fw → Except Nat Ctx}
    (h : d.fetch ctx op = some (id, c, f, im)) (k : e im c f = .ok x) : d.instr ctx op e = d.leaves id x := by
  simp [Dev.instr, h, k, Dev.leaves]
/-- An instruction at hand that faults. -/
theorem Dev.instr_fault {d : Dev} {ctx op id code : Nat} {c : Ctx} {f : Fw} {im : Image}
    {e : Image → Ctx → Fw → Except Nat Ctx} (h : d.fetch ctx op = some (id, c, f, im)) (k : e im c f = .error code) :
    d.instr ctx op e = d.faultInstance id code c.pc.toNat := by simp [Dev.instr, h, k]
/-- An instruction that cannot fault. -/
theorem Dev.plain_at {d : Dev} {ctx op id : Nat} {c : Ctx} {f : Fw} (h : d.at ctx op id c f) (e : Ctx → Fw → Ctx) :
    d.plain ctx op e = d.leaves id (e c f).next := by
  obtain ⟨im, h⟩ := h
  simp [Dev.plain, Dev.instr, h, Dev.leaves]
/-- A context with no instruction of the opcode at hand: nothing happens. -/
theorem Dev.instr_none {d : Dev} {ctx op : Nat} (e : Image → Ctx → Fw → Except Nat Ctx) (h : d.fetch ctx op = none) :
    d.instr ctx op e = d := by simp [Dev.instr, h]
/-- A call of a service at hand. -/
theorem Dev.svc_at {d : Dev} {n : Nat} {q : Call} (h : d.calls n q) (k : Dev → Call → Dev) : d.svc q.ctx n k = k d q := by
  obtain ⟨⟨f, im, h1, h2⟩, h3, h4, h5⟩ := h
  obtain ⟨ctx, th, w, c⟩ := q
  simp_all [Dev.svc]

/-! ## Pools -/

/-- What issuing units does to their pool. -/
theorem Dev.pool_issue (d : Dev) (p fix n : Nat) :
    ((d.issue p fix n).pool p).issued = (d.pool p).issued + n ∧ ((d.issue p fix n).pool p).held = (d.pool p).held + n ∧
      ((d.issue p fix n).pool p).returned = (d.pool p).returned := by simp [Dev.issue]
/-- What returning units does to their pool. -/
theorem Dev.pool_giveBack (d : Dev) (p fix n : Nat) :
    ((d.giveBack p fix n).pool p).issued = (d.pool p).issued ∧ ((d.giveBack p fix n).pool p).held = (d.pool p).held - n ∧
      ((d.giveBack p fix n).pool p).returned = (d.pool p).returned + n := by simp [Dev.giveBack]
/-- A request is issued at once or waits behind the others. -/
theorem Dev.request_cases (d : Dev) (p fix n : Nat) (who : Waiter) :
    (d.canIssue p fix n = true ∧ d.request p fix n who = (d.issue p fix n, true)) ∨
      d.request p fix n who = (d.modPool p (fun q => { q with waiting := q.waiting ++ [{ fix := fix, n := n, who := who }] }), false) := by
  unfold Dev.request
  split
  · rename_i h; exact .inl ⟨h.2, rfl⟩
  · exact .inr rfl

end Sys2Proof.Machine
end

