-- ==== Sys2Proof/Machine/Package.lean ====
section
/-! DEFINITION. Signals, package and supplies (R410, R451 to R463, R465): the ball map, the domain and pull of each signal,
the levels of the pins that Ember drives, and what a supply detector makes of a drop of its rail. -/

namespace Sys2Proof.Machine

/-- The supply rails (R410). -/
inductive Supply where
  | vddEmb | vddioMgt | vddaPll | vddCore | vddSoc | vddaPcie | vddhPcie | vddqNand | vdd2hDram | vddqDram
  deriving DecidableEq, Repr

/-- Signals of a NAND channel (R453). -/
inductive NandPin where
  | dq (n : Nat) | dqsT | dqsC | reT | reC | weN | ale | cle | ceN (n : Nat)
  deriving DecidableEq, Repr

/-- Signals of a DRAM channel: those of a sub-channel, and the channel's own two (R454). -/
inductive DramPin where
  | dq (n : Nat) | dmi (n : Nat) | rdqsT | rdqsC | wckT | wckC | ca (n : Nat) | cs (n : Nat) | ckT | ckC | resetN | zq
  deriving DecidableEq, Repr

/-- The signals of R452 to R455; `neg` is the _N ball of a pair, `subB` sub-channel B. -/
inductive Signal where
  | htx (lane : Nat) (neg : Bool) | hrx (lane : Nat) (neg : Bool) | refclk (port : Nat) (neg : Bool)
  | perstN (port : Nat) | clkreqN (port : Nat) | wakeN (port : Nat)
  | xtal32In | xtal32Out | xtal25In | xtal25Out
  | nand (channel : Nat) (pin : NandPin)
  | dram (channel : Nat) (subB : Bool) (pin : DramPin)
  | cartPresN (group : Nat) | cartPwren (group : Nat) | cartPgood (group : Nat) | cartAttnN (group : Nat)
  | mgtScl | mgtSda | tck | tms | tdi | tdo | trstN | testen
  deriving DecidableEq, Repr

/-- What a ball carries (R458). -/
inductive Ball where
  | vss | rail (r : Supply) | sig (s : Signal)
  deriving DecidableEq, Repr

/-! ## Ball map (R458 to R462) -/

/-- The exceptions (R462), by column and row. -/
def ballExceptions : List (Nat × Nat × Ball) := [
  (1, 17, .sig (.refclk 0 false)), (2, 17, .sig (.refclk 0 true)),
  (5, 17, .sig (.refclk 1 false)), (6, 17, .sig (.refclk 1 true)),
  (85, 1, .sig (.perstN 0)), (86, 1, .sig (.perstN 1)),
  (85, 2, .sig (.clkreqN 0)), (86, 2, .sig (.clkreqN 1)),
  (85, 3, .sig (.wakeN 0)), (86, 3, .sig (.wakeN 1)),
  (87, 1, .sig .mgtScl), (88, 1, .sig .mgtSda),
  (85, 9, .rail .vddEmb), (86, 9, .rail .vddEmb), (85, 10, .rail .vddEmb), (86, 10, .rail .vddEmb),
  (87, 3, .sig .tck), (88, 3, .sig .tms),
  (87, 4, .sig .tdi), (88, 4, .sig .tdo), (89, 4, .sig .trstN),
  (87, 6, .sig .testen),
  (89, 1, .sig .xtal32In), (90, 1, .sig .xtal32Out),
  (89, 7, .sig .xtal25In), (90, 7, .sig .xtal25Out),
  (85, 5, .rail .vddioMgt), (86, 5, .rail .vddioMgt),
  (89, 9, .rail .vddaPll), (90, 9, .rail .vddaPll)]

/-- A NAND tile by offset (R460). -/
def nandTile (c i j : Nat) : Ball :=
  let p (x : NandPin) : Ball := .sig (.nand c x)
  let q : Ball := .rail .vddqNand
  let rows : List (List Ball) := [
    [p (.ceN 0), p (.ceN 1), p (.ceN 2), p (.ceN 3), q],
    [p (.dq 0), p (.dq 1), .vss, p (.dq 2), p (.dq 3)],
    [p .dqsT, p .dqsC, q, p .reT, p .reC],
    [p (.dq 4), p (.dq 5), .vss, p (.dq 6), p (.dq 7)],
    [p .weN, p .ale, p .cle, .vss, q],
    [.vss, q, .vss, q, .vss]]
  (rows.getD j []).getD i .vss

/-- A DRAM tile by offset: sub-channel B mirrors A, and X is RESET_N in A and ZQ in B (R460). -/
def dramTile (m i j : Nat) : Ball :=
  let b := decide (4 ≤ i)
  let p (x : DramPin) : Ball := .sig (.dram m b x)
  let q : Ball := .rail .vddqDram
  let rows : List (List Ball) := [
    [p (.dq 0), p (.dq 1), .vss, p (.dq 2)],
    [p (.dq 3), p (.dmi 0), q, p (.dq 4)],
    [p (.dq 5), .vss, p (.dq 6), p (.dq 7)],
    [p .rdqsT, p .rdqsC, .vss, q],
    [p (.dq 8), p (.dq 9), .vss, p (.dq 10)],
    [p (.dq 11), p (.dmi 1), q, p (.dq 12)],
    [p (.dq 13), .vss, p (.dq 14), p (.dq 15)],
    [p .wckT, p .wckC, .vss, .rail .vdd2hDram],
    [p (.ca 0), p (.ca 1), p (.ca 2), .vss],
    [p (.ca 3), p (.ca 4), p (.ca 5), p (.ca 6)],
    [p .ckT, p .ckC, .vss, .rail .vdd2hDram],
    [p (.cs 0), p (.cs 1), if b then p .zq else p .resetN, .vss]]
  (rows.getD j []).getD (if b then 7 - i else i) .vss

/-- A host lane tile by offset (R460). -/
def laneTile (l i j : Nat) : Ball :=
  if i ≤ 1 ∧ j = 0 then .sig (.htx l (decide (i = 1)))
  else if i ≤ 1 ∧ j = 2 then .sig (.hrx l (decide (i = 1)))
  else .vss

/-- First column and first row of the tiles of NAND channel `c`, DRAM channel `m` and host lane `l` (R459). -/
def nandOrigin (c : Nat) : Nat × Nat :=
  (26 + 5 * (c % 8), (if c / 8 ≤ 3 then 1 else 67) + 6 * (c / 8 % 4))
def dramOrigin (m : Nat) : Nat × Nat := (if m ≤ 3 then 1 else 83, 20 + 12 * (m % 4))
def laneOrigin (l : Nat) : Nat × Nat := (1 + 4 * (l % 8 % 2), (if l ≤ 7 then 1 else 75) + 4 * (l % 8 / 2))

/-- The first of `n` tiles of `w` columns and `h` rows that covers a ball, with the offset in it. -/
def tileAt (n w h : Nat) (origin : Nat → Nat × Nat) (col row : Nat) : Option (Nat × Nat × Nat) :=
  ((List.range n).find? (fun k => decide ((origin k).1 ≤ col ∧ col < (origin k).1 + w ∧
    (origin k).2 ≤ row ∧ row < (origin k).2 + h))).map (fun k => (k, col - (origin k).1, row - (origin k).2))

/-- The region rules (R461), the first that covers the ball. -/
def ballRegion (col row : Nat) : Option Ball :=
  let checker (r : Supply) : Option Ball := some (if (col + row) % 2 = 0 then .rail r else .vss)
  let edge := decide (1 ≤ row ∧ row ≤ 16 ∨ 75 ≤ row ∧ row ≤ 90)
  let mid := decide (20 ≤ row ∧ row ≤ 67)
  if 26 ≤ col ∧ col ≤ 65 ∧ 25 ≤ row ∧ row ≤ 45 then checker .vddCore
  else if 26 ≤ col ∧ col ≤ 65 ∧ 46 ≤ row ∧ row ≤ 66 then checker .vddSoc
  else if (13 ≤ col ∧ col ≤ 25 ∨ 66 ≤ col ∧ col ≤ 78) ∧ 17 ≤ row ∧ row ≤ 74 then checker .vddSoc
  else if (col = 9 ∨ col = 82) ∧ mid then some (.rail .vdd2hDram)
  else if (col = 11 ∨ col = 80) ∧ mid then some (.rail .vddqDram)
  else if col = 9 ∧ edge then some (.rail .vddaPcie)
  else if col = 11 ∧ edge then some (.rail .vddhPcie)
  else if col = 83 ∧ 1 ≤ row ∧ row ≤ 16 then
    some (.sig (if row % 2 = 1 then .cartPresN ((row - 1) / 2) else .cartPgood ((row - 2) / 2)))
  else if col = 84 ∧ 1 ≤ row ∧ row ≤ 16 then
    some (.sig (if row % 2 = 1 then .cartPwren ((row - 1) / 2) else .cartAttnN ((row - 2) / 2)))
  else none

/-- The assignment of a ball of the 90 × 90 array (R451, R458); none outside the array. -/
def ballAt (col row : Nat) : Option Ball :=
  if col = 0 ∨ 90 < col ∨ row = 0 ∨ 90 < row then none
  else match ballExceptions.find? (fun e => decide (e.1 = col ∧ e.2.1 = row)) with
  | some e => some e.2.2
  | none =>
    match tileAt 64 5 6 nandOrigin col row, tileAt 8 8 12 dramOrigin col row, tileAt 16 4 4 laneOrigin col row with
    | some (c, i, j), _, _ => some (nandTile c i j)
    | none, some (m, i, j), _ => some (dramTile m i j)
    | none, none, some (l, i, j) => some (laneTile l i j)
    | none, none, none => some ((ballRegion col row).getD .vss)

/-! ## Domains, pulls and driven levels (R452 to R456) -/

/-- The domain of a signal; none is Ember, which also holds the crystals, the cartridge and the management pins. -/
def Signal.dom : Signal → Option Dom
  | .htx _ _ => some .host
  | .hrx _ _ => some .host
  | .refclk _ _ => some .host
  | .nand _ _ => some .data
  | .dram _ _ _ => some .memory
  | _ => none

/-- The level that a signal's pull gives it while nothing drives it: pull-downs low, pull-ups high, the others none. -/
def Signal.pull : Signal → Option Bool
  | .perstN _ => some false
  | .cartPresN _ => some true
  | .cartPwren _ => some false
  | .cartPgood _ => some false
  | .cartAttnN _ => some true
  | .tck => some false
  | .tms => some true
  | .tdi => some true
  | .trstN => some false
  | .testen => some false
  | _ => none

/-- Whether the Ember detector holds Ember in reset: one of its rails (rows 0 to 2 of R410) is bad (R411). -/
def Dev.emberHeld (d : Dev) : Bool := d.blw.railsBad.any (fun r => decide (r < 3))

/-- The level at which the device holds a pin of Ember that it drives; in reset only the pull acts (R456). An open-drain
pin that is released has no level of the device's. -/
def Dev.drives (d : Dev) (s : Signal) : Option Bool :=
  if d.emberHeld then s.pull
  else match s with
  | .cartPwren g => some (d.grp g).pwren
  | .cartAttnN g => some (!(d.grp g).safe)
  | .wakeN n => if n ∈ d.emb.wakeN then some false else none
  | _ => s.pull

/-! ## Supplies (R463, R465) -/

/-- Minimum, nominal, maximum, good, reset and absolute maximum level of a rail, in millivolts (R463). -/
def Supply.levels : Supply → Nat × Nat × Nat × Nat × Nat × Nat
  | .vddEmb => (776, 800, 824, 752, 720, 960)
  | .vddioMgt => (1746, 1800, 1854, 1692, 1620, 2160)
  | .vddaPll => (1746, 1800, 1854, 1692, 1620, 2160)
  | .vddCore => (873, 900, 927, 846, 810, 1080)
  | .vddaPcie => (873, 900, 927, 846, 810, 1080)
  | .vddSoc => (728, 750, 773, 705, 675, 900)
  | .vddhPcie => (1164, 1200, 1236, 1128, 1080, 1440)
  | .vddqNand => (1164, 1200, 1236, 1128, 1080, 1440)
  | .vdd2hDram => (1019, 1050, 1082, 987, 945, 1260)
  | .vddqDram => (485, 500, 515, 470, 450, 600)

def Supply.good (r : Supply) : Nat := r.levels.2.2.2.1
def Supply.resetLevel (r : Supply) : Nat := r.levels.2.2.2.2.1

/-- What the detector of a released domain makes of a drop of its rail: the time in nanoseconds below the reset level and
below the good level. -/
inductive Drop where
  | nothing | glitch | loss
  deriving DecidableEq, Repr

/-- R463: 1 µs or more below the reset level is a loss, acted on before a glitch; 50 ns or more below the good level that
is no loss is a glitch. The rows EMBER_RAIL_LOSS, FAST_RAIL_LOSS and SUPPLY_GLITCH are its outcomes. -/
def supplyDrop (belowReset belowGood : Nat) : Drop :=
  if 1000 ≤ belowReset then .loss else if 50 ≤ belowGood then .glitch else .nothing

/-- Currents of a rail at design power and in Deep, in microamperes (R465). -/
def Supply.current : Supply → Nat × Nat
  | .vddCore => (62000000, 500)
  | .vddSoc => (30000000, 500)
  | .vddqNand => (6000000, 500)
  | .vdd2hDram => (3500000, 500)
  | .vddqDram => (4000000, 500)
  | .vddaPcie => (2800000, 500)
  | .vddhPcie => (800000, 500)
  | .vddEmb => (120000, 115000)
  | .vddioMgt => (50000, 20000)
  | .vddaPll => (80000, 10000)

def supplies : List Supply :=
  [.vddEmb, .vddioMgt, .vddaPll, .vddCore, .vddSoc, .vddaPcie, .vddhPcie, .vddqNand, .vdd2hDram, .vddqDram]

/-- The sum of the nominal rail powers in nanowatts, at design power and in Deep (R465). -/
def nominalPower (deep : Bool) : Nat :=
  ((supplies.map (fun r => r.levels.2.1 * (if deep then r.current.2 else r.current.1)))).sum

end Sys2Proof.Machine
end

