-- ==== Sys2Proof/WellFormed.lean ====
section
/-! DEFINITION. Well-formed commands: operands within the widths the spec gives them. A command that is not well-formed
names something that does not exist; exec gives it no effect (log 1). -/

namespace Sys2Proof

/-- Whether a command reference names a function, a queue and an identifier that exist (R55, R76, R79). The two requests
that the management endpoint tunnels (R432) are numbered 65,536 and 65,537 in queue 0. -/
def CmdRef.wf (r : CmdRef) : Bool :=
  decide (r.fix < 1024 ∧ r.qid < 257 ∧ (r.cid < 65536 ∨ (r.qid = 0 ∧ r.cid < 65538)))

/-- Whether a register space names a function (R55), a port (R43), a core (R29, 48 for the management core) or a direction
of the bridge (R19) that exists. -/
def RegSpace.wf (r : RegSpace) : Bool :=
  match r with
  | .nvme f => decide (f < 1024)
  | .msix f => decide (f < 1024)
  | .config f _ => decide (f < 1024)
  | .bar2 p => decide (p < 2)
  | .core c => decide (c < 49)
  | .bridge d => decide (d < 6)

/-- Whether a source of the bridge is a core of the control plane or a port that exists (R19, R43). -/
def Source.wf (x : Source) : Bool :=
  match x with
  | .core c _ => decide (c < 48)
  | .bar2 p => decide (p < 2)

/-- Whether a command's operands name things that exist: hardware contexts (4 of each of 48 cores, R20), ports (R43), the eight cartridge groups (R4),
functions (R55), Hearths (R232), bindings (R431), threads (R346), interrupt banks (R365), rails (R410), pools (R35), mailbox
rings and bridge directions (R16, R19), hand-off buffers (R18), channels (R138), windows (R20), 32-bit handles and namespace
identifiers, 48-bit addresses (R29) and 64-bit values. -/
def Instr.wf (i : Instr) : Bool :=
  match i with
  | .registerWrite space addr _ value => space.wf && decide (addr < 2 ^ 48 ∧ value < 2 ^ 64)
  | .rcCounterRead space addr => space.wf && decide (addr < 2 ^ 48)
  | .upperWordLatch space spot => space.wf && decide (spot.addr < 2 ^ 48)
  | .stagedCommit window => decide (window < 31)
  | .bar2WriteDiscarded fix _ _ => decide (fix < 1024)
  | .bar2UnsupportedAccess fix _ _ => decide (fix < 1024)
  | .coreBusError core addr _ _ => decide (core < 49 ∧ addr < 2 ^ 48)
  | .mailboxSend ring _ _ _ _ => decide (ring < 6)
  | .mailboxSlotGranted ring => decide (ring < 6)
  | .mailboxReceive ring => decide (ring < 6)
  | .handoffBufferPass buffer _ => decide (buffer < 256)
  | .handoffForeignAccess buffer _ _ => decide (buffer < 256)
  | .bridgeAccess dir source addr _ _ value => source.wf && decide (dir < 6 ∧ addr < 2 ^ 48 ∧ value < 2 ^ 64)
  | .bridgeReadReturn dir => decide (dir < 6)
  | .accountingEpochBoundary _ _ _ _ => true
  | .tolViolatedClear _ => true
  | .shareUnitsIssued pool => decide (pool < 32)
  | .linkTraining port _ _ _ _ => decide (port < 2)
  | .linkRecoveryEntry port _ => decide (port < 2)
  | .fecUncorrectableFlit port _ => decide (port < 2)
  | .linkRateDowngrade port => decide (port < 2)
  | .retrainLink port _ => decide (port < 2)
  | .l0pWidthChange port _ => decide (port < 2)
  | .linkPowerStateChange port _ => decide (port < 2)
  | .functionPowerStateWrite fix _ => decide (fix < 1024)
  | .msixVectorUnmask fix _ => decide (fix < 1024)
  | .perstAssert port _ => decide (port < 2)
  | .perstDeassert port => decide (port < 2)
  | .hotReset port _ => decide (port < 2)
  | .linkDown port _ => decide (port < 2)
  | .portLinkUp port => decide (port < 2)
  | .vfEnableWrite port _ => decide (port < 2)
  | .functionLevelReset fix => decide (fix < 1024)
  | .controllerEnable fix _ _ _ => decide (fix < 1024)
  | .controllerDisable fix => decide (fix < 1024)
  | .epochItemSquash fix _ => decide (fix < 1024)
  | .functionResetComplete fix _ => decide (fix < 1024)
  | .nvmSubsystemReset _ => true
  | .sqTailDoorbell fix qid value => decide (fix < 1024 ∧ qid < 65536 ∧ value < 2 ^ 64)
  | .cqHeadDoorbell fix qid value => decide (fix < 1024 ∧ qid < 65536 ∧ value < 2 ^ 64)
  | .submissionFetch _ _ _ => true
  | .moderationTimerExpiry fix _ => decide (fix < 1024)
  | .controllerShutdownNormal fix => decide (fix < 1024)
  | .controllerShutdownAbrupt fix => decide (fix < 1024)
  | .shutdownComplete fix => decide (fix < 1024)
  | .unsupportedCommand ref => ref.wf
  | .createIoSq ref _ qid _ _ _ => ref.wf && decide (qid < 65536)
  | .createIoCq ref _ _ qid _ _ _ => ref.wf && decide (qid < 65536)
  | .deleteIoSq ref qid => ref.wf && decide (qid < 65536)
  | .deleteIoCq ref qid => ref.wf && decide (qid < 65536)
  | .getLogPage ref _ _ _ _ _ => ref.wf
  | .identify ref _ nsid _ => ref.wf && decide (nsid < 2 ^ 32)
  | .abort ref _ _ => ref.wf
  | .setFeatures ref _ _ nsid value _ => ref.wf && decide (nsid < 2 ^ 32 ∧ value < 2 ^ 64)
  | .getFeatures ref _ _ nsid value => ref.wf && decide (nsid < 2 ^ 32 ∧ value < 2 ^ 64)
  | .asynchronousEventRequest ref => ref.wf
  | .namespaceCreate ref _ _ _ _ _ _ _ => ref.wf
  | .namespaceDelete ref nsid => ref.wf && decide (nsid < 2 ^ 32)
  | .namespaceAttach ref nsid _ => ref.wf && decide (nsid < 2 ^ 32)
  | .namespaceDetach ref nsid _ => ref.wf && decide (nsid < 2 ^ 32)
  | .firmwareImageDownload ref _ _ => ref.wf
  | .firmwareCommitReplace ref _ _ _ _ => ref.wf
  | .firmwareCommitReplaceActivate ref _ _ _ => ref.wf
  | .firmwareCommitActivate ref _ => ref.wf
  | .firmwareCommitActivateNow ref _ _ _ _ => ref.wf
  | .firmwareSlotWritten _ => true
  | .deviceSelfTestShort ref => ref.wf
  | .deviceSelfTestExtended ref => ref.wf
  | .formatNvm ref nsid _ _ _ _ => ref.wf && decide (nsid < 2 ^ 32)
  | .formatClearComplete nsid => decide (nsid < 2 ^ 32)
  | .sanitizeCryptoErase ref => ref.wf
  | .sanitizeBlockErase ref => ref.wf
  | .sanitizeOverwrite ref => ref.wf
  | .sanitizeComplete => true
  | .flush ref nsid => ref.wf && decide (nsid < 2 ^ 32)
  | .write ref nsid _ _ _ _ _ _ _ => ref.wf && decide (nsid < 2 ^ 32)
  | .read ref nsid _ _ _ _ _ => ref.wf && decide (nsid < 2 ^ 32)
  | .compare ref nsid _ _ _ _ _ _ _ => ref.wf && decide (nsid < 2 ^ 32)
  | .writeZeroes ref nsid _ _ _ => ref.wf && decide (nsid < 2 ^ 32)
  | .datasetManagement ref nsid _ _ _ => ref.wf && decide (nsid < 2 ^ 32)
  | .verify ref nsid _ _ _ => ref.wf && decide (nsid < 2 ^ 32)
  | .reservationRegister ref nsid _ _ _ _ => ref.wf && decide (nsid < 2 ^ 32)
  | .reservationReport ref nsid _ _ _ => ref.wf && decide (nsid < 2 ^ 32)
  | .reservationAcquire ref nsid _ _ _ _ => ref.wf && decide (nsid < 2 ^ 32)
  | .reservationRelease ref nsid _ _ _ _ => ref.wf && decide (nsid < 2 ^ 32)
  | .policyTableLoad ref table _ _ _ => ref.wf && decide (table < 256)
  | .policyTableReadActive ref table _ => ref.wf && decide (table < 256)
  | .policyTableReadFactory ref table _ => ref.wf && decide (table < 256)
  | .nolobImageLoad ref _ _ _ _ _ _ => ref.wf
  | .nolobImageUnload ref handle => ref.wf && decide (handle < 2 ^ 32)
  | .imageUnloadComplete _ => true
  | .keySlotImport ref _ _ _ => ref.wf
  | .keySlotGenerate ref _ _ => ref.wf
  | .keySlotDestroy ref _ => ref.wf
  | .keySlotQuery ref _ _ => ref.wf
  | .keySlotRekey ref _ _ _ _ => ref.wf
  | .keySlotBind ref _ nsid _ => ref.wf && decide (nsid < 2 ^ 32)
  | .keySlotUnbind ref _ nsid _ => ref.wf && decide (nsid < 2 ^ 32)
  | .keyReleaseComplete ref => ref.wf
  | .cartridgeQuery ref group => ref.wf && decide (group < 8)
  | .cartridgePrepareRemoval ref group _ => ref.wf && decide (group < 8)
  | .cartridgeAdmit ref group _ => ref.wf && decide (group < 8)
  | .cartridgeCancelRemoval ref group _ => ref.wf && decide (group < 8)
  | .manifestQuery ref _ _ _ => ref.wf
  | .tollgateReport ref _ _ _ => ref.wf
  | .computeSubmit ref addr _ _ => ref.wf && decide (addr < 2 ^ 48)
  | .tongsInsertByPriority ref _ _ _ _ _ => ref.wf
  | .tongsWriteAt ref _ _ _ _ _ _ => ref.wf
  | .tongsDelete ref _ _ _ _ => ref.wf
  | .tongsReleaseUnit ref _ _ _ => ref.wf
  | .tongsReleaseComplete _ => true
  | .tongsTableRead ref _ _ _ _ _ => ref.wf
  | .laneGrant _ _ => true
  | .granuleCompress _ => true
  | .granuleLockRelease _ => true
  | .xtsLaneCompute _ _ _ _ _ _ => true
  | .qlcCopyComplete _ => true
  | .stripeCloseTimer _ _ _ => true
  | .creditGrant pool _ _ _ _ => decide (pool < 32)
  | .nandReadComplete _ => true
  | .codewordDecode _ _ _ => true
  | .readRetryRung _ _ _ => true
  | .softDecode _ _ _ _ => true
  | .stripeReconstruct _ _ _ => true
  | .granuleDecompress _ _ _ => true
  | .hostDmaComplete _ => true
  | .handoffDelivery _ => true
  | .checkVerdictFinal _ _ => true
  | .channelTraining chan _ _ => decide (chan < 64)
  | .zqCalibrationTimer chan => decide (chan < 64)
  | .readDqRetrain chan _ => decide (chan < 64)
  | .nandProgramComplete _ _ _ => true
  | .nandEraseComplete _ _ => true
  | .nandOperationTimeout _ _ _ => true
  | .eraseSuspend _ _ => true
  | .programSuspend _ _ => true
  | .suspendReady _ _ => true
  | .suspendResume _ => true
  | .cartPresenceChange group _ => decide (group < 8)
  | .insertionDebounced group => decide (group < 8)
  | .removalCounted group => decide (group < 8)
  | .pgoodFall group => decide (group < 8)
  | .cartridgeAdmission group _ => decide (group < 8)
  | .pgoodRise group => decide (group < 8)
  | .pgoodTimeout group => decide (group < 8)
  | .cartridgePowerUpDone group => decide (group < 8)
  | .cartridgePowerDown group => decide (group < 8)
  | .cartridgeAttnAssert group => decide (group < 8)
  | .journalRecordDurable => true
  | .journalCheckpoint => true
  | .mapItemLoad _ _ => true
  | .mapItemFlush _ _ _ _ _ => true
  | .gcVictimSelect _ => true
  | .pslcFoldStart => true
  | .recoveryStart _ _ => true
  | .recoveryBlockTableLoad => true
  | .recoveryComplete _ _ => true
  | .rebuildSet group _ _ => decide (group < 8)
  | .patrolZone _ => true
  | .waybillAdmitted _ => true
  | .instanceStart _ => true
  | .imageFetch _ => true
  | .segmentBoundary _ => true
  | .timeLimitExpiry _ => true
  | .instanceEnd _ => true
  | .hearthDrainComplete hearth => decide (hearth < 6)
  | .svcYield ctx => decide (ctx < 192)
  | .svcNextInput ctx => decide (ctx < 192)
  | .svcEmitOutput ctx => decide (ctx < 192)
  | .svcTongsQuery ctx => decide (ctx < 192)
  | .svcDigest ctx _ => decide (ctx < 192)
  | .svcCompress ctx => decide (ctx < 192)
  | .svcDecompress ctx => decide (ctx < 192)
  | .svcDelay ctx => decide (ctx < 192)
  | .svcWaitTimeout ctx => decide (ctx < 192)
  | .svcLogRecord ctx => decide (ctx < 192)
  | .svcProgramExit ctx => decide (ctx < 192)
  | .asyncOperationEnd _ _ => true
  | .nop ctx => decide (ctx < 192)
  | .add ctx => decide (ctx < 192)
  | .sub ctx => decide (ctx < 192)
  | .and ctx => decide (ctx < 192)
  | .or ctx => decide (ctx < 192)
  | .xor ctx => decide (ctx < 192)
  | .andn ctx => decide (ctx < 192)
  | .min ctx => decide (ctx < 192)
  | .max ctx => decide (ctx < 192)
  | .minu ctx => decide (ctx < 192)
  | .maxu ctx => decide (ctx < 192)
  | .sll ctx => decide (ctx < 192)
  | .srl ctx => decide (ctx < 192)
  | .sra ctx => decide (ctx < 192)
  | .ror ctx => decide (ctx < 192)
  | .slt ctx => decide (ctx < 192)
  | .sltu ctx => decide (ctx < 192)
  | .seq ctx => decide (ctx < 192)
  | .mul ctx => decide (ctx < 192)
  | .mulh ctx => decide (ctx < 192)
  | .mulhu ctx => decide (ctx < 192)
  | .div ctx => decide (ctx < 192)
  | .divu ctx => decide (ctx < 192)
  | .rem ctx => decide (ctx < 192)
  | .remu ctx => decide (ctx < 192)
  | .clz ctx => decide (ctx < 192)
  | .ctz ctx => decide (ctx < 192)
  | .popc ctx => decide (ctx < 192)
  | .bswap ctx => decide (ctx < 192)
  | .ext ctx => decide (ctx < 192)
  | .movi ctx => decide (ctx < 192)
  | .movhi ctx => decide (ctx < 192)
  | .b ctx => decide (ctx < 192)
  | .beq ctx => decide (ctx < 192)
  | .bne ctx => decide (ctx < 192)
  | .blt ctx => decide (ctx < 192)
  | .bge ctx => decide (ctx < 192)
  | .bltu ctx => decide (ctx < 192)
  | .bgeu ctx => decide (ctx < 192)
  | .bpany ctx => decide (ctx < 192)
  | .bpnone ctx => decide (ctx < 192)
  | .ld ctx => decide (ctx < 192)
  | .st ctx => decide (ctx < 192)
  | .vld ctx => decide (ctx < 192)
  | .vst ctx => decide (ctx < 192)
  | .vgather ctx => decide (ctx < 192)
  | .vscatter ctx => decide (ctx < 192)
  | .vldb ctx => decide (ctx < 192)
  | .vadd ctx => decide (ctx < 192)
  | .vsub ctx => decide (ctx < 192)
  | .vand ctx => decide (ctx < 192)
  | .vor ctx => decide (ctx < 192)
  | .vxor ctx => decide (ctx < 192)
  | .vandn ctx => decide (ctx < 192)
  | .vmin ctx => decide (ctx < 192)
  | .vmax ctx => decide (ctx < 192)
  | .vminu ctx => decide (ctx < 192)
  | .vmaxu ctx => decide (ctx < 192)
  | .vmul ctx => decide (ctx < 192)
  | .vsll ctx => decide (ctx < 192)
  | .vsrl ctx => decide (ctx < 192)
  | .vsra ctx => decide (ctx < 192)
  | .vsplat ctx => decide (ctx < 192)
  | .vext ctx => decide (ctx < 192)
  | .vins ctx => decide (ctx < 192)
  | .vperm ctx => decide (ctx < 192)
  | .valign ctx => decide (ctx < 192)
  | .vredadd ctx => decide (ctx < 192)
  | .vredmin ctx => decide (ctx < 192)
  | .vredmax ctx => decide (ctx < 192)
  | .vpack ctx => decide (ctx < 192)
  | .vcmpeq ctx => decide (ctx < 192)
  | .vcmpne ctx => decide (ctx < 192)
  | .vcmplt ctx => decide (ctx < 192)
  | .vcmpltu ctx => decide (ctx < 192)
  | .vcmple ctx => decide (ctx < 192)
  | .vcmpleu ctx => decide (ctx < 192)
  | .vmov ctx => decide (ctx < 192)
  | .pand ctx => decide (ctx < 192)
  | .por ctx => decide (ctx < 192)
  | .pxor ctx => decide (ctx < 192)
  | .pandn ctx => decide (ctx < 192)
  | .prange ctx => decide (ctx < 192)
  | .pcnt ctx => decide (ctx < 192)
  | .pfirst ctx => decide (ctx < 192)
  | .ptox ctx => decide (ctx < 192)
  | .xtop ctx => decide (ctx < 192)
  | .loop ctx => decide (ctx < 192)
  | .endloop ctx => decide (ctx < 192)
  | .brk ctx => decide (ctx < 192)
  | .brknz ctx => decide (ctx < 192)
  | .call ctx => decide (ctx < 192)
  | .ret ctx => decide (ctx < 192)
  | .aadd ctx => decide (ctx < 192)
  | .aand ctx => decide (ctx < 192)
  | .aor ctx => decide (ctx < 192)
  | .axor ctx => decide (ctx < 192)
  | .aminu ctx => decide (ctx < 192)
  | .amaxu ctx => decide (ctx < 192)
  | .axchg ctx => decide (ctx < 192)
  | .acas ctx => decide (ctx < 192)
  | .vaadd ctx => decide (ctx < 192)
  | .tongsSearch _ _ => true
  | .tongsStep _ _ => true
  | .tongsEntryUpdate _ => true
  | .tongsScrub _ _ => true
  | .cxeContextPlace => true
  | .cxeSegment _ => true
  | .cxeJobEnd _ => true
  | .engineEccRetire _ _ => true
  | .dgeSegment _ => true
  | .dgeStatePark ctx => decide (ctx < 192)
  | .aeeSegment _ _ _ => true
  | .aeeJobEnd _ => true
  | .contextBusError _ ctx => decide (ctx < 192)
  | .keyAlarm source => decide (source < 256)
  | .drbgReseed => true
  | .mxtKeyCacheMiss _ => true
  | .threadCreate hearth _ _ => decide (hearth < 6)
  | .threadDispatch ctx => decide (ctx < 192)
  | .threadPreempt hearth => decide (hearth < 6)
  | .threadWake thread => decide (thread < 16384)
  | .flowRelease thread => decide (thread < 16384)
  | .orderedRelease thread => decide (thread < 16384)
  | .threadCancel thread => decide (thread < 16384)
  | .drvTickBoundary hearth _ => decide (hearth < 6)
  | .delayEntryExpiry hearth => decide (hearth < 6)
  | .flowModeChange hearth => decide (hearth < 6)
  | .nodeFiring ctx => decide (ctx < 192)
  | .graphQuiescent ctx => decide (ctx < 192)
  | .interruptSourceEvent bank _ => decide (bank < 49)
  | .levelRequestWithdraw bank _ => decide (bank < 49)
  | .icuClaim bank => decide (bank < 49)
  | .icuComplete bank _ => decide (bank < 49)
  | .icuNudge nudge bank => decide (nudge < 8 ∧ bank < 49)
  | .icuRaise _ => true
  | .icuCommit => true
  | .wakeWatcherFire => true
  | .flashReadInfo _ => true
  | .flashProgram _ _ _ => true
  | .flashErase _ => true
  | .flashSuspend _ => true
  | .flashResume _ => true
  | .flashStatus => true
  | .flashReadCal _ _ => true
  | .flashOperationDone _ _ _ => true
  | .flashAutoResume _ => true
  | .flashOperationAbandoned _ => true
  | .codeFlashReadFault _ _ _ => true
  | .xoUnlock _ => true
  | .boot _ => true
  | .trialConfirm => true
  | .activationTimeout _ => true
  | .wdtKick _ => true
  | .wdtStage1Expiry => true
  | .wdtStage2Expiry _ => true
  | .wdtDeferredReset _ _ => true
  | .spdmGetVersion bus => decide (bus < 4)
  | .spdmGetCapabilities bus => decide (bus < 4)
  | .spdmNegotiateAlgorithms bus _ => decide (bus < 4)
  | .spdmGetDigests bus => decide (bus < 4)
  | .spdmGetCertificate bus _ _ _ => decide (bus < 4)
  | .spdmChallenge bus _ => decide (bus < 4)
  | .spdmGetMeasurements bus _ _ => decide (bus < 4)
  | .spdmKeyExchange bus _ => decide (bus < 4)
  | .spdmFinish bus _ => decide (bus < 4)
  | .spdmHeartbeat bus => decide (bus < 4)
  | .spdmKeyUpdate bus => decide (bus < 4)
  | .spdmEndSession bus => decide (bus < 4)
  | .setEndpointId bus _ => decide (bus < 4)
  | .getEndpointId bus => decide (bus < 4)
  | .getMctpVersionSupport bus => decide (bus < 4)
  | .getMessageTypeSupport bus => decide (bus < 4)
  | .mctpMessageDiscarded _ _ => true
  | .readNvmeMiDataStructure bus _ _ => decide (bus < 4)
  | .nvmSubsystemHealthStatusPoll bus _ => decide (bus < 4)
  | .controllerHealthStatusPoll bus _ _ => decide (bus < 4)
  | .configurationSet bus _ _ value => decide (bus < 4 ∧ value < 2 ^ 64)
  | .configurationGet bus _ _ => decide (bus < 4)
  | .vpdRead bus _ _ _ => decide (bus < 4)
  | .vpdWrite bus _ _ _ => decide (bus < 4)
  | .nvmeMiReset bus _ _ => decide (bus < 4)
  | .tunnelledAdminCommand bus _ _ _ => decide (bus < 4)
  | .recoveryImageWrite bus _ _ _ => decide (bus < 4)
  | .recoveryCommit bus _ _ _ _ _ => decide (bus < 4)
  | .miUnsupportedCommand bus _ => decide (bus < 4)
  | .miEndpointBusy bus _ => decide (bus < 4)
  | .i3cModeSwitch _ => true
  | .quiesceComplete _ => true
  | .sleepEntry _ => true
  | .deepAfterExpiry => true
  | .wakeFromDormant _ _ _ => true
  | .wakeFromDeep _ => true
  | .coldStart _ => true
  | .emberRailLoss rail => decide (rail < 8)
  | .fastRailLoss rail => decide (rail < 8)
  | .supplyRestoredReset _ => true
  | .supplyGlitch rail => decide (rail < 8)
  | .xtalSwitch => true
  | .xtalFail => true
  | .thermalTrip _ _ => true
  | .tripRecoveryReset _ _ => true
  | .deviceResetAbrupt _ _ => true
  | .deviceResetOrderly _ => true
  | .powerCycle => true
  | .threadEnd thread => decide (thread < 16384)
  | .coreUncorrectableError ctx => decide (ctx < 192)
  | .deviceSelfTestComplete _ => true
  | .smbusArp _ addr _ => decide (addr < 2 ^ 48)

end Sys2Proof
end

