-- ==== Sys2Proof/Tests/Slice0.lean ====
section
/-! SUPPORT. Tests: ill-formed commands that WellFormed refuses, worked examples of the spec, and for the statements a
witness of every clause's conditions. -/

namespace Sys2Proof.Tests

set_option Elab.async false

open Machine

/-! ## Well-formed commands -/

theorem test_ref_ill_formed : CmdRef.wf ⟨1024, 0, 0⟩ = false ∧ CmdRef.wf ⟨0, 257, 0⟩ = false ∧ CmdRef.wf ⟨0, 1, 65536⟩ = false := by
  decide
theorem test_ref_tunnelled : CmdRef.wf ⟨3, 0, 65537⟩ = true := by decide
theorem test_space_ill_formed : RegSpace.wf (.nvme 1024) = false ∧ RegSpace.wf (.msix 1024) = false ∧
    RegSpace.wf (.config 1024 .msixEnable) = false ∧ RegSpace.wf (.bar2 2) = false ∧ RegSpace.wf (.core 49) = false ∧
      RegSpace.wf (.bridge 6) = false := by decide
theorem test_command_ill_formed : Instr.wf (.add 192) = false ∧ Instr.wf (.flush ⟨0, 1, 0⟩ (2 ^ 32)) = false ∧
    Instr.wf (.abort ⟨0, 300, 0⟩ 0 0) = false ∧ Instr.wf (.portLinkUp 2) = false ∧ Instr.wf (.removalCounted 8) = false ∧
      Instr.wf (.functionLevelReset 1024) = false ∧ Instr.wf (.hearthDrainComplete 6) = false ∧
        Instr.wf (.getEndpointId 4) = false ∧ Instr.wf (.threadWake 16384) = false ∧ Instr.wf (.icuClaim 49) = false ∧
          Instr.wf (.emberRailLoss 8) = false ∧ Instr.wf (.shareUnitsIssued 32) = false ∧
            Instr.wf (.mailboxReceive 6) = false ∧ Instr.wf (.bridgeReadReturn 6) = false ∧
              Instr.wf (.handoffBufferPass 256 []) = false ∧ Instr.wf (.zqCalibrationTimer 64) = false ∧
                Instr.wf (.stagedCommit 31) = false ∧ Instr.wf (.icuNudge 8 0) = false := by decide
theorem test_command_well_formed : Instr.wf (.add 191) = true ∧ Instr.wf (.flush ⟨1023, 256, 65535⟩ 1) = true := by decide

/-! ## Small states -/

/-- A device that is up: every domain on, port 0 linked, function 0 enabled, recovery done. -/
def up : Dev :=
  { blw := { on := [.host, .data, .control, .memory], inReset := [], step := 9 }
    bot := { stage := 1 }
    nvm := { ready := true }
    hlk := { ports := [(0, { perst := false, ltssm := .l0, rate := 6, width := 16, flit := true })] }
    fnm := { fns := [(0, { ccEn := true, rdy := true, active := true })], activeCount := 1 } }

/-- A device with one fetched command. -/
def cmdDev (r : CmdRef) (d : Dev) : Dev := { d with nvm := { d.nvm with cmds := [{ ref := r, epoch := (d.fn r.fix).epoch }] } }

theorem waits_cmdDev (r : CmdRef) (d : Dev) : (cmdDev r d).waits r :=
  ⟨{ ref := r, epoch := (d.fn r.fix).epoch }, by simp [cmdDev, Dev.live, Dev.cmd, Dev.fn, Option.filter], rfl, rfl⟩

/-- Function 0's command 7 of I/O queue 1, and of the admin queue. -/
def io7 : CmdRef := ⟨0, 1, 7⟩
def adm7 : CmdRef := ⟨0, 0, 7⟩

theorem witness_waits : (cmdDev io7 up).waits io7 ∧ (cmdDev io7 up).ioMay io7 ∧ (cmdDev adm7 up).adminMay adm7 ∧
    (cmdDev adm7 up).pfMay adm7 ∧ (cmdDev adm7 up).nsMay adm7 :=
  ⟨waits_cmdDev _ _, by simp [Dev.ioMay, cmdDev, up], trivial, by simp [Dev.pfMay, Dev.isPf, adm7],
    by simp [Dev.nsMay, Dev.isPf, adm7, cmdDev, up]⟩

/-- Instance 5 with state `c` on context 8, at a word of its image. -/
def progWith (w : Nat) (c : Ctx) (im : Image) : Dev :=
  { up with
    drv := { up.drv with
      threads := [(1, { hearth := 0, state := .running, wb := some 5, ctx := some 8 })], ctxs := [(5, some c)]
      busy := [(8, some 1)] }
    hrt := { up.hrt with
      images := [(3, some { im with code := leBytes 8 w })], wbs := [{ id := 5, slot := 3, state := .running }] } }
def prog (w : Nat) (c : Ctx) : Dev := progWith w c {}

/-- Fields of a word with 8-byte lanes and no predicate. -/
def fw (op dst a b imm : Nat) : Fw :=
  { op := op, dst := dst, a := a, b := b, pg := false, pn := 0, esz := 3, idx := false, zero := false, sg := false, imm := imm }

/-- Whether the instruction at hand is of an opcode, with the instance's state and fields. -/
def atB (d : Dev) (ctx op id : Nat) (c : Ctx) (f : Fw) : Bool :=
  match d.fetch ctx op with
  | some (i, x, g, _) => decide (i = id ∧ x = c ∧ g = f)
  | none => false

theorem at_of_atB {d : Dev} {ctx op id : Nat} {c : Ctx} {f : Fw} (h : atB d ctx op id c f = true) : d.at ctx op id c f := by
  unfold atB at h
  split at h
  · rename_i i x g im e
    simp only [decide_eq_true_eq] at h
    obtain ⟨rfl, rfl, rfl⟩ := h
    exact ⟨im, e⟩
  · cases h

/-! ## Feresk -/

/-- Every opcode can be at hand: the condition of the statements on the scalar, vector and predicate instructions. -/
theorem witness_opcodes : ∀ op ∈ List.range 0x99, (prog (fw op 1 2 3 4).encode {}).at 8 op 5 {} (fw op 1 2 3 4) := by
  have h : ∀ op ∈ List.range 0x99, atB (prog (fw op 1 2 3 4).encode {}) 8 op 5 {} (fw op 1 2 3 4) = true := by decide +kernel
  exact fun op m => at_of_atB (h op m)

/-- Branches: each can be at hand taken and not taken (B is always taken). -/
def two : Ctx := { x := [(1, 5), (2, -1)], p := [(1, { psz := 0, mask := 1 })] }
theorem witness_branches_at : ∀ op ∈ [0x20, 0x21, 0x22, 0x23, 0x24, 0x25, 0x26, 0x27, 0x28], ∀ a ∈ [0, 1, 2],
    ∀ b ∈ [1, 2], (prog (fw op 0 a b 4).encode two).at 8 op 5 two (fw op 0 a b 4) := by
  have h : ∀ op ∈ [0x20, 0x21, 0x22, 0x23, 0x24, 0x25, 0x26, 0x27, 0x28], ∀ a ∈ [0, 1, 2], ∀ b ∈ [1, 2],
    atB (prog (fw op 0 a b 4).encode two) 8 op 5 two (fw op 0 a b 4) = true := by decide +kernel
  exact fun op m a ma b mb => at_of_atB (h op m a ma b mb)
theorem witness_branches : two.getX 1 = two.getX 1 ∧ two.getX 1 ≠ two.getX 2 ∧ (two.getX 2).toInt < (two.getX 1).toInt ∧
    ¬ (two.getX 1).toInt < (two.getX 2).toInt ∧ (two.getX 1).toNat < (two.getX 2).toNat ∧
      ¬ (two.getX 2).toNat < (two.getX 1).toNat ∧ (two.getP 1).mask ≠ 0 ∧ (two.getP 2).mask = 0 := by decide +kernel

/-- Loads, stores and atomics: addresses in x1 of W2 (valid) and of window 15 (not), aligned and not; every lane active. -/
def mem (a : Nat) : Ctx := { x := [(1, BitVec.ofNat 64 a)], scratch := 4096 }
theorem witness_memory_at : ∀ op ∈ [0x30, 0x31, 0x40, 0x41, 0x42, 0x43, 0x44, 0x90, 0x97, 0x98],
    ∀ a ∈ [0x2000000000, 0x2000000004, 0xF000000000],
    (prog (fw op 2 1 0 0).encode (mem a)).at 8 op 5 (mem a) (fw op 2 1 0 0) := by
  have h : ∀ op ∈ [0x30, 0x31, 0x40, 0x41, 0x42, 0x43, 0x44, 0x90, 0x97, 0x98],
    ∀ a ∈ [0x2000000000, 0x2000000004, 0xF000000000],
    atB (prog (fw op 2 1 0 0).encode (mem a)) 8 op 5 (mem a) (fw op 2 1 0 0) = true := by decide +kernel
  exact fun op m a ma => at_of_atB (h op m a ma)
theorem witness_memory : ∀ write ∈ [true, false],
    (mem 0x2000000000).valid 0x2000000000 8 write = true ∧ (mem 0xF000000000).valid 0xF000000000 8 write = false ∧
      (∀ k ∈ (mem 0x2000000000).activeLanes (fw 0x40 2 1 0 0), (mem 0x2000000000).valid (0x2000000000 + 8 * k) 8 write = true) ∧
      (¬ ∀ k ∈ (mem 0xF000000000).activeLanes (fw 0x40 2 1 0 0), (mem 0xF000000000).valid (0xF000000000 + 8 * k) 8 write = true) ∧
      ∀ k ∈ (mem 0x2000000000).activeLanes (fw 0x42 2 1 0 0),
        (mem 0x2000000000).valid ((mem 0x2000000000).laneAddr (fw 0x42 2 1 0 0) k) 8 write = true := by decide +kernel
theorem witness_atomics : 0x2000000000 % 8 = 0 ∧ 0x2000000004 % 8 ≠ 0 ∧ 0xF000000000 % 8 = 0 ∧
    (∀ k ∈ (mem 0x2000000000).activeLanes (fw 0x98 2 1 0 0), (mem 0x2000000000).laneAddr (fw 0x98 2 1 0 0) k % 8 = 0 ∧
      (mem 0x2000000000).valid ((mem 0x2000000000).laneAddr (fw 0x98 2 1 0 0) k) 8 true = true) ∧
    ((mem 0xF000000000).activeLanes (fw 0x98 2 1 0 0)).findSome? (fun k =>
      if (mem 0xF000000000).laneAddr (fw 0x98 2 1 0 0) k % 8 ≠ 0 then some 2
      else if (mem 0xF000000000).valid ((mem 0xF000000000).laneAddr (fw 0x98 2 1 0 0) k) 8 true = true then none else some 1) =
        some 1 := by decide +kernel

/-- Loops and calls: a loop of 0 trips and of more, loops with one trip and two left, stacks empty and not. -/
def looped (left : Nat) : Ctx := { x := [(1, 1)], loops := [⟨0, 8, left, 2, 3⟩], ret := [0x10000000008] }
def hereB (w : Nat) (c : Ctx) (op : Nat) : Bool := ((prog w c).fetch 8 op).isSome
theorem witness_loops : (∀ op ∈ [0x80, 0x81, 0x82, 0x83, 0x84, 0x85], ∀ c ∈ [{}, looped 1, looped 2, { x := [(1, 1)] }], ∀ a ∈ [0, 1],
      hereB (fw op 3 a 0 1).encode c op = true) ∧
    (let f := fw 0x80 3 0 0 1
     f.sg = false ∧ min ((looped 1).getX f.a).toNat (f.imm + 1) = 0 ∧ 0 < min ((looped 1).getX 1).toNat (f.imm + 1)) ∧
    (looped 2).loops = ⟨0, 8, 2, 2, 3⟩ :: [] ∧ (looped 1).getX 1 ≠ 0 ∧ (looped 1).getX 0 = 0 ∧
    (looped 1).ret = 0x10000000008 :: [] ∧ ({} : Ctx).loops = [] ∧ ({} : Ctx).ret = [] ∧ ({} : Ctx).firing = none := by
  decide +kernel

/-- A graph of node 0 with one edge from itself to itself: ready with a token, quiescent without, and in a firing. -/
def graphIm (init : Nat) : Image :=
  { graph := true, nodes := [{ inputs := 1, outputs := 1 }], edges := [{ capacity := 2, init := init }] }
theorem witness_graph :
    (let c : Ctx := { tokens := [(0, [7])] }
     let im := { graphIm 1 with code := leBytes 8 0 }
     let d := progWith 0 c (graphIm 1)
     d.instOn 8 = some 5 ∧ d.inst 5 = some c ∧ (d.wb 5).bind (fun w => d.image w.slot) = some im ∧ im.graph = true ∧
       c.firing = none ∧ c.quiescent = false ∧ c.block = .none ∧ c.readyNode im = some 0 ∧ (c.fire im 0).tokensGood im = true ∧
         (d.wb 5).map (·.state) = some .running) ∧
    (let c : Ctx := {}
     let im := { graphIm 0 with code := leBytes 8 0 }
     let d := progWith 0 c (graphIm 0)
     d.instOn 8 = some 5 ∧ d.inst 5 = some c ∧ (d.wb 5).bind (fun w => d.image w.slot) = some im ∧ c.readyNode im = none) ∧
    (let c : Ctx := { firing := some 0, consumed := [(0, 1)] }
     let w := (fw 0x85 0 0 0 0).encode
     let im := { graphIm 1 with code := leBytes 8 w }
     ((progWith w c (graphIm 1)).fetch 8 0x85).isSome = true ∧
       ({ (im.outOf 0).foldl Ctx.giveToken c with firing := none } : Ctx).retire.tokensGood im = true) := by decide +kernel

/-! ## Worked examples of the spec -/

/-- Chapter 9, the Harrowgate prefilter: five of its words. -/
theorem test_words :
    Fw.decode 0x804A000000000054 = ⟨0x80, 9, 8, 0, false, 0, 0, false, false, false, 84⟩ ∧
    Fw.decode 0x1252400400000300 = ⟨0x12, 10, 9, 0, false, 0, 0, true, false, false, 768⟩ ∧
    Fw.decode 0x421282100000000C = ⟨0x42, 2, 10, 1, false, 0, 2, false, false, false, 12⟩ ∧
    Fw.decode 0x4222833200000008 = ⟨0x42, 4, 10, 1, true, 1, 2, false, true, false, 8⟩ ∧
    Fw.decode 0x2800400000000003 = ⟨0x28, 0, 1, 0, false, 0, 0, false, false, false, 3⟩ := by decide +kernel

/-- Chapter 2, a fourth ingest function joins: 2,048 credits over three functions with ROT 0, and over four with ROT 2. -/
theorem test_shares : shareOut 2048 [5, 6, 7] 0 = [(5, 683), (6, 683), (7, 682)] ∧
    shareOut 2048 [5, 6, 7, 9] 2 = [(5, 512), (6, 512), (7, 512), (9, 512)] := by decide

/-- Chapter 1, write staging credits: BALANCED in epoch 41,001, DEFICIT in 41,002, which adds the credit to LOST. -/
def pool2 (issued returned held : Nat) : Pool := { capacity := 2048, issued := issued, returned := returned, held := held }
theorem test_tollgate : ((pool2 12486104 12484720 1384).latch 41001).state = .balanced := by decide
theorem test_tollgate_deficit : ((pool2 12492207 12490823 1383).latch 41002).state = .deficit ∧
    ((pool2 12492207 12490823 1383).latch 41002).lost = 1 := by decide

/-- CRC-32C and XXH64 of "123456789", from the publications of those standards. -/
theorem test_codes : crc32c ((List.range 9).map (fun i => BitVec.ofNat 8 (0x31 + i))) = 0xE3069283 ∧ xxh64 [] = 0xEF46DB3751D8E999 := by
  decide +kernel

/-- R304: header lengths at the ends of their ranges. -/
theorem test_frame_head : ([0, 255, 256, 65791, 65792, 8388608, 8388609, 67108864].map (fun n => (frameHead n).length)) =
    [6, 6, 7, 7, 9, 9, 10, 10] := by decide +kernel

/-- R267: division by zero gives all ones, and its remainder the dividend; DIV and REM truncate toward zero. -/
def xOf (o : Host.Outcome State Fault Refusal) (n : Nat) : Option (BitVec 64) := match o with
  | .next s => (s.dev.inst 5).map (fun c => c.getX n)
  | _ => none
def neg7 : Ctx := { x := [(2, BitVec.ofInt 64 (-7)), (4, 2)] }
theorem test_division : xOf (execDiv 8 { dev := prog (fw 0x15 1 2 3 0).encode neg7 }) 1 = some (BitVec.allOnes 64) ∧
    xOf (execRem 8 { dev := prog (fw 0x17 1 2 3 0).encode neg7 }) 1 = some (BitVec.ofInt 64 (-7)) ∧
    xOf (execDiv 8 { dev := prog (fw 0x15 1 2 4 0).encode neg7 }) 1 = some (BitVec.ofInt 64 (-3)) ∧
    xOf (execRem 8 { dev := prog (fw 0x17 1 2 4 0).encode neg7 }) 1 = some (BitVec.ofInt 64 (-1)) := by decide +kernel
/-- R267: ROR and SRA by 1, MULH of two negative numbers, CLZ of 0, EXT of a signed field. -/
theorem test_scalar :
    xOf (execRor 8 { dev := prog { fw 0x0E 1 2 0 1 with idx := true }.encode neg7 }) 1 = some 0xFFFFFFFFFFFFFFFC ∧
    xOf (execSra 8 { dev := prog { fw 0x0D 1 2 0 1 with idx := true }.encode neg7 }) 1 = some (BitVec.ofInt 64 (-4)) ∧
    xOf (execMulh 8 { dev := prog (fw 0x13 1 2 2 0).encode neg7 }) 1 = some 0 ∧
    xOf (execClz 8 { dev := prog (fw 0x19 1 0 0 0).encode neg7 }) 1 = some 64 ∧
    xOf (execExt 8 { dev := prog { fw 0x1D 1 2 0 0x0400 with sg := true }.encode neg7 }) 1 = some (BitVec.ofInt 64 (-7)) := by
  decide +kernel

/-! ## Service calls -/

/-- An instance with arguments `l` (register, value) that calls service `no` for Waybill `w`. -/
def args (l : List (Nat × Nat)) : Ctx := { x := l.map (fun p => (p.1, BitVec.ofNat 64 p.2)), scratch := 4096 }
def svcDev (no : Nat) (c : Ctx) (w : Waybill) : Dev :=
  let d := prog (fw 0x86 0 0 0 no).encode c
  { d with hrt := { d.hrt with wbs := [w] } }
def run5 : Waybill := { id := 5, slot := 3, state := .running }
def call (c : Ctx) (w : Waybill) : Call := ⟨8, 1, w, c⟩

def callsB (d : Dev) (n : Nat) (q : Call) : Bool :=
  (match d.fetch q.ctx 0x86 with
  | some (i, x, g, _) => decide (i = q.w.id ∧ x = q.c ∧ g.imm = n)
  | none => false) && decide (d.busyOf q.ctx = some q.th ∧ d.wb q.w.id = some q.w ∧ q.w.state ≠ .ending)

theorem calls_of_callsB {d : Dev} {n : Nat} {q : Call} (h : callsB d n q = true) : d.calls n q := by
  simp only [callsB, Bool.and_eq_true, decide_eq_true_eq] at h
  obtain ⟨h, h2, h3, h4⟩ := h
  split at h
  · rename_i i x g im e
    simp only [decide_eq_true_eq] at h
    obtain ⟨rfl, rfl, hn⟩ := h
    exact ⟨⟨g, im, e, hn⟩, h2, h3, h4⟩
  · cases h

/-- Every service call can be at hand, with any of these arguments. -/
theorem witness_calls : ∀ no ∈ List.range 10, ∀ x2 ∈ [0, 1, 4, 5, 240, 60000000, 60000001],
    (svcDev no (args [(2, x2), (3, x2)]) run5).calls no (call (args [(2, x2), (3, x2)]) run5) := by
  have h : ∀ no ∈ List.range 10, ∀ x2 ∈ [0, 1, 4, 5, 240, 60000000, 60000001],
    callsB (svcDev no (args [(2, x2), (3, x2)]) run5) no (call (args [(2, x2), (3, x2)]) run5) = true := by decide +kernel
  exact fun no m x2 m2 => calls_of_callsB (h no m x2 m2)

theorem witness_log_record : (∀ n ∈ [1, 240],
      let c := args [(2, 0x2000000000), (3, n)]
      callsB (svcDev 8 c run5) 8 (call c run5) = true ∧ c.arg 3 = n ∧ c.valid (c.arg 2) n false = true ∧
        run5.logs < (svcDev 8 c run5).tf 8 0x23 1) ∧
    (let c := args [(2, 0x2000000000), (3, 240)]
     let w := { run5 with logs := 255 }
     callsB (svcDev 8 c w) 8 (call c w) = true ∧ (svcDev 8 c w).tf 8 0x23 1 ≤ w.logs) ∧
    (let c := args [(2, 0xF000000000), (3, 240)]
     callsB (svcDev 8 c run5) 8 (call c run5) = true ∧ c.valid (c.arg 2) 240 false = false) := by decide +kernel

theorem witness_waits_of_tickets : (∀ x2 ∈ [0, 4],
      let c : Ctx := { args [(2, x2)] with tickets := [{ no := 4, ended := true }] }
      callsB (svcDev 7 c run5) 7 (call c run5) = true ∧ c.outstanding (c.arg 2) = true ∧ c.endedTicket x2 = some { no := 4, ended := true }) ∧
    (∀ x3 ∈ [0, 1, 60000000],
      let c : Ctx := { args [(2, 4), (3, x3)] with tickets := [{ no := 4 }] }
      callsB (svcDev 7 c run5) 7 (call c run5) = true ∧ c.arg 3 = x3 ∧ c.outstanding 4 = true ∧ c.endedTicket 4 = none) ∧
    (args [(2, 1)]).outstanding 1 = false := by decide +kernel

/-- Input: a chunk that is ready, the end of the input, and an input that is not at its end (extents of a namespace of 4,096-byte LBAs). -/
theorem witness_input : (let w := { run5 with ready := [2], cur := some 0 }
      callsB (svcDev 1 {} w) 1 (call {} w) = true) ∧
    (callsB (svcDev 1 {} run5) 1 (call {} run5) = true ∧ (svcDev 1 {} run5).inputDone run5 = true) ∧
    (let c : Ctx := { endOfInput := true }
     callsB (svcDev 1 c run5) 1 (call c run5) = true) ∧
    (let w := { run5 with extents := [(1, 0, 1)] }
     callsB (svcDev 1 {} w) 1 (call {} w) = true ∧ (svcDev 1 {} w).inputDone w = false) := by decide +kernel

/-- Output: the greatest emit with a second buffer free and with two buffers lent; no buffer and none free. -/
theorem witness_output : (∀ n ∈ [1, 65536],
      let c := args [(2, n)]
      let w := { run5 with outBuf := some 0, outLen := 100000 }
      callsB (svcDev 2 c w) 2 (call c w) = true ∧ c.arg 2 = n ∧ ((svcDev 2 c w).emitOut 5 n (w.emitAt c)).wb 5 ≠ none ∧
        (((svcDev 2 c w).emitOut 5 n (w.emitAt c)).freshOut 5).isSome = true ∧
        fullStop ((svcDev 2 c w).emitOut 5 n (w.emitAt c)) 5 = false) ∧
    (let c := args [(2, 65536)]
     let w := { run5 with outBuf := some 0, outLen := 100 }
     callsB (svcDev 2 c w) 2 (call c w) = true ∧ fullStop ((svcDev 2 c w).emitOut 5 65536 (w.emitAt c)) 5 = true) ∧
    (let c := args [(2, 65536)]
     let w := { run5 with outBuf := some 0, outLen := 100000, lent := [1] }
     callsB (svcDev 2 c w) 2 (call c w) = true ∧ (((svcDev 2 c w).emitOut 5 65536 0).wb 5).bind (fun w => w.outBuf) = none ∧
       ((svcDev 2 c w).emitOut 5 65536 0).freshOut 5 = none) ∧
    (let c := args [(2, 65536)]
     let w := { run5 with outLen := 100000, lent := [1, 2] }
     callsB (svcDev 2 c w) 2 (call c w) = true ∧ (svcDev 2 c w).freshOut 5 = none) ∧
    (let c := args [(2, 65537)]
     callsB (svcDev 2 c run5) 2 (call c run5) = true) := by decide +kernel

/-- Engines: a compression, a decompression, a search of a Tongs unit that the function holds, and an unkeyed digest. -/
theorem witness_engines :
    (∀ x2 ∈ [0x10, 0xC0, 0x01], ∀ x7 ∈ [0, 1],
      let c := args [(2, x2), (3, 0x2000000000), (4, 1024), (5, 0x2000000400), (6, 1024), (7, x7)]
      let d := svcDev 5 c run5
      callsB d 5 (call c run5) = true ∧ (b2n (bit x2 0) = 0 → 1 ≤ bitsOf x2 4 4 ∧ bitsOf x2 4 4 ≤ 12) ∧
        c.valid 0x2000000000 1024 false = true ∧ c.valid 0x2000000400 1024 true = true ∧
          ¬(c.arg 3 < c.arg 5 + c.arg 6 ∧ c.arg 5 < c.arg 3 + c.arg 4) ∧ (c.newTicket (bit x7 0)).isSome = true ∧
            d.aliveEngs 0 ≠ []) ∧
    (let c := args [(2, 15), (3, 0x2000000000), (4, 8), (5, 0x2000000200), (6, 0), (7, 1)]
     let e := svcDev 3 c run5
     let d : Dev := { e with tng := { e.tng with units := [(15, { fix := some 0 })] } }
     callsB d 3 (call c run5) = true ∧ c.valid 0x2000000000 256 false = true ∧ c.valid 0x2000000200 128 true = true ∧
       (d.tu 15).fix = some 0 ∧ (d.tu 15).releasing = false ∧ c.newTicket true = some 1 ∧ d.canIssue 24 0 1 = true) ∧
    (let c := args [(2, 0x103), (3, 0x2000000000), (4, 64), (5, 0), (6, 0), (7, 0)]
     let e := svcDev 4 c run5
     let d : Dev := { e with key := { e.key with locked := false } }
     callsB d 4 (call c run5) = true ∧ c.digesting = false ∧ bitsOf (c.arg 2) 0 4 < 4 ∧ bit (c.arg 2) 8 = true ∧
       bit (c.arg 2) 9 = false ∧ c.valid 0x2000000000 64 false = true ∧ d.key.locked = false ∧ c.newTicket false = some 0 ∧
         d.aliveEngs 1 ≠ []) := by decide +kernel

/-! ## Instances and threads -/

def wbDev (w : Waybill) (im : Image) (d : Dev) : Dev :=
  { d with hrt := { d.hrt with images := [(3, some im)], wbs := [w], hearths := [(2, { role := 1 })] } }

theorem witness_waybill_starts :
    (let w : Waybill := { id := 5, slot := 3, got := [20] }
     let d := wbDev w {} up
     d.wb 5 = some w ∧ d.image 3 = some {} ∧ w.state = .admitting ∧ 20 ∈ w.got ∧ d.canRead 0 0 = true) ∧
    (let w : Waybill := { id := 5, slot := 3, state := .waiting, got := [20, 21, 22, 17] }
     let d := wbDev w { fetched := true } up
     (∃ x ∈ d.hrt.wbs, x.slot = w.slot ∧ x.state = .waiting) ∧ (wbDev w {} up).image 3 = some {} ∧
       (∃ x ∈ (wbDev w {} up).hrt.wbs, x.slot = w.slot ∧ x.state = .waiting) ∧ d.wb 5 = some w ∧ d.image 3 = some { fetched := true } ∧
       w.state = .waiting ∧ 17 ∈ w.got ∧ 21 ∈ w.got ∧ 22 ∈ w.got ∧ d.startHearth = some 2 ∧ d.freeThread = some 0 ∧
         d.readyFull 2 = false) := by decide +kernel

theorem witness_waybill_input :
    let w : Waybill := { run5 with extents := [(1, 0, 1)] }
    let e := wbDev w {} up
    let d : Dev := { e with rdp := { e.rdp with grans := [{ id := 1, dest := .divert 5, stage := .deliver, count := 4096 }] } }
    let l := d.divertReads 5
    let hi := min (w.pos + 65536) (d.inputLen w.extents)
    d.wb 5 = some w ∧ w.pos < d.inputLen w.extents ∧ hi ≤ readyTo l 0 ∧
      w.state = .running ∧ w.ready.length + (if w.cur.isSome = true then 1 else 0) < 2 ∧
      (d.nextBuf w { owner := .control, wb := 5, kind := 1, bytes := inputBytes l 0 hi
                     extent := (d.extentOf w.extents 0).1, offset := (d.extentOf w.extents 0).2 }).isSome = true := by decide +kernel
theorem witness_verdicts (v : Option (Bool × Nat × GEntry)) :
    let w : Waybill := { run5 with verdicts := [(1, 2, v)] }
    (wbDev w {} up).wb 5 = some w ∧ w.verdicts.find? (fun v => v.1 = 1) = some (1, 2, v) := ⟨rfl, rfl⟩
theorem witness_waybill_runs :
    (prog 0 {}).wbRuns 5 = true ∧
    (let w : Waybill := { run5 with state := .ending }
     let d := prog 0 {}
     let d : Dev := { d with hrt := { d.hrt with wbs := [w] } }
     d.wb 5 = some w ∧ d.wbRuns 5 = true) ∧
    (let w : Waybill := { run5 with overtime := true }
     (wbDev w {} up).wb 5 = some w) ∧
    (let c : Ctx := { tickets := [{ no := 1, unitDone := true }] }
     ((prog 0 c).inst 5).bind (fun c => c.ticket 1) = some { no := 1, unitDone := true }) ∧
    (let w : Waybill := { run5 with state := .ending }
     let d := wbDev w {} up
     d.wb 5 = some w ∧ d.inst 5 = none ∧ w.verdicts = [] ∧ w.lent = []) ∧
    (let d : Dev := { up with hrt := { up.hrt with hearths := [(5, { role := 2 })] } }
     d.hearthRole 5 = 2 ∧ d.instancesOn 5 = 0) ∧
    (let hit := ((prog 0 {}).transition (uid 1 (8 / 4)) .degraded .hardware).privEvent (8 / 4) 2
     (hit.busyOf 8).bind (fun n => (hit.thread n).wb) = some 5) := by decide +kernel


/-- The Drover with given threads, contexts and Hearths. -/
def drvDev (ts : FMap Thread) (busy : FMap (Option Nat)) (hs : FMap DrvH) : Dev :=
  { up with drv := { up.drv with threads := ts, busy := busy, hs := hs } }
def allBusy : FMap (Option Nat) := (List.range 32).map (fun i => (i, some (7 + i % 2)))

theorem witness_drover :
    (up.domOn .control = true ∧ up.canCreate 5 0 = true ∧ up.canCreate 0 (2 ^ 20 - 1) = true) ∧
    (let d := drvDev [] [] [(5, { ready := [(63, List.replicate 4096 9)] })]
     d.domOn .control = true ∧ d.canCreate 5 0 = false) ∧
    (let d := drvDev [(9, { state := .ready })] [] [(5, { ready := [(0, []), (63, [9])] })]
     d.busyOf 191 = none ∧ d.domOn .control = true ∧ (d.dh (hearthOf 191)).top = some (63, 9)) ∧
    (let d := drvDev [(6, { state := .ready }), (7, { state := .running, level := 1 }), (8, { state := .running })] allBusy
       [(0, { ready := [(0, [6])] })]
     (d.dh 0).top = some (0, 6) ∧ d.victim 0 = some 7 ∧ d.hearthRole 0 = 0 ∧
       (∀ c ∈ ctxsOf 0, (d.busyOf c).isSome = true) ∧ 0 < (d.thread 7).level ∧ (d.thread 7).wb = none) ∧
    (let d := drvDev [(7, { state := .running, flow := 3, ticket := some 1 })] [] []
     (d.thread 7).state = .running ∧ (d.thread 7).ticket.isSome = true ∧ (d.thread 7).wb = none) ∧
    (let d := drvDev [(7, { state := .running, hearth := 1, flow := 3 })] [] [(0, { flowNext := some 2 })]
     (d.dh 0).flowNext = some 2 ∧ ∀ p ∈ d.drv.threads, p.2.state = .free ∨ p.2.hearth ≠ 0 ∨ p.2.flow = 0) := by
  decide +kernel

theorem witness_wakes :
    (up.drv.now ≤ 8 ∧ 8 % (up.dh 5).tickA = 0 ∧ up.domOn .control = true) ∧
    (let d := drvDev [] [] [(0, { delay := [{ expiry := 0, thread := 7 }] })]
     (d.dh 0).delay = { expiry := 0, thread := 7 } :: [] ∧ 0 ≤ d.drv.now / (d.dh 0).tickA * (d.dh 0).tickA ∧
       d.readyFull 0 = false) ∧
    (let e := prog 0 {}
     let d : Dev := { e with drv := { e.drv with threads := [(1, { state := .waiting, wb := some 5 })] } }
     (d.thread 1).state = .waiting ∧ (d.thread 1).release = false ∧ (d.thread 1).wb = some 5 ∧ d.inst 5 = some {} ∧
       d.wb 5 = some run5) ∧
    (let d := drvDev [(1, { state := .waiting })] [] []
     (d.thread 1).state = .waiting ∧ (d.thread 1).release = false ∧ (d.thread 1).wb = none ∧ (d.thread 16383).state = .free) ∧
    (∀ st ∈ [ThState.waiting, .running, .ready],
      let d := drvDev [(1, { state := st, wb := some 5 })] [] []
      (d.thread 1).state = st ∧ (d.thread 1).wb = some 5) := by decide +kernel

/-! ## Queues and I/O commands -/

/-- Function 0 with a submission and a completion queue 1, one command slot of its share, and a message vector 0. -/
def qDev (f : Fn) : Dev :=
  { up with
    fnm := { up.fnm with fns := [(0, { f with ccEn := true, rdy := true })] }
    tol := { up.tol with pools := [(0, { poolInit 128 0 with shares := [(0, { share := 1 })] })] } }
theorem witness_queues :
    (let d := qDev { sqs := [(1, some { size := 64 })] }
     d.doorbellTaken 0 = true ∧ (d.fn 0).sq 1 = some { size := 64 } ∧ 63 < 64) ∧
    (let c : Cq := { size := 64, tail := 3 }
     let d := qDev { cqs := [(1, some c)] }
     d.doorbellTaken 0 = true ∧ (d.fn 0).cq 1 = some c ∧ c.inSpan 3 = true ∧ c.inSpan 0 = true) ∧
    (let q : Sq := { size := 64, tail := 1, ready := true }
     let d := qDev { sqs := [(1, some q)] }
     d.qen.drr.next entryBytes d.fetchable = some (0, { cur := 0, deficit := quantum - 64 }) ∧
       (d.fn 0).pickSq (decide (0 = d.qen.drr.cur ∧ entryBytes ≤ d.qen.drr.deficit)) = some (1, q) ∧
         d.cmd ⟨0, 1, 65535⟩ = none) ∧
    ((qDev { vecs := [(0, { timer := true })] }).fn 0 |>.vec 0).timer = true ∧
    (let d := qDev { shst := 1, cqs := [(1, some {})] }
     (d.fn 0).shst = 1 ∧ (∀ c ∈ d.nvm.cmds, c.ref.fix = 0 → c.job = .aer) ∧
       (d.fn 0).holdsFor none = false) := by decide +kernel

/-- Namespace 1: 64 LBAs of 4,096 bytes, attached to function 0; the key store is open, and every reclaim pool has free blocks. -/
def ns1 : Ns := { granules := 8, nsze := 64, attached := [0], ready := true }
def ioDev (r : CmdRef) : Dev :=
  let d := cmdDev r up
  { d with
    key := { d.key with locked := false }
    nvm := { d.nvm with nss := [(1, some ns1)] }
    map := { d.map with qf := 100000 }
    mnf := { d.mnf with units := (List.range 8).map (fun g => (uid 5 g, { state := .alive })) } }

/-- Whether a check ends with a status or with a namespace and key. -/
def okB {α : Type} [DecidableEq α] (r : Except Status α) (x : α) : Bool := match r with
  | .ok y => decide (y = x)
  | .error _ => false
def errB {α : Type} (r : Except Status α) (st : Status) : Bool := match r with
  | .ok _ => false
  | .error e => decide (e = st)
theorem eq_of_okB {α : Type} [DecidableEq α] {r : Except Status α} {x : α} (h : okB r x = true) : r = .ok x := by
  cases r <;> simp_all [okB]
theorem eq_of_errB {α : Type} {r : Except Status α} {st : Status} (h : errB r st = true) : r = .error st := by
  cases r <;> simp_all [errB]

theorem witness_io :
    (let d := (ioDev io7).ran io7
     okB (d.transferFor io7 1 63 1 none false .toHost .prp .prp) (ns1, 0) = true ∧
     okB (d.transferFor io7 1 0 64 none true .toDevice .prp .prp) (ns1, 0) = true ∧
     errB (d.transferFor io7 1 63 2 none false .toHost .prp .prp) .lbaOutOfRange = true ∧
     errB (d.transferFor io7 1 0 1 (some 1) true .toDevice .prp .prp) .invalidField = true ∧
     okB (d.rangeFor io7 1 0 64 false) ns1 = true ∧ okB (d.rangeFor io7 1 0 64 true) ns1 = true ∧
     okB (d.keyRefFor ns1 1 none) 0 = true ∧ d.key.locked = false ∧ okB (d.nsFor io7 1) ns1 = true ∧
     sglCheck .toDevice .prp (16 * 256) none = none ∧ ns1.resv.mayWrite (d.hostOf 0) = true) := by decide +kernel
theorem witness_write : ((ioDev io7).ran io7).stageCheck ns1 1 none (parts (lbasPer ns1.lbaf) 0 8).length = none := by
  decide +kernel

/-! ## The write and the read pipeline, the media -/

def wDev (g : WGran) : Dev := { up with wrp := { up.wrp with grans := [g] }, key := { up.key with locked := false } }
/-- Table 0x03 with one ladder, of two rungs. -/
def ladder : Bytes := List.replicate 0x27 0 ++ [1] ++ List.replicate 12 0 ++ [2] ++ List.replicate 100 0
def rDev (g : RGran) : Dev :=
  { up with rdp := { up.rdp with grans := [g] }, nvm := { up.nvm with policy := [(3, some ladder)] } }

theorem witness_write_pipeline :
    (let d := wDev { id := 1, gtag := 7 }
     d.wrp.grans.find? (fun h => decide (h.gtag = 7 ∧ h.stage = .locked)) = some { id := 1, gtag := 7 }) ∧
    (∀ x ∈ [(0, WStage.compress), (1, .encrypt)], ∀ lane ∈ [0, 15],
      let g : WGran := { id := 1, stage := x.2 }
      let d := wDev g
      d.laneFree x.1 lane = true ∧ ((fget d.wrp.drr {} x.1).next 32768 (d.laneWork x.1)).map (·.1) = some 0 ∧
        d.wrp.grans.find? (fun g => g.readyFor x.1 && decide (g.ref.fix = 0)) = some g) ∧
    (let g : WGran := { id := 1, stage := .compress, lane := some 15 }
     (wDev g).wrp.grans.find? (fun g => decide (g.stage = .compress ∧ g.lane = some 15)) = some g) ∧
    (let g : WGran := { id := 1, stage := .encrypt, lane := some 15 }
     let e := wDev g
     let d : Dev := { e with mxt := { e.mxt with lanes := [(15, { keys := [(0, 0)] })] } }
     d.laneHasKey 15 = true ∧ d.laneW 15 = some g ∧ d.mxt.railMismatch < 2 ^ 32 ∧ e.laneKey 15 = some (0, 0) ∧ e.laneHasKey 15 = false ∧ e.key.locked = false) ∧
    (let d := up.modPool 2 (fun q => { q with granted := [⟨0, 1, .wgran 1⟩] })
     (d.takeGrant 2 (.wgran 1)).isSome = true) ∧
    (let d := up.modPool 3 (fun q => { q with granted := [⟨0, 1, .rgran 1⟩] })
     (d.takeGrant 3 (.rgran 1)).isSome = true) ∧
    (∀ st ∈ [WStage.parity, .qlcCopy], ∀ pga ∈ [0, 7],
      let d := wDev { id := 1, stage := st, pga := pga }
      d.wg 1 = some { id := 1, stage := st, pga := pga } ∧ d.canIssue 4 0 1 = true) ∧
    (let d : Dev := { up with par := { up.par with stripes := [{ k := 511, b := 8159, u := 0 }] } }
     d.stripe 511 8159 0 = some { k := 511, b := 8159, u := 0 }) := by decide +kernel

theorem witness_read_pipeline :
    (let g : RGran := { id := 1, stage := .media, tag := true }
     let d := (rDev g).modDie 0 (fun x => { x with reads := [1] })
     d.rg 1 = some g ∧ d.dieReads (pgaDie g.entry.pga) (pgaBlock g.entry.pga) = true ∧ (d.serveRead g).isSome = true) ∧
    (let g : RGran := { id := 1, stage := .media, tag := true, entry := ⟨pgaOf 0 3 9 0, 32⟩ }
     let d := (rDev g).modDie 3 (fun x => { x with reads := [1], op := some { block := 8, suspended := 2, reads := 3 } })
     d.rg 1 = some g ∧ d.dieReads (pgaDie g.entry.pga) (pgaBlock g.entry.pga) = true ∧ (d.serveRead g).isSome = true) ∧
    (∀ x ∈ [(1, 8), (2, 8), (3, 9)],
      let g : RGran := { id := 1, stage := .decode, cws := [⟨x.1, 0, false⟩], lane := some 7 }
      let d := rDev g
      d.rg 1 = some g ∧ (g.cw 0).ok = false ∧ (g.cw 0).step = x.1 ∧ d.canIssue x.2 0 1 = true ∧ g.lane = some 7 ∧
        d.canRead (pgaDie g.entry.pga) (pgaBlock g.entry.pga) = true ∧ (g.cw 0).rung + 1 < d.rungCount g.entry.pga) ∧
    (∀ found ∈ [[], [(7, Found.soft 7 3 false)]],
      let g : RGran := { id := 1, stage := .rebuild, lane := some 511, cws := [⟨4, 0, false⟩] }
      let e := (List.range 8).foldl (fun d g => d.modUnit (uid 4 (64 * g)) (fun u => { u with state := .alive })) (rDev g)
      let d := (List.range 8).foldl (fun d g => d.modUnit (uid 5 g) (fun u => { u with state := .alive })) e
      let m := d.memberOf g.entry 0
      let r := d.readStripe m.1 m.2.1 m.2.2.2 (pgaMode g.entry.pga) found
      d.rg 1 = some g ∧ (g.cw 0).ok = false ∧ (g.cw 0).step = 4 ∧ d.othersRead m.1 m.2.1 m.2.2.2 = true ∧
        r.1.canRebuild m.1 m.2.1 m.2.2.1 m.2.2.2 r.2 = true) ∧
    (∀ x ∈ [(2, 16, RStage.decrypt), (2, 31, .decrypt), (3, 0, .decompress), (3, 15, .decompress), (4, 7, .decode),
        (5, 511, .rebuild)],
      let g : RGran := { id := 1, stage := x.2.2, cws := [⟨3, 0, false⟩] }
      let d := rDev g
      d.laneFree x.1 x.2.1 = true ∧ ((fget d.wrp.drr {} x.1).next 32768 (d.laneWork x.1)).map (·.1) = some 0 ∧
        d.rdp.grans.find? (fun g => d.readyFor g x.1 && decide (g.ref.fix = 0)) = some g) ∧
    (let g : RGran := { id := 1, stage := .decrypt, lane := some 31, key := some (0, []) }
     let e := rDev g
     let d : Dev := { e with mxt := { e.mxt with lanes := [(31, { keys := [(0, 0)] })] } }
     d.laneHasKey 31 = true ∧ d.laneR 31 = some g ∧ d.mxt.railMismatch < 2 ^ 32) ∧
    (let g : RGran := { id := 1, stage := .decompress, lane := some 15 }
     let d := rDev g
     let s := d.content g.entry
     d.rdp.grans.find? (fun g => decide (g.stage = .decompress ∧ g.lane = some 15)) = some g ∧ d.rdp.reconA = true ∧
       g.keyRefused s (s.headOk g.gtag []) = false ∧ (s.verdict g.gtag none [] []).1 = .other) ∧
    (let g : RGran := { id := 1, stage := .deliver, epoch := 1 }
     let d := rDev g
     d.nextDma.map (·.1) = some g ∧ g.epoch = (d.fn g.ref.fix).epoch) := by decide +kernel

/-- A granule of zeros under an empty key reaches a decompression lane as it was written, and passes. -/
theorem witness_read_passes :
    let g : RGran := { id := 1, stage := .decompress, lane := some 15, key := some (0, []) }
    let e := rDev g
    let d : Dev := { e with mch := { e.mch with stored := [(0, some (zeroGran (List.replicate 32768 0)))] } }
    d.rdp.grans.find? (fun g => decide (g.stage = .decompress ∧ g.lane = some 15)) = some g ∧
      g.keyRefused (d.content g.entry) ((d.content g.entry).headOk g.gtag []) = false ∧
        ((d.content g.entry).verdict g.gtag (g.key.map (·.2)) [] []).1 = .pass :=
  ⟨by decide +kernel, by decide +kernel, zeroGran_passes⟩

theorem witness_dies :
    (let d := up.modGrp 7 (fun c => { c with pgood := true, drivers := true })
     let top := (d.srcEvent (96 + 63)).mch.maxRateA
     (d.grp (63 / 8)).pgood = true ∧ (d.grp (63 / 8)).drivers = true ∧
       ((List.range (top + 1)).reverse).find? (fun r => decide (r ∈ [0, 3])) = some 3 ∧
         ((List.range (top + 1)).reverse).find? (fun r => decide (r ∈ ([] : List Nat))) = none) ∧
    (let d := (up.modChan 63 (fun c => { c with trained := true })).modUnit (uid 3 63) (fun u => { u with state := .alive })
     (d.chan 63).trained = true ∧ (d.unit (uid 3 63)).state = .alive ∧ 10 < (11 - (d.chan 63).trainTj).natAbs) ∧
    (∀ o ∈ ([{ kind := .pslcProgram }, { kind := .program }, { kind := .erase }, { kind := .erase, suspended := 1 },
        { kind := .program, suspended := 2, reads := 4 }] : List DieOp),
      let d := up.modDie 4095 (fun x => { x with op := some o })
      (d.die 4095).op = some o ∧ (o.reads = 4 → d.mch.suspMaxReadsA ≤ o.reads) ∧
        ((d.die 4095).timeouts.filter (fun t => 0 < t + 60000000)).length < 3 ∧
        ((((d.modChan (chanOf 4095) (fun c => { c with timeouts := satAdd 32 c.timeouts 1 })).tell .dieReset 4095 0).modDie 4095
          (fun x => { x with timeouts := [0] })).die 4095).op = some o) ∧
    (let d := up.modDie 0 (fun x => { x with op := some { kind := .pslcProgram } })
     ((d.endOp 0).modChan (chanOf 0) (fun c => { c with programs := c.programs + 1 })).stripe (colOf 0) 0 0 = none) := by
  decide +kernel

/-- A device with blocks of the table, of which pool 6 counts all as held. -/
def blkDev (l : FMap Block) : Dev :=
  let d := up.modPool 6 (fun q => { q with capacity := 100, held := 100, issued := 100 })
  { d with map := { d.map with blocks := l } }

theorem witness_map_and_recovery :
    (let d := up.setItem 2 5 { there := true }
     (d.item 2 5).cached = false ∧ (d.item 2 5).there = true ∧ d.flushesFirst = false ∧ d.itemReads (d.item 2 5) = true ∧
       (d.roomFor (d.itemChunks 2 5) 1048576).isSome = true) ∧
    (let k : Block := { state := 2, mode := 2, valid := 1 }
     let d := blkDev [(8160 * 7 + 5, k)]
     d.freeBelow d.gcStartBp = true ∧ leastValid (d.gcCandidates 0) = some (8160 * 7 + 5, k) ∧ k.valid ≠ 0) ∧
    (∀ x ∈ [(0, 1), (1, 2), (2, 3)], ∀ v ∈ [0, 1],
      let k : Block := { state := 2, mode := 2, use := x.2, valid := v }
      let d := blkDev [(8160 * 7 + 5, k)]
      d.freeBelow d.gcStartBp = true ∧ leastValid (d.gcCandidates x.1) = some (8160 * 7 + 5, k)) ∧
    (let k : Block := { state := 2, valid := 1 }
     let d := blkDev [(3, k)]
     d.pslcSize * d.tf 2 0x28 1 ≤ d.pslcHeld * 100 ∧ d.oldestPslc = some (3, k)) ∧
    (up.nvm.ready = true ∧ up.nvm.noSuperblock = false) ∧
    (bit (up.tf 4 0x20 4) 0 = true ∧ up.domOn .data = true ∧
      ∀ p ∈ up.zoneBlocks up.oldestZone, up.canRead p.1 p.2 = true) ∧
    (let d : Dev := { up with nvm := { up.nvm with ready := false } }
     d.domOn .data = true ∧ d.nvm.ready = false ∧ d.jrn.step = 0 ∧ d.losePending.jrn.sbOk = true ∧
       ∀ p ∈ d.losePending.jrn.supers, p.1 ≤ 1) ∧
    (let d : Dev := { up with jrn := { up.jrn with step := 2 } }
     d.jrn.step = 2 ∧ d.admitting = false) ∧
    (let d : Dev := { up with jrn := { up.jrn with step := 3 } }
     d.jrn.step = 3 ∧ d.bot.stage = 1) := by decide +kernel
/-- A leaf is flushed to a set that is open for map pages. -/
theorem witness_map_flush :
    let e := (List.range 8).foldl (fun d g => d.modBlk (dieOf 0 g) 9 (fun k => { k with state := 1, use := 2 }))
      (up.setItem 0 5 { dirty := true, cached := true })
    e.flushable 0 5 = true ∧ e.flushTurn 0 5 = true ∧ (e.placePages 0 9 0 2 1).isSome = true := by decide +kernel

/-! ## Tongs, admin commands, namespaces, reservations -/

/-- A device with command `r` fetched and Tongs unit 15 in a given state. -/
def tDev (r : CmdRef) (u : TUnit) : Dev := let d := cmdDev r up; { d with tng := { d.tng with units := [(15, u)] } }
def tBytes : Bytes := leBytes 20 5 ++ leBytes 20 7 ++ leBytes 2 9 ++ leBytes 2 1 ++ leBytes 4 3 ++ zeroBytes 16
def tE (prio : Nat) : TEntry := { value := 5, mask := 7, prio := prio }

theorem witness_tongs_commands :
    (let d := (tDev io7 {}).ran io7
     d.tongsWaits io7 15 = false ∧ (d.tu 15).foreign 0 = false ∧ (tValid (d.tu 15).table).length + (0 + 1) ≤ 65536 ∧
       (d.tu 15).sorted = true ∧ (d.tu 15).fix = none) ∧
    (tBytes.length = 64 * (0 + 1) ∧ ptrWalk .prp .toDevice = none ∧ ptrWalk .prp .toHost = none ∧
      ptrLengthBad .prp 64 = false ∧ tFirstFaulty tBytes 1 = none) ∧
    (let d := (tDev io7 { fix := some 0 }).ran io7
     d.tongsWaits io7 15 = false ∧ (d.tu 15).foreign 0 = false ∧ (d.tu 15).fix = some 0) ∧
    (let e := tDev io7 { fix := some 0, releasing := true }
     let d := e.modCmd io7 (fun c => { c with job := .tongsRelease 15 })
     (d.tu 15).releasing = true ∧ (d.tu 15).searches = [] ∧
       ((d.modTu 15 TUnit.cleared).nvm.cmds.find? (fun c => c.job = .tongsRelease 15)).isSome = true) := by decide +kernel
theorem witness_tongs_slots :
    (∀ l ∈ [[TUpdate.write 65535 (tE 1), .free 0], [.move 1 2, .free 0]],
      ((tDev io7 { updates := l }).tu 15).updates = l ∧ ((tDev io7 { updates := l }).tu 15).updateTurn = true) ∧
    (∀ q ∈ ([{ keys := [5, 6] }, { stepping := true, begun := true },
        { stepping := true, begun := true, set := [0, 65535], limit := 2 }] : List TSearch),
      ((tDev io7 { searches := [q] }).tu 15).searches = [q] ∧ ((tDev io7 { searches := [q] }).tu 15).searchTurn = true) ∧
    (up.domOn .control = true ∧ (up.tu 15).scrub + 1 < 65536) := by decide +kernel

/-- The example of chapter 10: routes A to E are spread; F, G and H go in by priority. -/
theorem test_tongs_spread : spread ([500, 300, 300, 300, 100].map tE) =
    [.write 0 (tE 500), .write 13056 (tE 300), .write 26112 (tE 300), .write 39168 (tE 300), .write 52224 (tE 100)] := by
  decide +kernel
def tTable : TTable :=
  [(0, some (tE 500)), (13056, some (tE 300)), (26112, some (tE 300)), (39168, some (tE 300)), (52224, some (tE 100))]
/-- F goes to 39,169 and G to 1; H takes index 0 after two moves. -/
theorem test_tongs_insert : tInsertions tTable [tE 300] = [.write 39169 (tE 300)] ∧ tInsertions tTable [tE 400] = [.write 1 (tE 400)] ∧
    tInsertions (tPut tTable 1 (some (tE 400))) [tE 600] = [.move 1 2, .move 0 1, .write 0 (tE 600)] := by decide +kernel

theorem witness_admin :
    (let f : Fn := { cqs := [(1, some {})] }
     ((qDev f).fn 0).sq 1 = none ∧ (((qDev f).fn 0).cq 1).isSome = true ∧ ((qDev {}).fn 0).cq 256 = none) ∧
    (let f : Fn := { sqs := [(0, some {}), (1, some { cqid := 1 })], cqs := [(1, some {}), (2, some {})] }
     (((qDev f).fn 0).sq 1).isSome = true ∧ ((qDev f).fn 0).cq 2 = some {} ∧
       ∀ p ∈ ((qDev f).fn 0).sqs, ∀ x ∈ p.2, p.1 = 0 ∨ x.cqid ≠ 2) ∧
    (up.logPage 0 0x80).isSome = true ∧
    (match up.identify72 0 2 0 0 with
      | .ok _ => true
      | .error _ => false) = true ∧
    ((cmdDev adm7 up).ran adm7).cmd ⟨0, 1, 9⟩ = none ∧
    (let e := cmdDev adm7 up
     let d : Dev := { e with nvm := { e.nvm with cmds := e.nvm.cmds ++ [{ ref := ⟨0, 0, 9⟩, job := .aer }] } }
     ((d.ran adm7).cmd ⟨0, 0, 9⟩).map (·.job) = some .aer) ∧
    ((qDev { events := [(0, 1, 2)] }).fn 0).events = [(0, 1, 2)] ∧
    (((qDev { aers := List.replicate 7 adm7 }).fn 0).events = [] ∧ ((qDev { aers := List.replicate 7 adm7 }).fn 0).aers.length < 8) ∧
    up.nvm.selfTest.running = 0 ∧
    (let d : Dev := { up with nvm := { up.nvm with selfTest := { running := 2 } } }
     d.nvm.selfTest.running ≠ 0) ∧
    (qDev {}).canShutDown 0 = true ∧ (1 ≤ 256 ∧ 256 ≤ 256 ∧ 2 ≤ 65536 ∧ 65536 ≤ 65536) := by decide +kernel

/-- A device with an admin command and namespace 1. -/
def nsDev (n : Ns) : Dev :=
  let d := cmdDev adm7 up
  { d with key := { d.key with locked := false }, nvm := { d.nvm with nss := [(1, some n)] } }
theorem witness_namespaces :
    (let d := (nsDev ns1).ran adm7
     d.nvm.noSuperblock = false ∧ d.canIssue 29 0 1 = true ∧ d.freeNsid = some 2 ∧ d.key.locked = false ∧
       (lowestRun d.map.rootUsed (ceilDiv (ceilDiv 1 (lbasPer 5)) (2 ^ 20))).isSome = true ∧
       d.nsNamed 1 = [1] ∧ d.nsNamed 0xFFFFFFFF ≠ [] ∧ d.formatting [1] = false ∧ d.ns 1 = some ns1 ∧
       ns1.resv.mayWrite (d.hostOf 0) = true ∧ d.ctrlListBad [0] = false ∧ ns1.ready = true ∧ ∀ f ∈ [0], f ∈ ns1.attached) ∧
    (let n : Ns := { ns1 with attached := [] }
     let d := (nsDev n).ran adm7
     d.ns 1 = some n ∧ d.ctrlListBad [0] = false ∧ (∀ f ∈ [0], f ∉ n.attached) ∧ n.attached = [] ∧ [0].length ≤ 1) ∧
    (let d : Dev := { up with jrn := { up.jrn with ring := [{ ty := 6, b := 3, a := 1 }] } }
     d.jrn.ring.find? (fun r => !r.durable) = some { ty := 6, b := 3, a := 1 }) ∧
    (∀ k ∈ [1, 2],
      let e := (cmdDev adm7 up).modCmd adm7 (fun c => { c with job := .sanitize })
      let d : Dev := { e with nvm := { e.nvm with sanitize := k, sanPhase := 2 } }
      (d.live adm7).map (·.job) = some .sanitize ∧ d.live adm7 = d.cmd adm7 ∧ d.nvm.sanitize = k ∧ d.startedLeft = false ∧
        d.hrt.wbs = [] ∧ d.nvm.sanPhase = 2 ∧ d.sanitizeDone = true) := by decide +kernel
theorem witness_namespace_may : (nsDev ns1).waits adm7 ∧ (nsDev ns1).nsMay adm7 ∧ (nsDev ns1).key.locked = false :=
  ⟨⟨{ ref := adm7, epoch := 1 }, by decide +kernel⟩, ⟨by decide +kernel, by decide +kernel, by decide +kernel⟩, by decide +kernel⟩

theorem witness_reservations :
    (let d := (nsDev ns1).ran adm7
     d.ns 1 = some ns1 ∧ ns1.ready = true ∧ 0 ∈ ns1.attached ∧ ns1.resv.keys.find? (fun k => k.1 = d.hostOf 0) = none ∧
       ns1.resv.knows (d.hostOf 0) 5 = false ∧ ns1.resv.rtype = 0) ∧
    (∀ ty ∈ [0, 1, 6],
      let r : Resv := { rtype := ty, keys := [(0, 0, 5)] }
      let n : Ns := { ns1 with resv := r }
      let d := (nsDev n).ran adm7
      d.ns 1 = some n ∧ r.keys.find? (fun k => k.1 = d.hostOf 0) = some (0, 0, 5) ∧ r.knows (d.hostOf 0) 5 = true ∧
        (ty ≠ 0 → r.holds (d.hostOf 0) = true)) ∧
    sglCheck .toHost .prp 64 none = none := by decide +kernel

/-! ## Vendor commands, firmware, keys and engines -/

/-- Table 0x01 of the factory with SEQUENCE 1 and its CRC. -/
def table1 : Bytes :=
  let t := overlay (factoryTable false 1) 8 (leBytes 8 1)
  overlay t 0x1C (leBytes 4 (crc32c (overlay t 0x1C (zeroBytes 4))))
theorem witness_policy : let d := ((cmdDev adm7 up).ran adm7).hostRead 0 table1.length
    policyCheck d 1 table1.length (padTo table1.length table1) = (.success, 0) ∧ table1.length % 8 = 0 ∧
    32 ≤ table1.length ∧ table1.length ≤ 65536 ∧
    (policyCheck d 1 table1.length (factoryTable false 1)).1 ≠ .success := by decide +kernel

/-- A Waybill for image handle 4,099 (slot 3) over all of namespace 1, with 2^40 bytes of output by PRP. -/
def waybill : Bytes := padTo 256 (fields [(2, 1), (2, 0), (4, 4099), (1, 1), (1, 0), (2, 0), (4, 3600000), (16, 0), (8, 2 ^ 40), (8, 64),
  (8, 0), (8, 0), (64, 0), (8, 63 * 2 ^ 50)])
def imgDev (im : Image) : Dev := let d := ioDev io7; { d with hrt := { d.hrt with images := [(3, some im)] } }
theorem witness_compute_submit :
    (((imgDev { handle := 4099 }).ran io7).hostRead 0 256).waybillCheck 0 64 waybill .prp = none ∧
    (((imgDev { handle := 4099 }).ran io7).hostRead 0 256).waybillCheck 0 65 waybill .prp = some (.waybillInvalid, 0) ∧
    (((imgDev {}).ran io7).hostRead 0 256).waybillCheck 0 64 waybill .prp = some (.imageHandleInvalid, 0) := by decide +kernel

/-- An image of one instruction, SVC 9. -/
def nolob : Bytes :=
  let h := fields [(4, 0x01424C4E), (2, 0x80), (2, 0), (4, 0x88), (2, 1), (2, 0), (4, 0x80), (4, 8), (4, 0), (4, 64), (4, 0), (4, 0),
    (4, 0), (4, 0), (4, 0), (4, 0), (8, 7), (32, 0x41), (28, 0)]
  h ++ leBytes 4 (crc32c h) ++ leBytes 8 { fw 0x86 0 0 0 9 with esz := 0 }.encode
set_option maxRecDepth 100000 in
theorem witness_image_check : up.nolobCheck 0 0x88 false nolob = none := by decide +kernel
theorem witness_image :
    (let e := (List.range 8).foldl (fun d g => d.modBlk (dieOf 0 g) 9 (fun k => { k with state := 1, use := 3 })) up
     (e.placePages 0 9 0 3 (ceilDiv nolob.length 16384)).isSome = true) ∧
    (let d := (cmdDev adm7 up).modPool 23 (fun q => { q with shares := [(0, { share := 1 })] })
     ((d.hostRead 0 nolob.length).request 23 0 1 (.cmd adm7)).2 = true) ∧
    ((imgDev { handle := 4099 }).ownImage 0 4099 = some { handle := 4099 }) ∧
    ((imgDev { unloading := some adm7 }).image 3 = some { unloading := some adm7 } ∧
      ∀ w ∈ (imgDev { unloading := some adm7 }).hrt.wbs, w.slot ≠ 3) ∧
    bitsSet 0x80000001 32 ≠ [] := by decide +kernel

/-- A device with firmware in slot B that may start. -/
def fwIm : FwImage := { len := 4096, svn := 1, isSigned := true }
def fwDev : Dev :=
  { up with
    bot := { up.bot with stage := 2, slots := [(1, some fwIm)] }
    nvm := { up.nvm with fwSlot := 1, fwBusy := some adm7, fwImage := some fwIm } }
theorem witness_firmware :
    ((∀ p ∈ up.nvm.fwBuf.pieces, 0 + 4096 ≤ p.1 ∨ p.1 + p.2 ≤ 0) ∧ 4096 ∣ 4096 ∧ 0 + 4096 ≤ slotBytes) ∧
    (up.nvm.fwBusy = none ∧ up.nvm.sanitize = 0 ∧ up.fsSlot 2 = some 1 ∧ 1 ≠ up.bot.slot ∧ fwDev.fwSlotImage 1 = some fwIm ∧
      fwIm.passes fwDev.bootRec.minSvn = true) ∧
    (let d := (cmdDev adm7 fwDev).modCmd adm7 (fun c => { c with job := .fwActivate })
     (d.cmd adm7).map (·.job) = some .fwActivate ∧ d.bot.stage = 2 ∧ d.quietForActivation adm7 = true ∧
       d.slotOk d.nvm.fwSlot = true) ∧
    (fwDev.nvm.fwBusy = some adm7 ∧ fwDev.nvm.fwImage = some fwIm) := by decide +kernel

/-- SHA-384 of the header below and zeros up to 4,096 bytes, by FIPS 180-4; R and S of the image's signature have its value. -/
def fwHash : Nat := 0xD1D3D9BBA5706C9F90C79D627568A7ECC38AB65F54B83CEE6423EA5F1D09AC748C71D8FE9F1A7B2F7EEB81CBB2BFC986
/-- An image of 8,192 bytes with SVN 1 and its signature at 4,096. -/
def fwCells : Memory :=
  [(0, 0x52), (1, 0x46), (2, 0x57), (3, 0x31), (5, 0x20), (8, 3), (16, 1), (41, 0x10)] ++
    (beBytes 48 fwHash).zipIdx.map (fun p => (4096 + p.2, p.1)) ++ (beBytes 48 fwHash).zipIdx.map (fun p => (4144 + p.2, p.1))
/-- The public key for which that is a signature: the point with X = R, less the base point (FIPS 186-5). -/
def fwKey : Bytes :=
  beBytes 48 0xE93F391C0886F792C5C1BAC934AF8CA7B06AC23E59DA85AB2ECE2AB30AF74A0D1144E919CD97A7AB171C0437F607B9DA ++
    beBytes 48 0x3D439D990A5F95177C45608144CBC2CE683FB9F698E40DA43A6A56BEB02F694DE4CD565B6397E9AF6F4740637D0421DE
def fwSigned : FwImage := (fwParse (mread fwCells 0 8192) (some fwKey) []).getD {}
theorem fwSigned_passes : fwParse (mread fwCells 0 8192) (some fwKey) [] = some fwSigned ∧ fwSigned.passes 1 = true := by
  have h : (fwParse (mread fwCells 0 8192) (some fwKey) []).any (fun i => i.passes 1) = true := by decide +kernel
  unfold fwSigned
  generalize fwParse (mread fwCells 0 8192) (some fwKey) [] = o at h
  cases o with
  | none => cases h
  | some i => exact ⟨rfl, h⟩
/-- A commit of a downloaded image, and one in recovery mode, find it good. -/
theorem witness_images :
    (let d : Dev := { up with nvm := { up.nvm with fwBuf := { pieces := [(0, 8192)], bytes := fwCells } } }
     d.nvm.fwBusy = none ∧ d.nvm.sanitize = 0 ∧ d.fsSlot 2 = some 1 ∧ d.nvm.fwBuf.pieces ≠ [] ∧ 1 ≠ d.bot.slot ∧
       d.bootRec.minSvn ≤ 1 ∧ (d.nvm.fwBuf.pieces.map (·.2)).sum = 8192 ∧
         d.nvm.fwBuf.pieces.all (fun p => decide (p.1 + p.2 ≤ 8192)) = true) ∧
    (let d : Dev := { up with bot := { up.bot with stage := 3, recBuf := fwCells } }
     d.bot.stage = 3 ∧ min (fieldAt (mread d.bot.recBuf 0 256) 4 4) slotBytes = 8192 ∧
       (d.rewriteSlot 1 (mread d.bot.recBuf 0 8192) (some fwSigned)).bootRec.minSvn ≤ 1) := by decide +kernel

/-- A device with the key store open and slot 5 of function 0 holding a key of a type. -/
def keyDev (ty : Nat) : Dev :=
  let d := (nsDev { ns1 with kpio := true }).modPool 28 (fun q => { q with shares := [(0, { share := 1 })] })
  { d with key := { d.key with slots := [(5, { state := 1, ktype := ty, fix := 0, key := zeroBytes 64 })] } }
/-- A blob of mode 2 with a public key of 96 bytes. -/
def blob : Bytes := padTo 0x80 ([0x4B#8, 0x42#8, 0x4C#8, 0x31#8] ++ fields [(1, 2), (1, 4), (2, 96)]) ++ zeroBytes 96
theorem witness_keys :
    (let d := (keyDev 1).ran adm7
     5 < 4096 ∧ (d.kslot 5).ownedBy 0 = true ∧ (d.slotRecord 5 (d.kslot 5)).length = 64 ∧ (d.kslot 6).ownedBy 0 = false ∧
       d.key.locked = false ∧ limitOf 1 = some 32 ∧ limitOf 0x3001 = some 48 ∧ bitsOf 0x3001 0 4 = 1 ∧
       ((d.modCmd adm7 (fun c => { c with args := [4096, 32, 1, 64] })).request 28 0 1 (.cmd adm7)).2 = true ∧
       (d.kslot 5).ktype = 1 ∧ (d.kslot 5).state ≠ 2 ∧ d.boundTo 1 4095 = none ∧
       (d.ns 1).any (fun n => n.kpio && decide (0 ∈ n.attached)) = true) ∧
    (((keyDev 2).kslot 5).ktype = bitsOf 2 0 4 ∧ ((keyDev 3).kslot 5).ktype = 3) ∧
    (let e := ((keyDev 1).ran adm7).hostRead 0 blob.length
     (match e.blobChecks 0 blob (0x80 + 96) none with
      | .ok d => ((d.modCmd adm7 (fun c => { c with data := blob, args := [4096, 32] })).request 28 0 1 (.cmd adm7)).2
      | .error _ => false) = true) ∧
    (let e := keyDev 1
     let d : Dev := { e with key := { e.key with bindings := [(1, 4095, 5)] } }
     (d.ran adm7).boundTo 1 4095 = some 5) ∧
    (let d := (keyDev 1).modCmd adm7 (fun c => { c with job := .keyRelease 5 })
     (d.cmd adm7).map (·.job) = some (.keyRelease 5)) ∧
    (let d : Dev := { up with key := { up.key with drbg := 2 ^ 20 } }
     2 ^ 20 ≤ d.key.drbg ∧ d.domOn .control = true) := by decide +kernel

/-- Engines with the given jobs. -/
def engDev (c : FMap CJob) (g : FMap DCtx) (a : FMap AJob) : Dev :=
  { up with cxe := { up.cxe with jobs := c }, dge := { up.dge with ctxs := g }, aee := { up.aee with jobs := a } }
theorem witness_engine_jobs :
    (let e := engDev [] [] []
     let d : Dev := { e with cxe := { e.cxe with waiting := [{ state := 1 }] } }
     d.placeAt 0 = some 0 ∧ (d.takeCjob d.cxe.waiting).isSome = true) ∧
    (let d := engDev [(127, { state := 1, planned := true })] [] []
     (d.eng 0 7).retired = false ∧ d.nextCtx 0 7 16 (fun c => decide ((d.cjob (16 * 7 + c)).state = 1 ∨
       ((d.cjob (16 * 7 + c)).state = 2 ∧ (d.cjob (16 * 7 + c)).trace ≠ []))) = some 15 ∧
       d.planJob (d.cjob 127) = { state := 1, planned := true }) ∧
    ((engDev [(127, { state := 2 })] [] []).cjob 127 = { state := 2 }) ∧
    (let g : DCtx := { state := 1, len := 5 }
     let d := (engDev [] [(127, g)] []).placeDge
     (d.eng 1 7).retired = false ∧ d.dctx (16 * 7 + 15) = g ∧ d.nextCtx 1 7 16 (fun c => decide ((d.dctx (16 * 7 + c)).state = 1 ∨
       ((d.dctx (16 * 7 + c)).state = 2 ∧ (d.dctx (16 * 7 + c)).done < (d.dctx (16 * 7 + c)).len))) = some 15) ∧
    (let g : DCtx := { state := 2, len := 5, done := 5 }
     (engDev [] [(127, g)] []).dctx 127 = g ∧ g.final = false) ∧
    (let a : AJob := { state := 1, text := [1] }
     let d := (engDev [] [] [(127, a)]).placeAee
     (d.eng 2 7).retired = false ∧ d.ajob (16 * 7 + 15) = a ∧ d.nextCtx 2 7 17 (fun c => (if c = 16 then d.fjob 7
       else d.ajob (16 * 7 + c)).hasWork) = some 15) ∧
    (let a : AJob := { state := 2 }
     (engDev [] [] [(127, a)]).ajob 127 = a ∧ a.text.length ≤ a.done) ∧
    (up.eng 0 7).retired = false ∧ (up.eng 1 7).retired = false ∧ (up.eng 2 7).retired = false := by decide +kernel

/-! ## Cartridges, code flash, boot, watchdog, interrupts -/

/-- Group 7 as given, with its Manifest unit. -/
def cartDev (c : Cart) (u : MUnit) : Dev :=
  let d := (List.range 8).foldl (fun d g => d.modUnit (uid 5 g) (fun u => { u with state := .alive })) up
  (d.modGrp 7 (fun _ => c)).modUnit (uid 5 7) (fun _ => u)
theorem witness_cartridges :
    (((cartDev { presRaw := true } {}).grp 7).presRaw = true ∧ ((cartDev { presRaw := true } {}).grp 7).present = false) ∧
    (let d := cartDev { present := true, pwren := true } {}
     (d.grp 7).presRaw = false ∧ (d.grp 7).present = true ∧ (d.grp 7).pwren = true ∧
       (d.modGrp 7 (fun c => { c with present := false, admitted := false, step := 0 })).prepared 7 = false) ∧
    (let d := cartDev { present := true } { state := .quiesced, reason := .prepared }
     (d.grp 7).presRaw = false ∧ (d.grp 7).present = true ∧ (d.grp 7).pwren = false ∧ (d.grp 7).owner = none ∧
       (d.modGrp 7 (fun c => { c with present := false, admitted := false, step := 0 })).prepared 7 = true) ∧
    (let d := cartDev { pgood := true, pwren := true } {}
     (d.grp 7).pgood = true ∧ (d.grp 7).pwren = true) ∧
    (let d := cartDev { admitted := true, present := true } { state := .absent }
     (d.grp 7).admitted = true ∧ (d.grp 7).present = true ∧ d.domOn .data = true ∧ d.nvm.ready = true ∧
       (d.unit (uid 5 7)).state = .absent) ∧
    (((cartDev { step := 1 } {}).grp 7).step = 1 ∧ ((cartDev { step := 1 } {}).grp 7).pgood = false) ∧
    (let d := cartDev { owner := some adm7, pwren := true } { state := .quiesced, reason := .prepared }
     d.prepared 7 = true ∧ (d.grp 7).owner.isSome = true ∧ (d.grp 7).pwren = true ∧ d.groupIdle 7 = true ∧
       d.stripeOn 7 = false) ∧
    (((cartDev { down := 1, owner := some adm7 } {}).grp 7).down = 1 ∧
      ((cartDev { down := 1, owner := some adm7 } {}).grp 7).owner = some adm7) ∧
    (let d := cartDev { pgood := true } { state := .degraded, reason := .rebuild }
     d.rebuilding 7 = true ∧ (d.grp 7).pgood = true ∧ d.nextRebuild 7 = none) ∧
    (let d := cartDev {} { quiescing := true, pending := some (.quiesced, .prepared) }
     (d.unit (uid 5 7)).quiescing = true ∧ (d.unit (uid 5 7)).pending = some (.quiesced, .prepared) ∧
       d.startedOn 7 = false) := by decide +kernel
/-- A group whose channels have trained, none of whose dies answer, and one whose channels are retired. -/
theorem witness_power_up :
    (let e := (chansOfGroup 7).foldl (fun d n => d.modUnit (uid 3 n) (fun u => { u with state := .retired }))
       (cartDev { pgood := true, pwren := true, step := 2 } {})
     (e.grp 7).step = 2 ∧ (e.grp 7).pgood = true ∧ ∀ n ∈ chansOfGroup 7, (e.chan n).trained = false ∧
       (e.unit (uid 3 n)).state = .retired) ∧
    (let e := (chansOfGroup 7).foldl (fun d n => d.modChan n (fun c => { c with trained := true, rate := 4 }))
       (cartDev { pgood := true, pwren := true, step := 2 } { state := .absent })
     let d : Dev := { e with nvm := { e.nvm with ready := false } }
     (d.grp 7).step = 2 ∧ (d.grp 7).pgood = true ∧ (d.unit (uid 5 7)).state = .absent ∧ d.nvm.ready = false ∧
       ∀ n ∈ chansOfGroup 7, (d.chan n).trained = true) := by decide +kernel
theorem witness_cartridge_commands :
    (∀ x < 8, ((cartDev {} {}).grp x).owner = none) ∧
    (let d := (cmdDev adm7 (cartDev {} { generation := 4 })).ran adm7
     4 = (d.unit (uid 5 7)).generation ∧ 5 ≠ (d.unit (uid 5 7)).generation ∧ (d.unit (uid 5 7)).state = .alive ∧
       d.missingFor 7 ≤ (if d.sevenInUse = true then 1 else 2) ∧ d.prepared 7 = false) ∧
    (let d := cartDev { present := true } { state := .absent }
     (d.unit (uid 5 7)).state = .absent ∧ (d.grp 7).present = true ∧ (d.grp 7).admitted = false ∧ (d.grp 7).step = 0) ∧
    (let d := cartDev {} { state := .quiesced, reason := .prepared }
     d.prepared 7 = true ∧ d.toRebuild 7 = false) := by decide +kernel

def flashDev (o : Option FlashOp) : Dev := { up with cfl := { up.cfl with op := o } }
theorem witness_flash :
    (up.domOn .control = true ∧ up.wdt.state = 0 ∧ up.cfl.op = none ∧ up.isProtected 200 = false ∧
      programBad 200 32 32 = false ∧ up.wordRefusal 200 4 [1, 2, 3, 4] = none ∧ programBad 200 8 32 = true ∧
        isSector 254 = true ∧ isSector 255 = false ∧ 4095 + 1 ≤ 4096) ∧
    (let o : FlashOp := { isErase := true, sector := 100, suspends := 7 }
     (flashDev (some o)).cfl.op = some o ∧ o.suspends < 8) ∧
    (let o : FlashOp := { isErase := true, sector := 100, suspended := true, suspUs := 99999 }
     (flashDev (some o)).cfl.op = some o ∧ (flashDev (some o)).cfl.suspended = true ∧ 100000 ≤ o.suspUs + 1) ∧
    (let o : FlashOp := { sector := 100 }
     (flashDev (some o)).cfl.op = some o ∧ o.suspended = false) ∧
    (let d := flashDev (some { isErase := true, sector := sectorAt 0 })
     d.readFault (sectorAt 0) true false = some 1 ∧ d.domOn .control = true) ∧
    fwDev.bot.stage = 2 := by decide +kernel

theorem witness_boot :
    (let d : Dev := { up with bot := { slots := [(0, some fwIm)] } }
     let e := d.startWdt.countTrial
     let b : Dev := { e with bot := { e.bot with bootUs := 5 } }
     d.bot.stage = 0 ∧ d.domOn .control = true ∧ b.slotOk b.bootRec.slot = true) ∧
    (let d : Dev := { up with bot := {} }
     let e := d.startWdt.countTrial
     let b : Dev := { e with bot := { e.bot with bootUs := 5 } }
     d.bot.stage = 0 ∧ b.slotOk b.bootRec.slot = false ∧ b.slotOk (1 - b.bootRec.slot) = false) ∧
    (let d : Dev := { up with bot := { up.bot with trial := true, slots := [(0, some fwIm)] } }
     d.bot.stage = 1 ∧ d.bot.trial = true ∧ (d.putRecWord 3 0).fwSlotImage (d.putRecWord 3 0).bot.slot = some fwIm ∧
       fwIm.raiseFloor = false) ∧
    (∀ st ∈ [0, 1],
      let d : Dev := { up with wdt := { up.wdt with state := st, count := epochTicksMax } }
      d.domOn .control = true ∧ d.wdt.state = st ∧ d.wdt.count ≤ epochTicksMax ∧ d.cfl.op = none) ∧
    (let e := flashDev (some { isErase := true })
     let d : Dev := { e with wdt := { e.wdt with state := 1, count := 0 } }
     d.wdt.state = 1 ∧ d.wdt.count ≤ epochTicksMax ∧ d.cfl.op.isSome = true ∧ d.cfl.suspended = false) ∧
    (let d : Dev := { up with wdt := { up.wdt with state := 2 } }
     d.wdt.state = 2 ∧ d.cfl.op = none) ∧
    0x14B1C % 65536 = 0x4B1C ∧ 0x4B1D % 65536 ≠ 0x4B1C := by decide +kernel

/-- Chapter 14: channel 6 is ID 102, a level of priority 9 at bank 3 of threshold 4. -/
def icuDev (x : Src) : Dev :=
  { up with icu := { up.icu with srcs := [(102, { x with enA := true, prioA := 9, targetA := 3 })], banks := [(3, { threshold := 4 })] } }
theorem witness_interrupts :
    (neverPends 110 = false ∧ isSoft 110 = false ∧ ∃ n ∈ [64, 102, 1022], neverPends n = false ∧ isSoft n = false ∧ isLevel n = false) ∧
    up.fastOn = true ∧ (∃ n ∈ List.range 1023, isSoft n = true) ∧
    ((icuDev { level := true }).bankOn 3 = true ∧ (icuDev { level := true }).firstPresented 3 = some 102) ∧
    ((icuDev {}).bankOn 3 = true ∧ (icuDev {}).firstPresented 3 = none ∧ ((icuDev {}).src 102).claimedBy ≠ some 3) ∧
    (let d := icuDev { claimedBy := some 3 }
     let e := d.modSrc 102 (fun x => { x with claimedBy := none })
     d.bankOn 3 = true ∧ (d.src 102).claimedBy = some 3 ∧ (e.presentId (d.src 102).targetA 102).firstPresented 3 = none ∧
       (e.src 102).targetA = (d.src 102).targetA) ∧
    (let e := icuDev {}
     let d : Dev := { e with
       icu := { e.icu with srcs := [(70, { count := 1, enA := true })], watch := [(7, { idA := 70, enA := true })] }
       emb := { e.emb with mode := .deep } }
     d.firing = (7, 70) :: [] ∧ d.emb.mode = .deep) := by decide +kernel
/-- Every target of a commit is allowed once 65 and 67 name bank 48. -/
theorem witness_commit : let d : Dev := { up with icu := { up.icu with srcs := [(65, { target := 48 }), (67, { target := 48 })] } }
    (∀ n, 64 ≤ n → n ≤ 1022 → d.targetOk n (d.src n).target = true) ∧ ¬ (∀ n ∈ [65], up.targetOk n (up.src n).target = true) := by
  intro d
  have h : ∀ n ∈ List.range 1023, 64 ≤ n → d.targetOk n (d.src n).target = true := by decide +kernel
  exact ⟨fun n a b => h n (List.mem_range.mpr (by omega)) a, by decide +kernel⟩
/-- The same example: the claim returns 102 and COUNT goes 1 to 0; after the completion with the request withdrawn a further
claim returns 1,023. -/
def devOf (o : Host.Outcome State Fault Refusal) : Dev := match o with
  | .next s => s.dev
  | _ => {}
theorem test_icu_claim :
    (devOf (exec (.icuClaim 3) { dev := icuDev { level := true, count := 1 } })).out = [.claim 3 102] ∧
    ((devOf (exec (.icuClaim 3) { dev := icuDev { level := true, count := 1 } })).src 102).count = 0 ∧
    (devOf (exec (.icuClaim 3) { dev := icuDev {} })).out = [.claim 3 1023] := by decide +kernel
/-- Chapter 15, watchdog expiry during a slot erase: T2 = 64 gives 512 ticks of stage two. -/
theorem test_wdt : let d : Dev := { up with wdt := { up.wdt with t1A := 32768, t2A := 64, count := 33 } }
    (devOf (exec .wdtStage1Expiry { dev := d })).wdt.count = 512 ∧ (devOf (exec .wdtStage1Expiry { dev := d })).wdt.state = 1 := by
  decide +kernel
/-- Chapter 3, adaptive moderation: TIME_MIN 10, TIME_MAX 80, points (0, 0), (1,000, 20), (8,000, 50), (40,000, 120), with
Aggregation Time 100 µs: 45,000 entries give 80 µs, pinned; 6,000 give 20 µs, not pinned; 500 give 10 µs, pinned. -/
def table7 : Bytes := zeroBytes 0x20 ++ fields [(4, 1), (2, 10), (2, 80), (2, 4), (2, 4), (4, 0), (4, 0), (4, 0), (4, 1000), (4, 20),
  (4, 8000), (4, 50), (4, 40000), (4, 120)]
def modDev (r : Nat) : Vec :=
  let e := qDev { vecs := [(1, { entries := r })], feat := { aggThr := 63, aggTime := 1 } }
  let d : Dev := { e with nvm := { e.nvm with policy := [(7, some table7)] } }
  ((d.evalVector 0 1).fn 0).vec 1
theorem test_moderation : ([45000, 6000, 500].map modDev).map (fun x => (x.adaptive, x.pinned)) =
    [(some 80, 1), (some 20, 0), (some 10, 1)] := by decide +kernel

/-! ## Links, functions, management, power -/

def portDev (p : Port) : Dev := { up with hlk := { up.hlk with ports := [(0, p)] } }
theorem witness_links :
    (let d := portDev { perst := false }
     d.portInUse 0 = true ∧ (d.port 0).perst = false ∧ d.domOn .host = true ∧ d.bot.stage ≠ 3 ∧
       trainRate (min (d.port 0).cap d.hlk.maxRateA) 6 [1, 4, 5] true = some 5 ∧
       trainRate (min (d.port 0).cap d.hlk.maxRateA) 6 [1, 4, 5] false = some 4 ∧
       trainWidth 16 [0, 1, 2, 3, 5, 6, 7] = some 4) ∧
    (let d := portDev { recTimes := List.replicate 9 0, rate := 6 }
     d.portInUse 0 = true ∧ (d.port 0).mustStepDown = true ∧ (d.port 0).rate = 5 + 1) ∧
    ((portDev { recTimes := List.replicate 8 0, fecTimes := List.replicate 16 0 }).port 0).mustStepDown = false := by
  decide +kernel
theorem witness_link_states :
    (up.portInUse 0 = true ∧ (up.port 0).ltssm.carries = true ∧ (up.port 0).flit = true ∧ (up.port 0).ltssm = .l0 ∧ 4 ≤ 4 ∧
      16 ≤ (up.port 0).width) ∧
    linkState 4 = some .l23 ∧ linkState 0 = some .l0 ∧
    (∀ l ∈ [Ltssm.l0, .l1, .l11, .l12, .l23], ((portDev { ltssm := l }).port 0).ltssm = l) := by decide +kernel
theorem witness_functions :
    (up.fnExists 0 = true ∧ up.answersConfig (pfOf 0) = true ∧ up.isPf 0 = true ∧ (up.port 0).vfEnable = false) ∧
    (let d := portDev { perst := false, vfEnable := true, numVfs := 1023 }
     d.fnExists 1023 = true ∧ d.answersConfig (pfOf 0) = true ∧ d.isPf 1023 = false ∧ (d.port 0).vfEnable = true ∧ (d.fn 1023).ccEn = false ∧
       (d.fn 1023).resetting = false ∧ d.domOn .host = true ∧ (d.fn 1023).configBad 0 0 0 = true) ∧
    (let d : Dev := { up with fnm := { up.fnm with fns := [(0, { asqs := 1, acqs := 1, asq := 65536, acq := 131072 })] } }
     (d.fn 0).ccEn = false ∧ (d.fn 0).configBad 0 0 4 = false ∧ (d.fn 0).configBad 0 0 5 = true) ∧
    (up.fn 0).ccEn = true ∧
    (let d : Dev := { up with fnm := { up.fnm with fns := [(0, { resetting := true }), (1, { resetting := true }),
         (2, { resetting := true, fence := 1 })] } }
     (d.fn 0).resetting = true ∧ d.drained 0 = true ∧ d.drained 1 = true ∧ d.drained 2 = false ∧
       (d.modFn 0 (fun f => { f with resetting := false })).fnExists 0 = true ∧
       (d.modFn 1 (fun f => { f with resetting := false })).fnExists 1 = false) := by decide +kernel

theorem witness_management :
    (∀ x ∈ [(0, false), (1, true), (2, true)],
      let d : Dev := { up with mgt := { up.mgt with i3c := x.2, busySlots := [1] } }
      ((x.1 = 0 ∧ d.mgt.i3c = false) ∨ (x.1 = 1 ∧ d.mgt.i3c = true) ∨ (x.1 = 2 ∧ d.domOn .host = true)) ∧
        0 ∉ d.mgt.busySlots ∧ 1 ∈ d.mgt.busySlots) ∧
    (up.fnExists 0 = true ∧ 0x06 ∈ tunnelOps ∧ (0, 0x06, 0) ∉ up.mgt.tunnel ∧ up.bot.stage ≠ 3 ∧
      (up.emb.mode = .active ∨ up.emb.mode = .idleReady) ∧ 1023 + 1 ≤ 1024 ∧ (slotBytes - 4096) + 4096 ≤ slotBytes) ∧
    (let d : Dev := { up with bot := { up.bot with stage := 3 } }
     d.bot.stage = 3) := by decide +kernel
theorem witness_spdm :
    (∀ n ∈ [0, 1, 2],
      let d : Dev := { up with
        spdm := { up.spdm with version := true, caps := true, algs := true, session := n }
        key := { up.key with workLoaded := true } }
      d.domOn .host = true ∧ d.spdm.version = true ∧ d.spdm.caps = true ∧ d.spdm.algs = true ∧ d.spdm.session = n ∧
        d.spdmKeys = true) ∧ up.spdm.version = false ∧ up.spdm.session ≠ 2 := by decide +kernel

theorem witness_power :
    (let d : Dev := {}
     d.blw.seq = 1 ∧ d.blw.step = 0) ∧
    (let d : Dev := { up with blw := { up.blw with railsBad := [3] } }
     ¬ (d.blw.seq = 1 ∧ d.blw.step = 0) ∧ d.blw.railsBad ≠ [] ∧ d.emb.tripped = false ∧ d.domOn .control = true) ∧
    (let d : Dev := { up with blw := { up.blw with xtalOk := true } }
     d.blw.xtalOk = true) ∧
    (up.rangeTop + 10 ≤ 115 ∧ up.emb.tripped = false ∧ ¬ (up.blw.seq = 1 ∧ up.blw.step = 0)) ∧
    (let d : Dev := { up with emb := { up.emb with tripped := true } }
     d.emb.tripped = true ∧ 95 ≤ d.rangeTop - 10 ∧ d.blw.railsBad = []) ∧
    (up.canReset = true ∧ (up.port 0).perst = false ∧ up.portInUse 0 = true ∧ up.hlk.modeA = 0 ∧ (up.port 0).ltssm ≠ .detect ∧
      ∀ c ∈ [1, 6], 1 ≤ c ∧ c ≤ 6) ∧
    (let e := portDev { perst := true }
     let d : Dev := { e with emb := { e.emb with wakeN := [0] } }
     let r := (d.modPort 0 (fun p => { p with perst := false })).srcEvent 80
     let f := ({ r with emb := { r.emb with wakeN := r.emb.wakeN.filter (· ≠ 0) } } : Dev).emit (.pin .wake 0 true)
     let q := (e.modPort 0 (fun p => { p with perst := false })).srcEvent 80
     (d.port 0).perst = true ∧ 0 ∈ r.emb.wakeN ∧ f.portInUse 0 = true ∧ (e.port 0).perst = true ∧ 0 ∉ q.emb.wakeN ∧
       q.portInUse 0 = true) := by decide +kernel

/-- Table 0x06 with sleep mode 3 allowed at once. -/
def sleepTable : Bytes := overlay (overlay (factoryTable false 6) 0x30 [3]) 0x34 (leBytes 4 1)
def sleepy (d : Dev) : Dev := { d with nvm := { d.nvm with policy := [(6, some sleepTable)] } }
theorem witness_sleep :
    (let d : Dev := { up with emb := { up.emb with mode := .entering } }
     d.emb.mode = .entering) ∧
    (let e := sleepy (portDev { perst := false, ltssm := .l23 })
     let d : Dev := { e with emb := { e.emb with idleMs := e.idleMsLimit } }
     d.emb.mode = .idleReady ∧ d.nvm.ready = true ∧ d.maySleep = true ∧ d.idleMsLimit ≤ d.emb.idleMs ∧
       ∀ p ∈ d.portsUsed, (d.port p).ltssm = .l23) ∧
    (let d : Dev := { sleepy up with emb := { up.emb with mode := .dormant, dormantMs := 1000 } }
     d.emb.mode = .dormant ∧ d.blw.wakeReq = none ∧ d.sleepMode = 3 ∧ 1000 * d.tf 6 0x34 4 ≤ d.emb.dormantMs) ∧
    (∀ m ∈ [PMode.dormant, .deep],
      let d : Dev := { up with blw := { up.blw with wakeReq := some 3 }, emb := { up.emb with mode := m } }
      d.emb.mode = m ∧ d.blw.wakeReq = some 3 ∧ d.emb.tripped = false ∧ d.blw.railsBad = []) := by decide +kernel
/-- A device in Dormant that resumes: its journal, boot record and pools are as the entry left them. -/
theorem witness_resume :
    let d : Dev := { up with
      bot := { up.bot with slots := [(0, some fwIm)], resume := some (up.jrn.gen, up.jrn.next, up.bootRec.seq, true) }
      blw := { up.blw with on := [], wakeReq := some 3 }, emb := { up.emb with mode := .dormant } }
    let b := (((d.beginWake 3 4).startFast 4 []).keyOn).countTrial
    b.resumeOk = true ∧ b.slotOk b.bootRec.slot = true := by decide +kernel

/-! ## Registers, mailboxes, shares -/

theorem witness_registers :
    (up.doorbellTaken 0 = true ∧ up.answersConfig 0 = true ∧ alignedTo 0x14 false = true ∧ alignedTo 0x28 true = true ∧
      alignedTo 0x2C true = false) ∧
    (∃ w ∈ List.range 31, up.coreSpot 47 (windowBase + windowBytes * w) true = some (w, 0)) ∧
    up.coreSpot 47 aliasBase true = some (16, 0x8000 + 0x100 * 47) ∧ up.coreSpot 48 (windowBase + windowBytes * 24) true = some (24, 0) ∧
    (∀ a ∈ [({ isWrite := true } : Access), {}],
      let d := up.modBridge 3 (fun l => { l with queue := [a] })
      (d.lane 3).queue = a :: []) ∧
    (∃ w ∈ List.range 31, (windowCommit w).isSome = true ∧ up.windowOn w = true ∧ ({} : Dev).windowOn w = false) ∧
    (up.isPf 0 = true ∧ up.bar2Open (up.portOf 0) = true ∧ windowClass (windowAt (3 * windowBytes)) ≠ 0) ∧
    (up.domOn .control = true ∧ up.coreMay 0 (2 ^ 47) 0 false = false ∧ up.coreMay 47 mramBase 1 false = false ∧
      up.coreMay 48 mramBase 0 true = false) ∧
    ({ source := .core 47 false, addr := mramBase } : Access).refusedTo = some 47 := by decide +kernel

/-- Reads of cores that clear and that latch, and a host's read that clears, which the bridge carries. -/
theorem witness_reads :
    (∃ w ∈ List.range 31, ∃ o ∈ (List.range 128).map (4 * ·),
      (findReg (windowRegs w) o).any (fun r => decide (r.1.size = 4) && r.1.clear.isSome) = true ∧
        up.coreSpot 47 (windowBase + windowBytes * w + o) false = some (w, o)) ∧
    (∃ w ∈ List.range 31, ∃ o ∈ (List.range 128).map (4 * ·), readClears w o = true ∧
      up.readSpot (.bar2 0) (windowBytes * w + o) false = some (w, o) ∧ (bar2Lane (windowBytes * w + o)).isSome = true) ∧
    (∀ b ∈ [0, 4], ∃ w ∈ List.range 31, ∃ o ∈ (List.range 128).map (4 * ·),
      let d : Dev := { up with fab := { up.fab with latch := [(wordKey w o, 5)] } }
      (findReg (windowRegs w) o).any (fun r => decide (r.1.size ≠ 4 ∧ r.2.2 % 8 = b) && r.1.clear.isNone) = true ∧
        d.coreSpot 47 (windowBase + windowBytes * w + o) false = some (w, o) ∧
          ffind d.fab.latch (wordKey w o) = some 5) := by decide +kernel

/-- Every direction of the bridge takes an access of a core or of a host, with its queue empty and full. -/
theorem witness_bridge : ∀ dir ∈ List.range 4, ∃ x ∈ [Source.core 47 true, .bar2 0], ∃ w ∈ List.range 31,
    let addr := windowBase + windowBytes * w
    let d := up.modBridge dir (fun l => { l with queue := List.replicate 64 {} })
    (bridgePlanes dir).any (fun p => decide (sourcePlane x = p.1 ∧ planeAt addr = some p.2)) = true ∧
      alignedTo addr true = true ∧ up.sourceOn x addr = true ∧ up.targetOn addr = true ∧
        (up.lane dir).queue.length < 64 ∧ (up.lane dir).stalled = [] ∧ 64 ≤ (d.lane dir).queue.length ∧
          d.sourceOn x addr = true ∧ d.targetOn addr = true := by decide +kernel

theorem witness_mailboxes :
    (up.domOn .control = true ∧ up.slotFree 5 = true ∧ (up.ring 5).stalled = []) ∧
    (let d := up.modRing 5 (fun r => { r with slots := List.replicate 256 {} })
     let d := d.modPool 15 (fun q => { q with issued := q.capacity, held := q.capacity })
     d.domOn .control = true ∧ d.slotFree 5 = false ∧ (d.ring 5).slots = {} :: List.replicate 255 {} ∧
       ∀ x ∈ (d.ring 5).slots, x.urgent = false) ∧
    (let d := up.modRing 5 (fun r => { r with stalled := [{}] })
     (d.ring 5).stalled = {} :: [] ∧ d.slotFree 5 = true) ∧
    (takeFirst [({} : Msg), { urgent := true }] (·.urgent)).map (·.1) = some { urgent := true } ∧
    ((up.buf 255).inUse = false ∧ up.domOn .data = true ∧ up.canIssue 16 0 1 = true ∧ (up.buf 255).owner ≠ .control) ∧
    (let e := prog 0 {}
     let d : Dev := { e with fab := { e.fab with handoff := [(0, { inUse := true, owner := .control }),
       (1, { inUse := true, kind := 2, wb := 5 })] }
                             hrt := { e.hrt with wbs := [{ run5 with lent := [1], epoch := 1 }] } }
     (d.buf 0).inUse = true ∧ (d.buf 0).kind = 0 ∧ (d.buf 0).owner = .control ∧ (d.buf 1).inUse = true ∧
       (d.buf 1).kind = 2 ∧ (d.buf 1).owner = .data ∧ d.wb (d.buf 1).wb = some { run5 with lent := [1], epoch := 1 } ∧
         (d.fn run5.ref.fix).epoch = 1) ∧
    (let d : Dev := { up with fnm := { up.fnm with fns := [(0, { oldItems := [.wgran 1], fence := 1 })] } }
     .wgran 1 ∈ (d.fn 0).oldItems ∧ 0 < (d.fn 0).fence ∧ d.itemReady (.wgran 1) = true) ∧
    (isEPool 20 = true ∧ 20 ≠ 26 ∧ 20 ≠ 27) := by decide +kernel

/-! ## The statements about the block as a whole -/

theorem witness_queue : ({ dev := {}, pending := [.xtalSwitch] } : State).pending = .xtalSwitch :: [] ∧
    ({ dev := {} } : State).pending = [] := by decide
theorem witness_clock : State.reset.dev.clk.ok ∧ (State.reset.dev.clk).accum < 1000 := by
  constructor
  · exact ⟨by decide, by decide⟩
  · decide
theorem witness_step : ∃ t, step State.reset = .next t := ⟨_, rfl⟩
theorem witness_fits : (⟨255, 31, 31, 31, true, 7, 3, true, true, true, 2 ^ 32 - 1⟩ : Fw).fits = true := by decide
theorem witness_store : Memory.wf (mem 0).w1 = true ∧ Memory.wf (mem 0).w2 = true ∧ (mem 0).scratch ≤ 2 ^ 36 ∧
    (mem 0).valid (0x2000000000 + 4096 - 8) 8 true = true := by decide +kernel
theorem witness_frame (bank id n us key : Nat) : ∃ t, exec (.icuClaim bank) { dev := up } = .next t ∧
    ∃ u, exec (.mailboxReceive n) { dev := up } = .next u ∧ ∃ v, exec (.linkRecoveryEntry id us) { dev := up } = .next v ∧
      ∃ w, exec (.wdtKick key) { dev := up } = .next w := ⟨_, rfl, _, rfl, _, rfl, _, rfl⟩
theorem witness_balance : (up.pool 2).issued = (up.pool 2).returned + (up.pool 2).held ∧ (up.request 4 0 1 (.wgran 1)).2 = true ∧
    (up.request 2 0 1 (.wgran 1)).2 = false := by decide +kernel
theorem witness_bar2 : up.bar2Open 0 = true ∧ up.isPf 0 = true ∧ up.bar2Open (up.portOf 0) = true ∧ 6 % 8 ≠ 0 := by decide +kernel

/-! ## Package and supplies: the worked example of chapter 18, and the sums of R465 -/

theorem test_ball_nand : ballAt 51 69 = some (.sig (.nand 37 .dqsT)) := by decide +kernel
theorem test_ball_dram : ballAt 90 54 = some (.sig (.dram 6 true .ckT)) := by decide +kernel
theorem test_ball_host : ballAt 5 79 = some (.sig (.htx 11 false)) := by decide +kernel
theorem test_ball_cart : ballAt 84 16 = some (.sig (.cartAttnN 7)) ∧ ballAt 83 15 = some (.sig (.cartPresN 7)) ∧
    ballAt 26 25 = some .vss ∧ ballAt 27 25 = some (.rail .vddCore) ∧ ballAt 91 1 = none := by decide +kernel
theorem test_nominal_power : nominalPower false = 94985000000 ∧ nominalPower true = 149250000 := by decide
theorem test_supply_drop : supplyDrop 999 5000 = .glitch ∧ supplyDrop 1000 1000 = .loss ∧ supplyDrop 0 49 = .nothing := by decide
theorem test_ember_held_pins : ({ ({} : Dev) with blw := { railsBad := [1] } }).drives (.cartPwren 3) = some false ∧
    ({ ({} : Dev) with blw := { railsBad := [1] } }).drives (.cartAttnN 3) = some true := by decide

/-! ## Classes of a die and the map cache -/

/-- With equal work a die takes the host program first, then, as its deficit grows, the moves (weights 128 and 32). -/
theorem test_die_classes :
    let host : DieOp := { kind := .program, block := 1, tag := true }
    let move : DieOp := { kind := .program, block := 2, tag := true, cls := 2 }
    let d : Dev := (Dev.modDie {} 0 (fun x => { x with queue := [move, host, host] })).startNext 0
    (d.die 0).op = some host ∧ (d.die 0).queue = [move, host] ∧ (d.die 0).turn = 0 ∧ fget (d.die 0).deficit 0 0 = 16384 - 8500 := by
  decide +kernel

/-- The least recently used clean leaf goes first; a directory item with a cached leaf stays (R174). -/
theorem test_eviction :
    let d : Dev := ({ ({} : Dev) with map := { ({} : Map) with
      leaves := [(5, { there := true, cached := true, dirty := true, used := 1, chunks := 3 }),
                 (6, { there := true, cached := true, used := 7, chunks := 3 }),
                 (7, { there := true, cached := true, used := 4, chunks := 9 })]
      dirs := [(5, { there := true, cached := true, chunks := 9 })] } })
    (d.evictOne 0).map (fun d => ((d.item 0 7).cached, (d.item 0 6).cached, d.cacheUsed)) = some (false, true, 15) ∧
      d.cacheChunks = 50331648 := by
  decide +kernel

end Sys2Proof.Tests
end

/-! Register accesses (R9 to R13, R19, R26, R30, R42): one lemma per shared operation (a word's read, the bridge's queue, a
refusal), one per command and space, and O45, which they make up. -/

namespace Sys2Proof.Machine

/-! ## The meanings that the register commands run -/

theorem exec_registerWrite (space : RegSpace) (addr : Nat) (wide : Bool) (value : Nat) (s : State) :
    exec (.registerWrite space addr wide value) s = execRegisterWrite space addr wide value s := rfl
theorem exec_rcCounterRead (space : RegSpace) (addr : Nat) (s : State) :
    exec (.rcCounterRead space addr) s = execRcCounterRead space addr s := rfl
theorem exec_upperWordLatch (space : RegSpace) (spot : ReadAt) (s : State) :
    exec (.upperWordLatch space spot) s = execUpperWordLatch space spot s := rfl
theorem exec_stagedCommit (window : Nat) (s : State) :
    exec (.stagedCommit window) s = execStagedCommit window s := rfl
theorem exec_tolViolatedClear (mask : Nat) (s : State) :
    exec (.tolViolatedClear mask) s = .next (s.withDev (s.dev0.forEach (bitsSet mask 32) Dev.clearViolated)) := rfl
theorem exec_bar2WriteDiscarded (fix offset : Nat) (wide : Bool) (s : State) :
    exec (.bar2WriteDiscarded fix offset wide) s = execBar2WriteDiscarded fix offset wide s := rfl
theorem exec_coreBusError (core addr kind : Nat) (journal : Bool) (s : State) :
    exec (.coreBusError core addr kind journal) s = execCoreBusError core addr kind journal s := rfl
theorem exec_bridgeAccess (dir : Nat) (source : Source) (addr : Nat) (wide isWrite : Bool) (value : Nat) (s : State) :
    exec (.bridgeAccess dir source addr wide isWrite value) s = execBridgeAccess dir source addr wide isWrite value s := rfl
theorem exec_bridgeReadReturn (dir : Nat) (s : State) :
    exec (.bridgeReadReturn dir) s = execBridgeReadReturn dir s := rfl

/-! ## Writes (R9, R10, R19) -/

theorem exec_registerWrite_nvme {s : State} {fix addr value : Nat} {wide : Bool}
    (taken : s.dev0.doorbellTaken fix = true) (aligned : alignedTo addr wide = true) :
    exec (.registerWrite (.nvme fix) addr wide value) s = .next (s.withDev (s.dev0.writeBar0 fix addr wide value)) := by
  simp [exec_registerWrite, execRegisterWrite, act_eq, taken, aligned]

theorem exec_registerWrite_msix {s : State} {fix addr value : Nat} {wide : Bool}
    (taken : s.dev0.doorbellTaken fix = true) (aligned : alignedTo addr wide = true) :
    exec (.registerWrite (.msix fix) addr wide value) s = .next (s.withDev (s.dev0.writeMsix fix addr wide value)) := by
  simp [exec_registerWrite, execRegisterWrite, act_eq, taken, aligned]

theorem exec_registerWrite_config {s : State} {fix addr value : Nat} {wide : Bool} {c : ConfigField}
    (answers : s.dev0.answersConfig fix = true) :
    exec (.registerWrite (.config fix c) addr wide value) s = .next (s.withDev (s.dev0.writeConfig fix c value)) := by
  simp [exec_registerWrite, execRegisterWrite, act_eq, answers]

theorem exec_registerWrite_core {s : State} {core addr w off value : Nat} {wide : Bool}
    (spot : s.dev0.coreSpot core addr true = some (w, off)) (aligned : alignedTo addr wide = true) :
    exec (.registerWrite (.core core) addr wide value) s = .next (s.withDev (s.dev0.writeReg w off wide value)) := by
  simp [exec_registerWrite, execRegisterWrite, act_eq, spot, aligned]

theorem exec_registerWrite_bridge {s : State} {dir addr value : Nat} {wide : Bool} {a : Access} {t : List Access}
    (write : a.isWrite = true) (head : (s.dev0.lane dir).queue = a :: t) :
    exec (.registerWrite (.bridge dir) addr wide value) s =
      .next (s.withDev ((s.dev0.popBridge dir).accessWrite a)) := by
  simp [exec_registerWrite, execRegisterWrite, act_eq, write, head]

/-! ## Reads of a word (R9, R10) -/

theorem readClears_of_findReg {w off i b : Nat} {r : Reg} (found : findReg (windowRegs w) off = some (r, i, b)) :
    readClears w off = r.clear.isSome := by
  simp [readClears, found]

/-- A register of one word that clears on read (R10). -/
theorem Dev.readWord_clears (d : Dev) {w off i b : Nat} {r : Reg} {f : Dev → Nat → Dev}
    (found : findReg (windowRegs w) off = some (r, i, b)) (size : r.size = 4) (clear : r.clear = some f) :
    d.readWord w off = (f d i, r.value d i % 2 ^ 32) := by
  simp [Dev.readWord, found, size, clear]

/-- A lower word of a wider register latches the upper one (R9). -/
theorem Dev.readWord_lower (d : Dev) {w off i b : Nat} {r : Reg}
    (found : findReg (windowRegs w) off = some (r, i, b)) (size : r.size ≠ 4) (lower : b % 8 = 0) :
    d.readWord w off =
      ({ d with fab := { d.fab with
          latch := fset d.fab.latch (wordKey w (off + 4)) (r.value d i / 2 ^ (8 * (b + 4)) % 2 ^ 32) } },
        r.value d i / 2 ^ (8 * b) % 2 ^ 32) := by
  simp only [Dev.readWord, found, if_neg size, if_pos lower]

/-- An upper word takes what is latched for it (R9). -/
theorem Dev.readWord_upper (d : Dev) {w off i b u : Nat} {r : Reg}
    (found : findReg (windowRegs w) off = some (r, i, b)) (size : r.size ≠ 4) (upper : b % 8 ≠ 0)
    (latched : ffind d.fab.latch (wordKey w off) = some u) :
    d.readWord w off =
      ({ d with fab := { d.fab with latch := d.fab.latch.filter (fun p => decide (p.1 ≠ wordKey w off)) } }, u) := by
  simp only [Dev.readWord, found, if_neg size, if_neg upper, latched]

/-! ## Reads of a core and of a host (R9, R10, R15, R19) -/

/-- What a core's direct read of a word leaves, with its answer. -/
def Dev.wordAnswered (d : Dev) (w off : Nat) : Dev := (d.readWord w off).1.emit (.readData (d.readWord w off).2)

theorem Dev.readSpot_core {d : Dev} {core addr : Nat} {wide : Bool} {spot : Nat × Nat}
    (reaches : d.coreSpot core addr false = some spot) (aligned : alignedTo addr wide = true) :
    d.readSpot (.core core) addr wide = some spot := by
  simp [Dev.readSpot, aligned, reaches]

theorem Dev.readDirect_core (d : Dev) (core addr w off : Nat) :
    d.readDirect (.core core) addr false w off = d.wordAnswered w off := rfl

theorem exec_rcCounterRead_core {s : State} {core addr w off : Nat}
    (reaches : s.dev0.coreSpot core addr false = some (w, off)) (aligned : alignedTo addr false = true)
    (clears : readClears w off = true) :
    exec (.rcCounterRead (.core core) addr) s = .next (s.withDev (s.dev0.wordAnswered w off)) := by
  simp [exec_rcCounterRead, execRcCounterRead, act_eq, Dev.readSpot_core reaches aligned, clears, Dev.readDirect_core]

theorem exec_upperWordLatch_core {s : State} {core addr w off : Nat}
    (reaches : s.dev0.coreSpot core addr false = some (w, off)) (aligned : alignedTo addr false = true)
    (keeps : readClears w off = false) :
    exec (.upperWordLatch (.core core) ⟨addr, false⟩) s = .next (s.withDev (s.dev0.wordAnswered w off)) := by
  simp [exec_upperWordLatch, execUpperWordLatch, act_eq, Dev.readSpot_core reaches aligned, keeps, Dev.readDirect_core]

theorem exec_rcCounterRead_core_clears {s : State} {core addr w off i b : Nat} {r : Reg} {f : Dev → Nat → Dev}
    (reaches : s.dev0.coreSpot core addr false = some (w, off)) (aligned : alignedTo addr false = true)
    (found : findReg (windowRegs w) off = some (r, i, b)) (size : r.size = 4) (clear : r.clear = some f) :
    exec (.rcCounterRead (.core core) addr) s =
      .next (s.withDev ((f s.dev0 i).emit (.readData (r.value s.dev0 i % 2 ^ 32)))) := by
  have clears : readClears w off = true := by rw [readClears_of_findReg found, clear, Option.isSome_some]
  rw [exec_rcCounterRead_core reaches aligned clears, Dev.wordAnswered, Dev.readWord_clears _ found size clear]

theorem exec_rcCounterRead_bar2 {s : State} {port addr w off dir : Nat}
    (reaches : s.dev0.readSpot (.bar2 port) addr false = some (w, off)) (clears : readClears w off = true)
    (foreign : bar2Lane addr = some dir) :
    exec (.rcCounterRead (.bar2 port) addr) s =
      .next (s.withDev (s.dev0.pushBridge dir (bar2Access port addr false false 0))) := by
  simp [exec_rcCounterRead, execRcCounterRead, act_eq, reaches, clears, Dev.readDirect, foreign]

theorem exec_upperWordLatch_core_lower {s : State} {core addr w off i b : Nat} {r : Reg}
    (reaches : s.dev0.coreSpot core addr false = some (w, off)) (aligned : alignedTo addr false = true)
    (found : findReg (windowRegs w) off = some (r, i, b)) (size : r.size ≠ 4) (clear : r.clear = none)
    (lower : b % 8 = 0) :
    exec (.upperWordLatch (.core core) ⟨addr, false⟩) s = .next (s.withDev
      (({ s.dev0 with fab := { s.dev0.fab with
          latch := fset s.dev0.fab.latch (wordKey w (off + 4)) (r.value s.dev0 i / 2 ^ (8 * (b + 4)) % 2 ^ 32) } } :
        Dev).emit (.readData (r.value s.dev0 i / 2 ^ (8 * b) % 2 ^ 32)))) := by
  have keeps : readClears w off = false := by rw [readClears_of_findReg found, clear, Option.isSome_none]
  rw [exec_upperWordLatch_core reaches aligned keeps, Dev.wordAnswered, Dev.readWord_lower _ found size lower]

theorem exec_upperWordLatch_core_upper {s : State} {core addr w off i b u : Nat} {r : Reg}
    (reaches : s.dev0.coreSpot core addr false = some (w, off)) (aligned : alignedTo addr false = true)
    (found : findReg (windowRegs w) off = some (r, i, b)) (size : r.size ≠ 4) (clear : r.clear = none)
    (upper : b % 8 ≠ 0) (latched : ffind s.dev0.fab.latch (wordKey w off) = some u) :
    exec (.upperWordLatch (.core core) ⟨addr, false⟩) s = .next (s.withDev
      (({ s.dev0 with fab := { s.dev0.fab with
          latch := s.dev0.fab.latch.filter (fun p => decide (p.1 ≠ wordKey w off)) } } : Dev).emit (.readData u))) := by
  have keeps : readClears w off = false := by rw [readClears_of_findReg found, clear, Option.isSome_none]
  rw [exec_upperWordLatch_core reaches aligned keeps, Dev.wordAnswered, Dev.readWord_upper _ found size upper latched]

/-! ## Commits and discards (R13, R26) -/

theorem exec_stagedCommit_on {s : State} {w : Nat} {f : Dev → Dev}
    (commit : windowCommit w = some f) (on : s.dev0.windowOn w = true) :
    exec (.stagedCommit w) s = .next (s.withDev (f s.dev0)) := by
  simp [exec_stagedCommit, execStagedCommit, act_eq, commit, on]

theorem exec_bar2WriteDiscarded_notClassS {s : State} {fix addr : Nat} {wide : Bool}
    (pf : s.dev0.isPf fix = true) (takes : s.dev0.bar2Open (s.dev0.portOf fix) = true)
    (aligned : alignedTo addr wide = true) (inside : addr < bar2Bytes) (notS : windowClass (windowAt addr) ≠ 0) :
    exec (.bar2WriteDiscarded fix addr wide) s = .next (s.withDev (s.dev0.discard fix addr)) := by
  simp [exec_bar2WriteDiscarded, execBar2WriteDiscarded, act_eq, pf, takes, aligned, inside, notS]

/-! ## Bus errors (R30, R31) -/

/-- A refusal to one of the 48 cores also raises its private source 3 (R366). -/
theorem Dev.refuseAccess_core (d : Dev) {core : Nat} (addr : Nat) (isCore : core < 48) :
    d.refuseAccess core addr =
      ((d.emit (.busError addr)).log 0x0102 noUnit (fields [(8, addr), (1, core)])).privEvent core 3 := by
  simp [Dev.refuseAccess, Dev.doIf, isCore]

theorem Dev.refuseAccess_mgmt (d : Dev) (addr : Nat) :
    d.refuseAccess 48 addr = (d.emit (.busError addr)).log 0x0102 noUnit (fields [(8, addr), (1, 48)]) := by
  simp [Dev.refuseAccess, Dev.doIf]

theorem exec_coreBusError_refused {s : State} {core addr kind : Nat} {journal : Bool} (known : core ≤ 48)
    (on : core = 48 ∨ s.dev0.domOn .control = true) (mayNot : s.dev0.coreMay core addr kind journal = false) :
    exec (.coreBusError core addr kind journal) s = .next (s.withDev (s.dev0.refuseAccess core addr)) := by
  have noPass : ¬ (48 < core ∨ (core ≠ 48 ∧ s.dev0.domOn .control = false) ∨
      s.dev0.coreMay core addr kind journal = true) := by
    rintro (unknown | ⟨notMgmt, off⟩ | may)
    · omega
    · simp [notMgmt, off] at on
    · simp [mayNot] at may
  rw [exec_coreBusError, execCoreBusError, act_eq, if_neg noPass]

theorem exec_coreBusError_core {s : State} {core addr kind : Nat} {journal : Bool} (isCore : core < 48)
    (on : s.dev0.domOn .control = true) (mayNot : s.dev0.coreMay core addr kind journal = false) :
    exec (.coreBusError core addr kind journal) s = .next (s.withDev
      (((s.dev0.emit (.busError addr)).log 0x0102 noUnit (fields [(8, addr), (1, core)])).privEvent core 3)) := by
  rw [exec_coreBusError_refused (Nat.le_of_lt isCore) (.inr on) mayNot, Dev.refuseAccess_core _ _ isCore]

theorem exec_coreBusError_mgmt {s : State} {addr kind : Nat} {journal : Bool}
    (mayNot : s.dev0.coreMay 48 addr kind journal = false) :
    exec (.coreBusError 48 addr kind journal) s = .next (s.withDev
      ((s.dev0.emit (.busError addr)).log 0x0102 noUnit (fields [(8, addr), (1, 48)]))) := by
  rw [exec_coreBusError_refused (Nat.le_refl 48) (.inl rfl) mayNot, Dev.refuseAccess_mgmt]

/-! ## The bridge (R19) -/

theorem Dev.pushBridge_room (d : Dev) {dir : Nat} (a : Access) (room : (d.lane dir).queue.length < 64)
    (noneWaits : (d.lane dir).stalled = []) :
    d.pushBridge dir a = d.modBridge dir (fun l => { l with queue := l.queue ++ [a] }) := by
  simp [Dev.pushBridge, room, noneWaits]

theorem Dev.pushBridge_full (d : Dev) {dir : Nat} (a : Access) (full : 64 ≤ (d.lane dir).queue.length) :
    d.pushBridge dir a = (d.modBridge dir (fun l => { l with stalled := l.stalled ++ [a] })).emit .stalled := by
  simp [Dev.pushBridge, Nat.not_lt.mpr full]

theorem exec_bridgeAccess_carried {s : State} {dir addr value : Nat} {source : Source} {src dst : Plane}
    {wide isWrite : Bool} (planes : bridgePlanes dir = some (src, dst)) (ofSource : sourcePlane source = src)
    (ofTarget : planeAt addr = some dst) (aligned : alignedTo addr wide = true)
    (sourceOn : s.dev0.sourceOn source addr = true) (targetOn : s.dev0.targetOn addr = true) :
    exec (.bridgeAccess dir source addr wide isWrite value) s = .next (s.withDev (s.dev0.pushBridge dir
      { source := source, addr := addr, wide := wide, isWrite := isWrite, data := value })) := by
  simp [exec_bridgeAccess, execBridgeAccess, act_eq, planes, ofSource, ofTarget, aligned, sourceOn, targetOn]

theorem exec_bridgeReadReturn_read {s : State} {dir : Nat} {a : Access} {t : List Access}
    (read : a.isWrite = false) (head : (s.dev0.lane dir).queue = a :: t) :
    exec (.bridgeReadReturn dir) s = .next (s.withDev ((s.dev0.popBridge dir).accessRead a)) := by
  simp [exec_bridgeReadReturn, execBridgeReadReturn, act_eq, head, read]

theorem Dev.accessRead_refused (d : Dev) {a : Access} {core : Nat} (refused : a.refusedTo = some core) :
    d.accessRead a = d.refuseAccess core a.addr := by
  simp [Dev.accessRead, refused]

theorem Dev.accessWrite_refused (d : Dev) {a : Access} {core : Nat} (refused : a.refusedTo = some core) :
    d.accessWrite a = d.refuseAccess core a.addr := by
  simp [Dev.accessWrite, refused]

/-! ## The statement -/

/-- Settles O45: each clause is one of the lemmas above, the two of a bridge access by the room in its queue. That one latch
serves all sources (log 93) and that the bridge's accesses are carried out from its head (log 82) are the model's choices. -/
theorem registersMove : Obligations.RegistersMove := by
  unfold Obligations.RegistersMove
  intro s fix core port dir addr w off mask value kind i b k c r a t source src dst wide isWrite journal
  refine ⟨?bar0AndMsix, exec_registerWrite_config, exec_registerWrite_core, exec_registerWrite_bridge, ?clearing,
    exec_rcCounterRead_bar2, exec_upperWordLatch_core_lower, exec_upperWordLatch_core_upper, ?commit,
    exec_tolViolatedClear mask s, exec_bar2WriteDiscarded_notClassS, exec_coreBusError_core, exec_coreBusError_mgmt,
    ?bridge, exec_bridgeReadReturn_read, ?refusal⟩
  case bar0AndMsix =>
    exact fun taken aligned => ⟨exec_registerWrite_nvme taken aligned, exec_registerWrite_msix taken aligned⟩
  case clearing =>
    exact fun reaches aligned found size f clear => exec_rcCounterRead_core_clears reaches aligned found size clear
  case commit =>
    exact fun f commit on => exec_stagedCommit_on commit on
  case bridge =>
    intro planes ofSource ofTarget aligned sourceOn targetOn acc
    have carried : exec (.bridgeAccess dir source addr wide isWrite value) s =
        .next (s.withDev (s.dev0.pushBridge dir acc)) :=
      exec_bridgeAccess_carried planes ofSource ofTarget aligned sourceOn targetOn
    refine ⟨fun room noneWaits => ?_, fun full => ?_⟩
    · rw [carried, Dev.pushBridge_room _ acc room noneWaits]
    · rw [carried, Dev.pushBridge_full _ acc full]
  case refusal =>
    exact fun refused => ⟨Dev.accessRead_refused _ refused, Dev.accessWrite_refused _ refused⟩

end Sys2Proof.Machine

/-! BAR2 (R27), mailboxes, hand-off buffers and shares (R17, R18, R60, R65), the pools' balance (R60), the clock's count (R38)
and the state at reset: the lemmas and the statements O46, O49, O50, O57 and O60. -/

namespace Sys2Proof.Machine

/-! ## BAR2 (R27) -/

theorem exec_bar2UnsupportedAccess (fix offset len : Nat) (s : State) :
    exec (.bar2UnsupportedAccess fix offset len) s = execBar2UnsupportedAccess fix offset len s := rfl

theorem alignedTo_eq_true {addr : Nat} {wide : Bool} :
    alignedTo addr wide = true ↔ addr % (if wide = true then 8 else 4) = 0 := by
  simp [alignedTo]

theorem exec_registerWrite_bar2 {s : State} {port addr value : Nat} {wide : Bool} (takes : s.dev0.bar2Open port = true)
    (aligned : alignedTo addr wide = true) (inside : addr < bar2Bytes) (own : bar2Lane addr = none) :
    exec (.registerWrite (.bar2 port) addr wide value) s =
      .next (s.withDev (s.dev0.bar2Write (pfOf port) addr wide value)) := by
  simp [exec_registerWrite, execRegisterWrite, act_eq, takes, aligned, inside, own]

theorem exec_registerWrite_bar2_foreign {s : State} {port addr value dir : Nat} {wide : Bool}
    (takes : s.dev0.bar2Open port = true) (aligned : alignedTo addr wide = true) (inside : addr < bar2Bytes)
    (foreign : bar2Lane addr = some dir) :
    exec (.registerWrite (.bar2 port) addr wide value) s =
      .next (s.withDev (s.dev0.pushBridge dir (bar2Access port addr wide true value))) := by
  simp [exec_registerWrite, execRegisterWrite, act_eq, takes, aligned, inside, foreign]

theorem exec_registerWrite_bar2_misaligned {s : State} {port addr value : Nat} {wide : Bool}
    (misaligned : alignedTo addr wide = false) :
    exec (.registerWrite (.bar2 port) addr wide value) s = .next (s.withDev s.dev0) := by
  simp [exec_registerWrite, execRegisterWrite, act_eq, misaligned]

theorem exec_bar2UnsupportedAccess_refused {s : State} {fix addr len : Nat} (pf : s.dev0.isPf fix = true)
    (takes : s.dev0.bar2Open (s.dev0.portOf fix) = true) (notWord : ¬ (len = 4 ∧ addr % 4 = 0))
    (notWide : ¬ (len = 8 ∧ addr % 8 = 0)) :
    exec (.bar2UnsupportedAccess fix addr len) s = .next (s.withDev (s.dev0.emit .unsupportedRequest)) := by
  rw [exec_bar2UnsupportedAccess, execBar2UnsupportedAccess, act_eq, pf, takes, decide_eq_false notWord,
    decide_eq_false notWide]
  rfl

/-- Settles O60: a write is carried out or enters the bridge where it is aligned. That a misaligned `registerWrite` has no
effect and no output is the model's choice (log 1): such an access is the row `bar2UnsupportedAccess`. -/
theorem bar2TakesAlignedAccesses : Obligations.Bar2TakesAlignedAccesses := by
  unfold Obligations.Bar2TakesAlignedAccesses
  intro fix port addr len value wide
  refine ⟨fun aligned inside own s takes => ?own, fun dir aligned inside foreign s takes => ?foreign,
    fun misaligned s _ => ?misaligned, fun notWord notWide s takes => ?other⟩
  case own => exact exec_registerWrite_bar2 takes (alignedTo_eq_true.mpr aligned) inside own
  case foreign => exact exec_registerWrite_bar2_foreign takes (alignedTo_eq_true.mpr aligned) inside foreign
  case misaligned =>
    exact exec_registerWrite_bar2_misaligned (Bool.eq_false_iff.mpr (mt alignedTo_eq_true.mp misaligned))
  case other => exact exec_bar2UnsupportedAccess_refused takes.1 takes.2 notWord notWide

/-! ## Mailbox rings (R16, R17) -/

theorem exec_mailboxSend (ring ty : Nat) (urgent : Bool) (unit : Nat) (payload : Bytes) (s : State) :
    exec (.mailboxSend ring ty urgent unit payload) s = execMailboxSend ring ty urgent unit payload s := rfl
theorem exec_mailboxSlotGranted (ring : Nat) (s : State) :
    exec (.mailboxSlotGranted ring) s = execMailboxSlotGranted ring s := rfl
theorem exec_mailboxReceive (ring : Nat) (s : State) : exec (.mailboxReceive ring) s = execMailboxReceive ring s := rfl

/-- The message that a send of these fields carries (R17). -/
def mailOf (ty : Nat) (urgent : Bool) (unit : Nat) (payload : Bytes) : Msg :=
  { ty := ty % 65536, urgent := urgent, unit := unit % 2 ^ 32, payload := padTo 48 payload }

theorem exec_mailboxSend_slot {s : State} {ring ty unit : Nat} {urgent : Bool} {payload : Bytes} (known : ring < 6)
    (on : s.dev0.domOn .control = true) (free : s.dev0.slotFree ring = true) (noneWaits : (s.dev0.ring ring).stalled = []) :
    exec (.mailboxSend ring ty urgent unit payload) s =
      .next (s.withDev (s.dev0.sendMail ring (mailOf ty urgent unit payload))) := by
  simp [exec_mailboxSend, execMailboxSend, act_eq, Nat.not_le.mpr known, on, free, noneWaits, mailOf]

theorem exec_mailboxSend_stalls {s : State} {ring ty unit : Nat} {urgent : Bool} {payload : Bytes} (known : ring < 6)
    (on : s.dev0.domOn .control = true) (full : s.dev0.slotFree ring = false) :
    exec (.mailboxSend ring ty urgent unit payload) s = .next (s.withDev
      ((s.dev0.modRing ring (fun r => { r with stalled := r.stalled ++ [mailOf ty urgent unit payload] })).emit .stalled)) := by
  simp [exec_mailboxSend, execMailboxSend, act_eq, Nat.not_le.mpr known, on, full, mailOf]

theorem exec_mailboxSlotGranted_oldest {s : State} {ring : Nat} {m : Msg} {t : List Msg}
    (waits : (s.dev0.ring ring).stalled = m :: t) (free : s.dev0.slotFree ring = true) :
    exec (.mailboxSlotGranted ring) s = .next (s.withDev
      ((s.dev0.modRing ring (fun r => { r with stalled := t })).sendMail ring m)) := by
  simp [exec_mailboxSlotGranted, execMailboxSlotGranted, act_eq, waits, free]

theorem takeFirst_eq_none {α : Type} {l : List α} {p : α → Bool} (noneMeets : ∀ x ∈ l, p x = false) :
    takeFirst l p = none := by
  induction l with
  | nil => rfl
  | cons x t ih =>
    obtain ⟨head, tail⟩ := List.forall_mem_cons.mp noneMeets
    simp [takeFirst, head, ih tail]

theorem exec_mailboxReceive_urgent {s : State} {ring : Nat} {m : Msg} {t : List Msg}
    (first : takeFirst (s.dev0.ring ring).slots (·.urgent) = some (m, t)) :
    exec (.mailboxReceive ring) s = .next (s.withDev
      (((s.dev0.modRing ring (fun r => { r with slots := t })).giveBack 15 0 1).emit
        (.mailbox ring m.seq m.ty m.unit m.payload))) := by
  simp [exec_mailboxReceive, execMailboxReceive, act_eq, first]

theorem exec_mailboxReceive_oldest {s : State} {ring : Nat} {m : Msg} {t : List Msg}
    (slots : (s.dev0.ring ring).slots = m :: t) (noneUrgent : ∀ x ∈ m :: t, x.urgent = false) :
    exec (.mailboxReceive ring) s = .next (s.withDev
      (((s.dev0.modRing ring (fun r => { r with slots := t })).giveBack 15 0 1).emit
        (.mailbox ring m.seq m.ty m.unit m.payload))) := by
  have noUrgent : takeFirst (m :: t) (·.urgent) = none := takeFirst_eq_none noneUrgent
  simp [exec_mailboxReceive, execMailboxReceive, act_eq, slots, noUrgent, takeFirst]

/-! ## Hand-off buffers (R18) -/

theorem exec_handoffBufferPass (buffer : Nat) (data : Bytes) (s : State) :
    exec (.handoffBufferPass buffer data) s = execHandoffBufferPass buffer data s := rfl
theorem exec_handoffForeignAccess (buffer offset : Nat) (core : Option Nat) (s : State) :
    exec (.handoffForeignAccess buffer offset core) s = execHandoffForeignAccess buffer offset core s := rfl

section
variable {s : State} {buffer : Nat} {data : Bytes}

theorem exec_handoffBufferPass_free (known : buffer < 256) (free : (s.dev0.buf buffer).inUse = false)
    (on : s.dev0.domOn .data = true) (may : s.dev0.canIssue 16 0 1 = true) :
    exec (.handoffBufferPass buffer data) s = .next (s.withDev
      (((s.dev0.issue 16 0 1).modBuf buffer (fun _ =>
        { owner := .control, inUse := true, bytes := data.take 65536 })).emit (.doorbell 0))) := by
  simp [exec_handoffBufferPass, execHandoffBufferPass, act_eq, Nat.not_le.mpr known, free, on, may]

theorem exec_handoffBufferPass_back (known : buffer < 256) (used : (s.dev0.buf buffer).inUse = true)
    (plain : (s.dev0.buf buffer).kind = 0) (owner : (s.dev0.buf buffer).owner = .control) :
    exec (.handoffBufferPass buffer data) s = .next (s.withDev ((s.dev0.dropBuf buffer).emit (.doorbell 2))) := by
  simp [exec_handoffBufferPass, execHandoffBufferPass, act_eq, Nat.not_le.mpr known, used, plain, owner]

theorem exec_handoffBufferPass_lent {q : Waybill} (known : buffer < 256) (lent : buffer ∈ q.lent)
    (used : (s.dev0.buf buffer).inUse = true) (output : (s.dev0.buf buffer).kind = 2)
    (owner : (s.dev0.buf buffer).owner = .data) (ofWaybill : s.dev0.wb (s.dev0.buf buffer).wb = some q)
    (present : q.epoch = (s.dev0.fn q.ref.fix).epoch) :
    exec (.handoffBufferPass buffer data) s = .next (s.withDev
      ((((s.dev0.emit (.emitted (s.dev0.buf buffer).wb (s.dev0.buf buffer).offset
        (s.dev0.buf buffer).bytes)).dropBuf buffer).modWb (s.dev0.buf buffer).wb
          (fun w => { w with lent := w.lent.filter (· ≠ buffer) })).emit (.doorbell 0))) := by
  simp [exec_handoffBufferPass, execHandoffBufferPass, act_eq, Nat.not_le.mpr known, used, output, owner, ofWaybill, lent,
    present, Dev.doIf]

theorem exec_handoffForeignAccess_core {off core : Nat} (known : buffer < 256) (inside : off < handoffBytes)
    (owner : (s.dev0.buf buffer).owner = .data) :
    exec (.handoffForeignAccess buffer off (some core)) s = .next (s.withDev
      (s.dev0.refuseAccess core (handoffBase + handoffBytes * buffer + off))) := by
  simp [exec_handoffForeignAccess, execHandoffForeignAccess, act_eq, Nat.not_le.mpr known, Nat.not_le.mpr inside, owner]

theorem exec_handoffForeignAccess_data {off : Nat} (known : buffer < 256) (inside : off < handoffBytes)
    (owner : (s.dev0.buf buffer).owner = .control) :
    exec (.handoffForeignAccess buffer off none) s = .next (s.withDev
      (s.dev0.emit (.busError (handoffBase + handoffBytes * buffer + off)))) := by
  simp [exec_handoffForeignAccess, execHandoffForeignAccess, act_eq, Nat.not_le.mpr known, Nat.not_le.mpr inside, owner]
end

/-! ## Shares, squashed items and the accounting epoch (R38, R60, R65) -/

theorem exec_shareUnitsIssued (pool : Nat) (s : State) :
    exec (.shareUnitsIssued pool) s = execShareUnitsIssued pool s := rfl
theorem exec_epochItemSquash (fix : Nat) (w : Waiter) (s : State) :
    exec (.epochItemSquash fix w) s = execEpochItemSquash fix w s := rfl

theorem exec_shareUnitsIssued_serves {s : State} {pool : Nat} (shared : isEPool pool = true) (notDge : pool ≠ 26)
    (notAee : pool ≠ 27) : exec (.shareUnitsIssued pool) s = .next (s.withDev (s.dev0.serveOne pool)) := by
  simp [exec_shareUnitsIssued, execShareUnitsIssued, act_eq, shared, notDge, notAee]

theorem exec_shareUnitsIssued_dge (s : State) :
    exec (.shareUnitsIssued 26) s = .next (s.withDev (s.dev0.serveOne 26).placeDge) := by
  have shared : isEPool 26 = true := by decide
  simp [exec_shareUnitsIssued, execShareUnitsIssued, act_eq, shared]

theorem exec_shareUnitsIssued_aee (s : State) :
    exec (.shareUnitsIssued 27) s = .next (s.withDev (s.dev0.serveOne 27).placeAee) := by
  have shared : isEPool 27 = true := by decide
  simp [exec_shareUnitsIssued, execShareUnitsIssued, act_eq, shared]

theorem exec_accountingEpochBoundary (tj : Int) (sensor : Nat) (top : Int) (margins : List Nat) (s : State) :
    exec (.accountingEpochBoundary tj sensor top margins) s = execAccountingEpochBoundary tj sensor top margins s := rfl

/-- What a squashed item leaves: its unit of pool 31 comes back and is issued to the fence units that wait (log 80). -/
def Dev.itemSquashed (d : Dev) (fix : Nat) (w : Waiter) : Dev :=
  (((d.squashItem fix w).giveBack 31 fix 1).modFn fix (fun f => { f with
    oldItems := f.oldItems.filter (· ≠ w), fence := f.fence - 1 })).issueFences

theorem exec_epochItemSquash_old {s : State} {fix : Nat} {w : Waiter} (old : w ∈ (s.dev0.fn fix).oldItems)
    (fenced : 0 < (s.dev0.fn fix).fence) (ready : s.dev0.itemReady w = true) :
    exec (.epochItemSquash fix w) s = .next (s.withDev
      ((s.dev0.itemSquashed fix w).quiescePort ((s.dev0.itemSquashed fix w).portOf fix))) := by
  rw [exec_epochItemSquash, execEpochItemSquash, act_eq, if_pos ⟨old, fenced, ready⟩]
  rfl

/-- Settles O46: each clause is one of the lemmas above; the last, of an accounting epoch, is what the row runs. That a free
hand-off buffer passes to the control plane (log 52) and that returned fence units are issued again (log 80) are the model's
choices. -/
theorem sharesAndMailboxes : Obligations.SharesAndMailboxes := by
  unfold Obligations.SharesAndMailboxes
  intro s ring ty unit buffer off core pool fix urgent payload data m t q w tj top sensor margins
  refine ⟨exec_mailboxSend_slot, exec_mailboxSend_stalls, exec_mailboxSlotGranted_oldest, exec_mailboxReceive_urgent,
    exec_mailboxReceive_oldest, exec_handoffBufferPass_free, exec_handoffBufferPass_back, exec_handoffBufferPass_lent,
    exec_handoffForeignAccess_core, exec_handoffForeignAccess_data, exec_shareUnitsIssued_serves,
    exec_shareUnitsIssued_dge s, exec_shareUnitsIssued_aee s, exec_epochItemSquash_old, ?_⟩
  rw [exec_accountingEpochBoundary, execAccountingEpochBoundary, act_eq]

/-! ## The balance of a pool (R36, R60) -/

/-- HELD is what is issued and not returned (R36). -/
def Pool.balanced (q : Pool) : Prop := q.issued = q.returned + q.held

section
variable {d : Dev} {p : Nat} (fix n : Nat)

theorem Dev.issue_balanced (bal : (d.pool p).balanced) : ((d.issue p fix n).pool p).balanced := by
  obtain ⟨issued, held, returned⟩ := d.pool_issue p fix n
  unfold Pool.balanced at bal ⊢
  omega

theorem Dev.giveBack_balanced (bal : (d.pool p).balanced) (isHeld : n ≤ (d.pool p).held) :
    ((d.giveBack p fix n).pool p).balanced := by
  obtain ⟨issued, held, returned⟩ := d.pool_giveBack p fix n
  unfold Pool.balanced at bal ⊢
  omega

theorem Dev.serveOne_balanced (bal : (d.pool p).balanced) : ((d.serveOne p).pool p).balanced := by
  unfold Dev.serveOne
  split
  · exact bal
  next r _ => simpa [Pool.balanced] using Dev.issue_balanced r.fix r.n bal

/-- Units that can be issued are free: with those held they stay within the capacity. -/
theorem Dev.held_le_of_canIssue (bal : (d.pool p).balanced) (may : d.canIssue p fix n = true)
    (within : (d.pool p).held ≤ (d.pool p).capacity) : (d.pool p).held + n ≤ (d.pool p).capacity := by
  simp only [Dev.canIssue, Bool.and_eq_true, decide_eq_true_eq] at may
  obtain ⟨⟨free, -⟩, -⟩ := may
  unfold Pool.free at free
  unfold Pool.balanced at bal
  omega

/-- Units of an E pool that can be issued stay within the function's share. -/
theorem Dev.share_of_canIssue (shared : isEPool p = true) (may : d.canIssue p fix n = true) :
    ((d.pool p).shareOf fix).held + n ≤ ((d.pool p).shareOf fix).share := by
  simp only [Dev.canIssue, shared, Bool.and_eq_true, Bool.or_eq_true, Bool.not_true, Bool.false_eq_true, false_or,
    decide_eq_true_eq] at may
  exact may.2.1
end

/-- Settles O57: a request is issued at once or waits, and what is issued could be. -/
theorem poolsStayBalanced : Obligations.PoolsStayBalanced := by
  unfold Obligations.PoolsStayBalanced
  intro d p fix n who bal balanced
  refine ⟨?request, Dev.serveOne_balanced balanced, Dev.giveBack_balanced fix n balanced, ?_⟩
  all_goals rcases d.request_cases p fix n who with ⟨may, issued⟩ | waits
  case request.inl => rw [issued]; exact Dev.issue_balanced fix n balanced
  case request.inr => rw [waits]; simpa [bal] using balanced
  case inl =>
    rw [issued]
    exact ⟨fun _ => ⟨(d.pool_issue p fix n).2.1, Dev.held_le_of_canIssue fix n balanced may,
      fun shared => Dev.share_of_canIssue fix n shared may⟩, nofun⟩
  case inr => rw [waits]; simp

/-! ## The clock's count (R38) -/

/-- The clock after `k` epochs: each adds 768 to the accumulator and counts a further tick where the addition carries. -/
theorem iter_clockNext (k : Nat) (c : Clock) (small : c.accum < 1000) :
    (iter k Clock.next c).ticks = c.ticks + 32 * k + (c.accum + 768 * k) / 1000 ∧
      (iter k Clock.next c).epoch = c.epoch + k ∧ (iter k Clock.next c).accum = (c.accum + 768 * k) % 1000 := by
  induction k generalizing c with
  | zero => simp [iter, Nat.div_eq_of_lt small, Nat.mod_eq_of_lt small]
  | succ k ih =>
    have accum : c.next.accum = (c.accum + 768) % 1000 := rfl
    have epoch : c.next.epoch = c.epoch + 1 := rfl
    have ticks : c.next.ticks = c.ticks + (if 1000 ≤ c.accum + 768 then 33 else 32) := rfl
    obtain ⟨ticks', epoch', accum'⟩ := ih c.next (accum ▸ Nat.mod_lt _ (by omega))
    rw [iter, ticks', epoch', accum', accum, epoch, ticks]
    split <;> omega

/-- Settles O50: over 1,000 epochs the accumulator gains 768,000, which is 768 carries and no rest. -/
theorem clockCountsSeconds : Obligations.ClockCountsSeconds := by
  unfold Obligations.ClockCountsSeconds
  intro c n small
  obtain ⟨ticks, epoch, accum⟩ := iter_clockNext (1000 * n) c small
  exact ⟨ticks.trans (by omega), epoch, accum.trans (by omega)⟩

/-! ## Reset -/

/-- Settles O49: no register file holds an entry at reset, so that every pool, function and ring reads as its default. R43
and R409, which the statement's words name, have no clause of their own. -/
theorem resetHoldsTheSpecValues : Obligations.ResetHoldsTheSpecValues := by
  unfold Obligations.ResetHoldsTheSpecValues
  have clock : State.reset.dev.clk.ok := by simp [State.reset, Clock.ok]
  exact ⟨rfl, rfl, rfl, clock, rfl, rfl, rfl, fun _ => ⟨rfl, rfl⟩, fun _ => ⟨rfl, rfl, rfl, rfl, rfl⟩, fun _ => ⟨rfl, rfl⟩,
    rfl, rfl, rfl, rfl⟩

end Sys2Proof.Machine

/-! The clock's frame (R38): the operations of the device that leave the clock as it was. One lemma per operation, in the
order of the model, each by those of the operations that it runs; a loop or a condition by one lemma of its own. -/

namespace Sys2Proof.Machine

/-! ## Conditions, loops and options -/

@[simp] theorem Dev.clk_ite (c : Prop) [Decidable c] (d e : Dev) :
    (if c then d else e).clk = if c then d.clk else e.clk :=
  apply_ite Dev.clk c d e

theorem Dev.forEach_cons {α : Type} (d : Dev) (a : α) (l : List α) (f : Dev → α → Dev) :
    d.forEach (a :: l) f = (f d a).forEach l f := rfl

@[simp] theorem Dev.forEach_clk {α : Type} (d : Dev) (l : List α) {f : Dev → α → Dev}
    (keeps : ∀ d a, (f d a).clk = d.clk) : (d.forEach l f).clk = d.clk := by
  induction l generalizing d with
  | nil => rfl
  | cons a l ih => rw [Dev.forEach_cons, ih, keeps]

@[simp] theorem Dev.doIf_clk (d : Dev) (c : Bool) {f : Dev → Dev} (keeps : ∀ d, (f d).clk = d.clk) :
    (d.doIf c f).clk = d.clk := by
  simp [Dev.doIf, keeps]

@[simp] theorem iter_clk (n : Nat) {f : Dev → Dev} (keeps : ∀ d, (f d).clk = d.clk) (d : Dev) :
    (iter n f d).clk = d.clk := by
  induction n generalizing d with
  | zero => rfl
  | succ n ih => rw [iter, ih, keeps]

theorem clk_getD {o : Option Dev} {d : Dev} (keeps : ∀ e, o = some e → e.clk = d.clk) : (o.getD d).clk = d.clk := by
  cases o with
  | none => rfl
  | some e => exact keeps e rfl

theorem foldl_clk {α β : Type} (l : List α) {f : Dev × β → α → Dev × β} (keeps : ∀ acc a, (f acc a).1.clk = acc.1.clk)
    (acc : Dev × β) : (l.foldl f acc).1.clk = acc.1.clk := by
  induction l generalizing acc with
  | nil => rfl
  | cons a l ih => rw [List.foldl_cons, ih, keeps]

/-! ## Pools, the event log, the Manifest, interrupts and completions -/

@[simp] theorem Dev.issue_clk (d : Dev) (p fix n : Nat) : (d.issue p fix n).clk = d.clk := rfl
@[simp] theorem Dev.giveBack_clk (d : Dev) (p fix n : Nat) : (d.giveBack p fix n).clk = d.clk := rfl

@[simp] theorem Dev.request_clk (d : Dev) (p fix n : Nat) (who : Waiter) : (d.request p fix n who).1.clk = d.clk := by
  unfold Dev.request
  split <;> simp

@[simp] theorem Dev.hostRead_clk (d : Dev) (fix bytes : Nat) : (d.hostRead fix bytes).clk = d.clk := rfl

@[simp] theorem Dev.serveOne_clk (d : Dev) (p : Nat) : (d.serveOne p).clk = d.clk := by
  unfold Dev.serveOne
  split <;> simp

theorem Dev.takeGrant_clk (d : Dev) (p : Nat) (who : Waiter) {e : Dev} (gives : d.takeGrant p who = some e) :
    e.clk = d.clk := by
  unfold Dev.takeGrant at gives
  split at gives
  · cases gives
    simp
  · cases gives

@[simp] theorem Dev.withdraw_clk (d : Dev) (p : Nat) (who : Waiter) : (d.withdraw p who).clk = d.clk := by
  simp only [Dev.withdraw]
  split <;> simp

@[simp] theorem Dev.log_clk (d : Dev) (code unit : Nat) (data : Bytes) : (d.log code unit data).clk = d.clk := rfl
@[simp] theorem Dev.modVec_clk (d : Dev) (fix v : Nat) (g : Vec → Vec) : (d.modVec fix v g).clk = d.clk := rfl
@[simp] theorem Dev.wakeLink_clk (d : Dev) (n : Nat) : (d.wakeLink n).clk = d.clk := rfl

@[simp] theorem Dev.sendSingle_clk (d : Dev) (fix v : Nat) : (d.sendSingle fix v).clk = d.clk := by
  simp [Dev.sendSingle]

@[simp] theorem Dev.sendMsg_clk (d : Dev) (fix v : Nat) : (d.sendMsg fix v).clk = d.clk := by
  simp [Dev.sendMsg]

@[simp] theorem Dev.flushPba_clk (d : Dev) (fix v : Nat) : (d.flushPba fix v).clk = d.clk := by
  simp [Dev.flushPba]

@[simp] theorem Dev.flushPbaAll_clk (d : Dev) (fix : Nat) : (d.flushPbaAll fix).clk = d.clk := by
  simp [Dev.flushPbaAll]

@[simp] theorem Dev.signal_clk (d : Dev) (fix qid : Nat) : (d.signal fix qid).clk = d.clk := by
  simp [Dev.signal]

@[simp] theorem Dev.postCqe_clk (d : Dev) (r : CmdRef) (cqid : Nat) (st : Status) (dw0 dw1 : Nat) :
    (d.postCqe r cqid st dw0 dw1).clk = d.clk := by
  simp only [Dev.postCqe]
  split <;> simp

@[simp] theorem Dev.addError_clk (d : Dev) (r : CmdRef) (st : Status) : (d.addError r st).clk = d.clk := rfl

@[simp] theorem Dev.endTunnel_clk (d : Dev) (r : CmdRef) (answer : Bool) (st : Status) (dw0 dw1 : Nat) :
    (d.endTunnel r answer st dw0 dw1).clk = d.clk := by
  simp [Dev.endTunnel]

@[simp] theorem Dev.completeOne_clk (d : Dev) (r : CmdRef) (st : Status) (dw0 dw1 : Nat) :
    (d.completeOne r st dw0 dw1).clk = d.clk := by
  simp only [Dev.completeOne]
  repeat' split
  all_goals simp

@[simp] theorem Dev.endDelete_clk (d : Dev) (c : Cmd) : (d.endDelete c).clk = d.clk := by
  unfold Dev.endDelete
  split <;> simp

@[simp] theorem Dev.endDeletes_clk (d : Dev) (fix : Nat) : (d.endDeletes fix).clk = d.clk := by
  simp [Dev.endDeletes]

@[simp] theorem Dev.complete_clk (d : Dev) (r : CmdRef) (st : Status) (dw0 : Nat) (dw1 : Nat) :
    (d.complete r st dw0 dw1).clk = d.clk := by
  simp only [Dev.complete]
  split <;> simp

@[simp] theorem Dev.postAen_clk (d : Dev) (fix ty info page : Nat) : (d.postAen fix ty info page).clk = d.clk := by
  simp only [Dev.postAen]
  repeat' split
  all_goals simp

@[simp] theorem Dev.vendorEvent_clk (d : Dev) (value : Nat) : (d.vendorEvent value).clk = d.clk := by
  simp [Dev.vendorEvent]

@[simp] theorem Dev.transition_clk (d : Dev) (id : Nat) (st : UState) (rs : Reason) :
    (d.transition id st rs).clk = d.clk := by
  simp [Dev.transition]

@[simp] theorem Dev.logPinned_clk (d : Dev) (table : Nat) (value : Int) : (d.logPinned table value).clk = d.clk := rfl

/-! ## The interrupt controller -/

@[simp] theorem Dev.presentId_clk (d : Dev) (b id : Nat) : (d.presentId b id).clk = d.clk := by
  simp [Dev.presentId]

@[simp] theorem Dev.srcEvent_clk (d : Dev) (n : Nat) : (d.srcEvent n).clk = d.clk := by
  simp [Dev.srcEvent]

@[simp] theorem Dev.privEvent_clk (d : Dev) (b i : Nat) : (d.privEvent b i).clk = d.clk := by
  simp [Dev.privEvent]

@[simp] theorem Dev.nudge_clk (d : Dev) (n bank : Nat) : (d.nudge n bank).clk = d.clk := by
  simp [Dev.nudge]

@[simp] theorem Dev.raise_clk (d : Dev) (id : Nat) : (d.raise id).clk = d.clk := by
  simp [Dev.raise]

@[simp] theorem Dev.claim_clk (d : Dev) (bank : Nat) : (d.claim bank).1.clk = d.clk := by
  unfold Dev.claim
  repeat' split
  all_goals simp

@[simp] theorem Dev.completeId_clk (d : Dev) (bank id : Nat) : (d.completeId bank id).clk = d.clk := by
  simp only [Dev.completeId]
  repeat' split
  all_goals simp

@[simp] theorem Dev.presentNew_clk (d old : Dev) (b : Nat) : (d.presentNew old b).clk = d.clk := by
  unfold Dev.presentNew
  split <;> simp

@[simp] theorem Dev.commitIcu_clk (d : Dev) : d.commitIcu.clk = d.clk := by
  unfold Dev.commitIcu
  split <;> simp

@[simp] theorem Dev.requestWake_clk (d : Dev) (cause : Nat) : (d.requestWake cause).clk = d.clk := by
  unfold Dev.requestWake
  split <;> simp

/-! ## The host link and the functions -/

@[simp] theorem Dev.flushPort_clk (d : Dev) (port : Nat) : (d.flushPort port).clk = d.clk := by
  simp [Dev.flushPort]

@[simp] theorem Dev.setPower_clk (d : Dev) (fix : Nat) (d0 : Bool) : (d.setPower fix d0).clk = d.clk := by
  simp [Dev.setPower]

@[simp] theorem Dev.issueFence_clk (d : Dev) (fix : Nat) : (d.issueFence fix).clk = d.clk := rfl

@[simp] theorem Dev.issueFences_clk (d : Dev) : d.issueFences.clk = d.clk := Dev.forEach_clk _ _ fun _ _ => rfl

@[simp] theorem Dev.endSelfTest_clk (d : Dev) (result : Nat) : (d.endSelfTest result).clk = d.clk := rfl

@[simp] theorem Dev.resetFn_clk (d : Dev) (fix : Nat) (keepTable : Bool) : (d.resetFn fix keepTable).clk = d.clk := by
  simp -implicitDefEqProofs [Dev.resetFn]

@[simp] theorem Dev.clearVfs_clk (d : Dev) (port : Nat) : (d.clearVfs port).clk = d.clk := by
  simp [Dev.clearVfs]

@[simp] theorem Dev.resetPort_clk (d : Dev) (port : Nat) : (d.resetPort port).clk = d.clk := by
  simp [Dev.resetPort]

@[simp] theorem Dev.setVfEnable_clk (d : Dev) (port : Nat) (enable : Bool) :
    (d.setVfEnable port enable).clk = d.clk := by
  simp [Dev.setVfEnable]

@[simp] theorem Dev.quiescePort_clk (d : Dev) (port : Nat) : (d.quiescePort port).clk = d.clk := by
  simp [Dev.quiescePort]

@[simp] theorem Dev.activate_clk (d : Dev) : d.activate.clk = d.clk := rfl

@[simp] theorem Dev.recomputeShares_clk (d : Dev) (oldA : Nat) :
    (d.recomputeShares oldA).clk = d.clk := Dev.forEach_clk _ _ fun _ _ => rfl

/-! ## Doorbells, fetch and shutdown -/

@[simp] theorem Dev.badDoorbell_clk (d : Dev) (fix info : Nat) : (d.badDoorbell fix info).clk = d.clk := by
  simp [Dev.badDoorbell]

@[simp] theorem Dev.sqTail_clk (d : Dev) (fix qid value : Nat) : (d.sqTail fix qid value).clk = d.clk := by
  fun_cases Dev.sqTail <;> simp

@[simp] theorem Dev.releaseHeld_clk (d : Dev) (fix qid n : Nat) : (d.releaseHeld fix qid n).clk = d.clk := by
  induction n generalizing d with
  | zero => rfl
  | succ n ih =>
    unfold Dev.releaseHeld
    repeat' split
    all_goals simp [ih]

@[simp] theorem Dev.cqHead_clk (d : Dev) (fix qid value : Nat) : (d.cqHead fix qid value).clk = d.clk := by
  fun_cases Dev.cqHead <;> simp

@[simp] theorem Dev.doorbell_clk (d : Dev) (fix off v : Nat) : (d.doorbell fix off v).clk = d.clk := by
  unfold Dev.doorbell
  split <;> simp

/-! ## Configuration space, BAR0 and BAR4 -/

@[simp] theorem Dev.writeBar_clk (d : Dev) (fix n v : Nat) : (d.writeBar fix n v).clk = d.clk := by
  fun_cases Dev.writeBar <;> simp

@[simp] theorem Dev.writeConfig_clk (d : Dev) (fix : Nat) (c : ConfigField) (v : Nat) :
    (d.writeConfig fix c v).clk = d.clk := by
  unfold Dev.writeConfig
  split <;> simp -implicitDefEqProofs

@[simp] theorem Dev.writeBar0Word_clk (d : Dev) (fix off v : Nat) : (d.writeBar0Word fix off v).clk = d.clk := by
  simp [Dev.writeBar0Word]

@[simp] theorem Dev.writeBar0_clk (d : Dev) (fix off : Nat) (wide : Bool) (v : Nat) :
    (d.writeBar0 fix off wide v).clk = d.clk := by
  simp [Dev.writeBar0]

@[simp] theorem Dev.writeMsix_clk (d : Dev) (fix off : Nat) (wide : Bool) (v : Nat) :
    (d.writeMsix fix off wide v).clk = d.clk := by
  simp [Dev.writeMsix]

/-! ## Addresses, sets, journal records and namespaces -/

@[simp] theorem Dev.tell_clk (d : Dev) (kind : MediaKind) (die block : Nat) :
    (d.tell kind die block).clk = d.clk := by
  simp [Dev.tell]

@[simp] theorem Dev.tellRead_clk (d : Dev) (kind : MediaKind) (die block : Nat) (offsets : List Int) :
    (d.tellRead kind die block offsets).clk = d.clk := by
  simp [Dev.tellRead]

@[simp] theorem Dev.writeRecord_clk (d : Dev) (r : JRec) : (d.writeRecord r).clk = d.clk := by
  simp [Dev.writeRecord]

@[simp] theorem Dev.record_clk (d : Dev) (ty a b c e : Nat) (owner : Option CmdRef) (wid : Option Nat) (prev : Nat) :
    (d.record ty a b c e owner wid prev).clk = d.clk := by
  simp [Dev.record]

@[simp] theorem Dev.pumpRecords_clk (d : Dev) (n : Nat) : (d.pumpRecords n).clk = d.clk := by
  induction n generalizing d with
  | zero => rfl
  | succ n ih =>
    unfold Dev.pumpRecords
    split
    · split <;> simp [ih]
    · rfl

@[simp] theorem Dev.blockState_clk (d : Dev) (die block st reason : Nat) :
    (d.blockState die block st reason).clk = d.clk := by
  simp [Dev.blockState]

@[simp] theorem Dev.openSet_clk (d : Dev) (col b mode use : Nat) (refresh : Bool) :
    (d.openSet col b mode use refresh).clk = d.clk := by
  simp [Dev.openSet]

@[simp] theorem Dev.releaseBlock_clk (d : Dev) (k : Block) : (d.releaseBlock k).clk = d.clk := by
  simp [Dev.releaseBlock]

@[simp] theorem Dev.eraseQueued_clk (d : Dev) (die block reason : Nat) :
    (d.eraseQueued die block reason).clk = d.clk := by
  simp [Dev.eraseQueued]

@[simp] theorem Dev.closeBlock_clk (d : Dev) (die block reason : Nat) :
    (d.closeBlock die block reason).clk = d.clk := by
  simp [Dev.closeBlock]

@[simp] theorem Dev.retirePartners_clk (d : Dev) (col b : Nat) (gs : List Nat) :
    (d.retirePartners col b gs).clk = d.clk := by
  simp [Dev.retirePartners]

@[simp] theorem Dev.retireBlock_clk (d : Dev) (die block reason : Nat) :
    (d.retireBlock die block reason).clk = d.clk := by
  unfold Dev.retireBlock
  extract_lets k col d1 d2 d3 d4 par
  split
  · rfl
  · have kept : d4.clk = d.clk := by simp -implicitDefEqProofs [d4, d3, d2, d1]
    split
    · exact kept
    · dsimp only
      split
      · exact kept
      · exact (Dev.forEach_clk _ _ fun _ _ => Dev.modDie_clk _ _ _).trans kept

@[simp] theorem Dev.modNs_clk (d : Dev) (nsid : Nat) (f : Ns → Ns) : (d.modNs nsid f).clk = d.clk := by
  unfold Dev.modNs
  split <;> simp

@[simp] theorem Dev.recapMedia_clk (d : Dev) : d.recapMedia.clk = d.clk := rfl

@[simp] theorem Dev.warn_clk (d : Dev) (b : Nat) (on : Bool) : (d.warn b on).clk = d.clk := by
  simp [Dev.warn]

@[simp] theorem Dev.noticeTo_clk (d : Dev) (nsid : Nat) (fixes : List Nat) : (d.noticeTo nsid fixes).clk = d.clk := by
  simp [Dev.noticeTo]

@[simp] theorem Dev.nsChanged_clk (d : Dev) (nsid : Nat) : (d.nsChanged nsid).clk = d.clk := by
  unfold Dev.nsChanged
  split <;> simp

@[simp] theorem Dev.checkTemps_clk (d : Dev) : d.checkTemps.clk = d.clk := by
  simp [Dev.checkTemps]

@[simp] theorem Dev.setItem_clk (d : Dev) (kind ix : Nat) (i : Item) : (d.setItem kind ix i).clk = d.clk := rfl
@[simp] theorem Dev.modItem_clk (d : Dev) (kind ix : Nat) (f : Item → Item) : (d.modItem kind ix f).clk = d.clk := rfl
@[simp] theorem Dev.useItem_clk (d : Dev) (kind ix : Nat) : (d.useItem kind ix).clk = d.clk := rfl

theorem Dev.evictOne_clk (d : Dev) (keep : Nat) {e : Dev} (gives : d.evictOne keep = some e) : e.clk = d.clk := by
  unfold Dev.evictOne at gives
  split at gives
  · cases gives
    simp
  · obtain ⟨p, -, rfl⟩ := Option.map_eq_some_iff.mp gives
    simp

theorem Dev.makeRoom_clk (d : Dev) (n keep fuel : Nat) {e : Dev} (gives : d.makeRoom n keep fuel = some e) :
    e.clk = d.clk := by
  induction fuel generalizing d with
  | zero =>
    simp only [Dev.makeRoom] at gives
    split at gives <;> cases gives
    rfl
  | succ fuel ih =>
    simp only [Dev.makeRoom] at gives
    split at gives
    · cases gives
      rfl
    · split at gives
      next f evicted => exact (ih _ gives).trans (Dev.evictOne_clk d keep evicted)
      next => cases gives

theorem Dev.roomFor_clk (d : Dev) (n keep : Nat) {e : Dev} (gives : d.roomFor n keep = some e) : e.clk = d.clk :=
 
  Dev.makeRoom_clk d n keep _ gives

@[simp] theorem Dev.roomOver_clk (d : Dev) (n keep : Nat) : (d.roomOver n keep).clk = d.clk :=
 
  clk_getD fun _ => Dev.roomFor_clk d n keep

@[simp] theorem Dev.dirty_clk (d : Dev) (kind ix seq : Nat) : (d.dirty kind ix seq).clk = d.clk := by
  simp [Dev.dirty]

@[simp] theorem Dev.layAgain_clk (d : Dev) (hit : Nat → Bool) : (d.layAgain hit).clk = d.clk := by
  simp [Dev.layAgain]

@[simp] theorem Dev.lookup_clk (d : Dev) (t : Nat) : (d.lookup t).1.clk = d.clk := by
  fun_cases Dev.lookup <;> simp

@[simp] theorem Dev.resizeItems_clk (d : Dev) (r : JRec) : (d.resizeItems r).clk = d.clk := by
  simp [Dev.resizeItems]

/-! ## The write pipeline -/

@[simp] theorem Dev.modWg_clk (d : Dev) (id : Nat) (f : WGran → WGran) : (d.modWg id f).clk = d.clk := rfl
@[simp] theorem Dev.dropWg_clk (d : Dev) (id : Nat) : (d.dropWg id).clk = d.clk := rfl

@[simp] theorem Dev.wgReady_clk (d : Dev) (id : Nat) (st : WStage) : (d.wgReady id st).clk = d.clk := by
  unfold Dev.wgReady
  split <;> simp

@[simp] theorem Dev.partDone_clk (d : Dev) (r : CmdRef) (st : Status) : (d.partDone r st).clk = d.clk := by
  unfold Dev.partDone
  split <;> simp

@[simp] theorem Dev.modRg_clk (d : Dev) (id : Nat) (f : RGran → RGran) : (d.modRg id f).clk = d.clk := rfl
@[simp] theorem Dev.dropRg_clk (d : Dev) (id : Nat) : (d.dropRg id).clk = d.clk := rfl

@[simp] theorem Dev.rgReady_clk (d : Dev) (id : Nat) (st : RStage) : (d.rgReady id st).clk = d.clk := by
  unfold Dev.rgReady
  split <;> simp

@[simp] theorem Dev.encode_clk (d : Dev) (die b u : Nat) : (d.encode die b u).clk = d.clk := by
  unfold Dev.encode
  split <;> simp

@[simp] theorem Dev.startNext_clk (d : Dev) (n : Nat) : (d.startNext n).clk = d.clk := by
  simp only [Dev.startNext]
  repeat' split
  all_goals simp

@[simp] theorem Dev.queueOp_clk (d : Dev) (n : Nat) (o : DieOp) : (d.queueOp n o).clk = d.clk := by
  simp [Dev.queueOp]

@[simp] theorem Dev.endTag_clk (d : Dev) (c : Nat) : (d.endTag c).clk = d.clk := by
  simp only [Dev.endTag]
  repeat' split
  all_goals simp

@[simp] theorem Dev.readDone_clk (d : Dev) (die : Nat) : (d.readDone die).clk = d.clk := by
  simp [Dev.readDone]

@[simp] theorem Dev.openStripe_clk (d : Dev) (col b u mode : Nat) : (d.openStripe col b u mode).clk = d.clk := by
  simp [Dev.openStripe]

@[simp] theorem Dev.sweepBlock_clk (d : Dev) (key : Nat) : (d.sweepBlock key).clk = d.clk := by
  simp [Dev.sweepBlock]

@[simp] theorem Dev.sweepBlocks_clk (d : Dev) : d.sweepBlocks.clk = d.clk := by
  simp [Dev.sweepBlocks]

@[simp] theorem Dev.lastPu_clk (d : Dev) (die b u : Nat) : (d.lastPu die b u).clk = d.clk := by
  simp [Dev.lastPu]

@[simp] theorem Dev.giveUnit_clk (d : Dev) (die b u mode endU : Nat) :
    (d.giveUnit die b u mode endU).clk = d.clk := by
  simp [Dev.giveUnit]

@[simp] theorem Dev.closeFull_clk (d : Dev) (col b u : Nat) : (d.closeFull col b u).clk = d.clk := rfl

theorem Dev.pushUnit_clk (d : Dev) (col b g : Nat) {e : Dev} (gives : d.pushUnit col b g = some e) :
    e.clk = d.clk := by
  unfold Dev.pushUnit at gives
  dsimp only at gives
  repeat' split at gives
  all_goals cases gives
  all_goals simp

@[simp] theorem Dev.pushSet_clk (d : Dev) (col b fuel : Nat) : (d.pushSet col b fuel).clk = d.clk := by
  induction fuel generalizing d with
  | zero => rfl
  | succ fuel ih =>
    unfold Dev.pushSet
    split
    next e pushed =>
      obtain ⟨g, -, given⟩ := List.exists_of_findSome?_eq_some pushed
      rw [ih, Dev.pushUnit_clk d col b g given]
    next => rfl

@[simp] theorem Dev.padStripe_clk (d : Dev) (col b u : Nat) : (d.padStripe col b u).clk = d.clk := by
  unfold Dev.padStripe
  split <;> simp

@[simp] theorem Dev.leaveLane_clk (d : Dev) (id pool : Nat) : (d.leaveLane id pool).clk = d.clk := by
  unfold Dev.leaveLane
  split <;> simp

@[simp] theorem Dev.place_clk (d : Dev) (id col b grp : Nat) : (d.place id col b grp).clk = d.clk := by
  unfold Dev.place
  split <;> simp

@[simp] theorem Dev.toMedia_clk (d : Dev) (id : Nat) : (d.toMedia id).clk = d.clk := by
  unfold Dev.toMedia
  split <;> simp

@[simp] theorem Dev.startMerge_clk (d : Dev) (g : WGran) (e : GEntry) : (d.startMerge g e).clk = d.clk := by
  simp [Dev.startMerge]

@[simp] theorem Dev.afterCredit_clk (d : Dev) (id : Nat) : (d.afterCredit id).clk = d.clk := by
  simp only [Dev.afterCredit]
  repeat' split
  all_goals simp

@[simp] theorem Dev.mapClear_clk (d : Dev) (t n : Nat) (owner : Option CmdRef) (wid : Option Nat) :
    (d.mapClear t n owner wid).clk = d.clk := by
  simp [Dev.mapClear]

@[simp] theorem Dev.clearNow_clk (d : Dev) (g : WGran) : (d.clearNow g).clk = d.clk := by
  simp [Dev.clearNow]

@[simp] theorem Dev.tryStage2_clk (d : Dev) (id : Nat) : (d.tryStage2 id).clk = d.clk := by
  unfold Dev.tryStage2
  split <;> simp

@[simp] theorem Dev.retryStage2_clk (d : Dev) : d.retryStage2.clk = d.clk := by
  simp [Dev.retryStage2]

@[simp] theorem Dev.loseUnits_clk (d : Dev) (key n : Nat) : (d.loseUnits key n).clk = d.clk := by
  simp [Dev.loseUnits]

@[simp] theorem Dev.setEntry_clk (d : Dev) (t : Nat) (e : Option GEntry) : (d.setEntry t e).clk = d.clk := by
  simp only [Dev.setEntry]
  repeat' split
  all_goals simp

@[simp] theorem Dev.finishGrans_clk (d : Dev) : d.finishGrans.clk = d.clk := by
  simp [Dev.finishGrans]

@[simp] theorem Dev.freeWg_clk (d : Dev) (g : WGran) : (d.freeWg g).clk = d.clk := by
  simp only [Dev.freeWg]
  split <;> simp

@[simp] theorem Dev.issueMove_clk (d : Dev) (g : WGran) (cause : Nat) : (d.issueMove g cause).clk = d.clk := by
  simp [Dev.issueMove]

@[simp] theorem Dev.issueMapSet_clk (d : Dev) (g : WGran) : (d.issueMapSet g).clk = d.clk := by
  simp [Dev.issueMapSet]

@[simp] theorem Dev.mapVerified_clk (d : Dev) : d.mapVerified.clk = d.clk := by
  simp [Dev.mapVerified]

@[simp] theorem Dev.flushVerified_clk (d : Dev) : d.flushVerified.clk = d.clk := by
  refine Dev.forEach_clk _ _ fun d l => ?_
  split
  · simp
  · split
    · rfl
    · simp

@[simp] theorem Dev.afterVerify_clk (d : Dev) : d.afterVerify.clk = d.clk := by
  simp [Dev.afterVerify]

@[simp] theorem Dev.clearLeaves_clk (d : Dev) (nsid : Nat) : (d.clearLeaves nsid).clk = d.clk := by
  simp [Dev.clearLeaves]

@[simp] theorem Dev.clearAll_clk (d : Dev) : d.clearAll.clk = d.clk := by
  simp [Dev.clearAll]

@[simp] theorem Dev.endClear_clk (d : Dev) (nsid : Nat) : (d.endClear nsid).clk = d.clk := by
  fun_cases Dev.endClear <;> simp

@[simp] theorem Dev.clearReadOnly_clk (d : Dev) : d.clearReadOnly.clk = d.clk := by
  simp [Dev.clearReadOnly]

@[simp] theorem Dev.freeNamespace_clk (d : Dev) (nsid : Nat) (n : Ns) : (d.freeNamespace nsid n).clk = d.clk := by
  simp [Dev.freeNamespace]

@[simp] theorem Dev.applyNamespace_clk (d : Dev) (r : JRec) : (d.applyNamespace r).clk = d.clk := by
  simp only [Dev.applyNamespace]
  repeat' split
  all_goals simp

@[simp] theorem Dev.applyClearAll_clk (d : Dev) (r : JRec) : (d.applyClearAll r).clk = d.clk := by
  unfold Dev.applyClearAll
  split <;> simp

@[simp] theorem Dev.applyFlushed_clk (d : Dev) (r : JRec) : (d.applyFlushed r).clk = d.clk := by
  simp [Dev.applyFlushed]

@[simp] theorem Dev.applyRecord_clk (d : Dev) (r : JRec) : (d.applyRecord r).clk = d.clk := by
  unfold Dev.applyRecord
  repeat' split
  all_goals simp

@[simp] theorem Dev.recordDurable_clk (d : Dev) : d.recordDurable.clk = d.clk := by
  unfold Dev.recordDurable
  split <;> simp

/-! ## What the read pipeline and the media share -/

theorem Dev.takeBuf_clk (d : Dev) (h : Handoff) {e : Dev × Nat} (gives : d.takeBuf h = some e) : e.1.clk = d.clk := by
  unfold Dev.takeBuf at gives
  repeat' split at gives
  all_goals cases gives
  simp

@[simp] theorem Dev.dropBuf_clk (d : Dev) (i : Nat) : (d.dropBuf i).clk = d.clk := by
  simp [Dev.dropBuf]

@[simp] theorem Dev.startFill_clk (d : Dev) (id n : Nat) : (d.startFill id n).clk = d.clk := by
  refine iter_clk _ (fun d => ?_) d
  split
  next e i taken => simpa using Dev.takeBuf_clk d _ taken
  next => rfl

@[simp] theorem Dev.finishRead_clk (d : Dev) (ref : CmdRef) (dest : RDest) (gtag : Nat) (data info : Bytes)
    (first count pos : Nat) : (d.finishRead ref dest gtag data info first count pos).clk = d.clk := by
  unfold Dev.finishRead
  repeat' split
  all_goals simp

@[simp] theorem Dev.routeRead_clk (d : Dev) (id : Nat) : (d.routeRead id).clk = d.clk := by
  unfold Dev.routeRead
  repeat' split
  all_goals simp

@[simp] theorem Dev.startRead_clk (d : Dev) (ref : CmdRef) (gtag keyRef : Nat) (dest : RDest)
    (first count pos : Nat) : (d.startRead ref gtag keyRef dest first count pos).clk = d.clk := by
  simp [Dev.startRead]

@[simp] theorem Dev.startMove_clk (d : Dev) (gtag : Nat) (e : GEntry) (cause : Nat) :
    (d.startMove gtag e cause).clk = d.clk := by
  simp [Dev.startMove]

@[simp] theorem Dev.startCopy_clk (d : Dev) (gtag : Nat) (e : GEntry) : (d.startCopy gtag e).clk = d.clk := rfl

@[simp] theorem Dev.startRepair_clk (d : Dev) (gtag : Nat) (e : GEntry) : (d.startRepair gtag e).clk = d.clk := by
  simp [Dev.startRepair]

@[simp] theorem Dev.endRepair_clk (d : Dev) (gtag : Nat) : (d.endRepair gtag).clk = d.clk := rfl

@[simp] theorem Dev.moveBlock_clk (d : Dev) (die b cause : Nat) : (d.moveBlock die b cause).clk = d.clk := by
  simp [Dev.moveBlock]

@[simp] theorem Dev.moveSet_clk (d : Dev) (col b cause : Nat) : (d.moveSet col b cause).clk = d.clk := by
  simp [Dev.moveSet]

@[simp] theorem Dev.queueRefresh_clk (d : Dev) (die b : Nat) : (d.queueRefresh die b).clk = d.clk := by
  simp [Dev.queueRefresh]

@[simp] theorem Dev.ticket_clk (d : Dev) (p : Nat) : (d.ticket p).clk = d.clk := rfl

@[simp] theorem Dev.countPages_clk (d : Dev) (die b pages : Nat) : (d.countPages die b pages).clk = d.clk := by
  simp [Dev.countPages]

@[simp] theorem Dev.hardDecodes_clk (d : Dev) (ch n : Nat) : (d.hardDecodes ch n).clk = d.clk := rfl

@[simp] theorem Dev.readPages_clk (d : Dev) (die b pages cws : Nat) : (d.readPages die b pages cws).clk = d.clk := by
  simp [Dev.readPages]

@[simp] theorem Dev.freeLane_clk (d : Dev) (g : RGran) : (d.freeLane g).clk = d.clk := by
  simp only [Dev.freeLane]
  split <;> simp

@[simp] theorem Dev.freeRg_clk (d : Dev) (g : RGran) : (d.freeRg g).clk = d.clk := by
  simp [Dev.freeRg]

@[simp] theorem Dev.endRg_clk (d : Dev) (g : RGran) : (d.endRg g).clk = d.clk := by
  simp [Dev.endRg]

@[simp] theorem Dev.unrecovered_clk (d : Dev) (id : Nat) : (d.unrecovered id).clk = d.clk := by
  simp only [Dev.unrecovered]
  repeat' split
  all_goals simp

@[simp] theorem Dev.failReads_clk (d : Dev) (hit : RGran → Bool) : (d.failReads hit).clk = d.clk := by
  simp [Dev.failReads]

@[simp] theorem Dev.dropOps_clk (d : Dev) (die b : Nat) : (d.dropOps die b).clk = d.clk := rfl

@[simp] theorem Dev.closeSet_clk (d : Dev) (col b reason : Nat) : (d.closeSet col b reason).clk = d.clk := by
  simp [Dev.closeSet]

@[simp] theorem Dev.retireSet_clk (d : Dev) (die b reason cause : Nat) :
    (d.retireSet die b reason cause).clk = d.clk := by
  simp [Dev.retireSet]

@[simp] theorem Dev.programFailure_clk (d : Dev) (die b reason : Nat) :
    (d.programFailure die b reason).clk = d.clk := by
  simp [Dev.programFailure]

@[simp] theorem Dev.readFailure_clk (d : Dev) (die b : Nat) : (d.readFailure die b).clk = d.clk := by
  simp [Dev.readFailure]

@[simp] theorem Dev.strandColumn_clk (d : Dev) (col : Nat) : (d.strandColumn col).clk = d.clk := by
  simp [Dev.strandColumn]

@[simp] theorem Dev.retireDie_clk (d : Dev) (n : Nat) : (d.retireDie n).clk = d.clk := by
  simp [Dev.retireDie]

@[simp] theorem Dev.timeOut_clk (d : Dev) (die us : Nat) {fails : Dev → Dev} (keeps : ∀ d, (fails d).clk = d.clk) :
    (d.timeOut die us fails).clk = d.clk := by
  simp [Dev.timeOut, keeps]

@[simp] theorem Dev.clampSets_clk (d : Dev) (n : Nat) :
    (d.clampSets n).clk = d.clk := Dev.forEach_clk _ _ fun _ _ => rfl

@[simp] theorem Dev.giveSets_clk (d : Dev) (n cell : Nat) : (d.giveSets n cell).clk = d.clk := by
  simp [Dev.giveSets]

@[simp] theorem Dev.readRungs_clk (d : Dev) (die b mode n : Nat) : (d.readRungs die b mode n).clk = d.clk := by
  simp [Dev.readRungs]

@[simp] theorem Dev.sampleRung_clk (d : Dev) (die mode n : Nat) : (d.sampleRung die mode n).clk = d.clk := rfl

@[simp] theorem Dev.readSoft_clk (d : Dev) (die b mode level : Nat) : (d.readSoft die b mode level).clk = d.clk := by
  simp [Dev.readSoft]

@[simp] theorem Dev.escalate_clk (d : Dev) : d.escalate.clk = d.clk := rfl
@[simp] theorem Dev.softDone_clk (d : Dev) (decoder : Nat) (ok : Bool) : (d.softDone decoder ok).clk = d.clk := rfl

@[simp] theorem Dev.climb_clk (d : Dev) (die b mode : Nat) (x : Found) : (d.climb die b mode x).1.clk = d.clk := by
  unfold Dev.climb
  split <;> simp

/-! ## The read pipeline -/

theorem Dev.serveRead_clk (d : Dev) (g : RGran) {e : Dev} (gives : d.serveRead g = some e) : e.clk = d.clk := by
  unfold Dev.serveRead at gives
  dsimp only at gives
  repeat' split at gives
  all_goals cases gives
  all_goals simp

@[simp] theorem Dev.moveRead_clk (d : Dev) (g : RGran) (w : Nat) : (d.moveRead g w).clk = d.clk := by
  simp [Dev.moveRead]

@[simp] theorem Dev.afterDecode_clk (d : Dev) (id : Nat) : (d.afterDecode id).clk = d.clk := by
  fun_cases Dev.afterDecode <;> simp

@[simp] theorem Dev.setCw_clk (d : Dev) (id i : Nat) (c : CwState) : (d.setCw id i c).clk = d.clk := rfl

@[simp] theorem Dev.stripeLost_clk (d : Dev) (ident : Nat) : (d.stripeLost ident).clk = d.clk := by
  simp [Dev.stripeLost]

@[simp] theorem Dev.readStripe_clk (d : Dev) (col b g mode : Nat) (found : List (Nat × Found)) :
    (d.readStripe col b g mode found).1.clk = d.clk := by
  exact foldl_clk _ (fun acc x => by simp) (d, [])

@[simp] theorem Dev.grantW_clk (d : Dev) (kind lane : Nat) (g : WGran) : (d.grantW kind lane g).clk = d.clk := by
  simp [Dev.grantW]

@[simp] theorem Dev.grantR_clk (d : Dev) (kind lane : Nat) (g : RGran) : (d.grantR kind lane g).clk = d.clk := by
  simp only [Dev.grantR]
  split <;> simp

@[simp] theorem Dev.rails_clk (d : Dev) (lane : Nat) (first second : Bool) :
    (d.rails lane first second).clk = d.clk := by
  simp [Dev.rails]

@[simp] theorem Dev.mergeIn_clk (d : Dev) (w : Nat) (data info : Bytes) : (d.mergeIn w data info).clk = d.clk := by
  unfold Dev.mergeIn
  split <;> simp

@[simp] theorem Dev.countGranule_clk (d : Dev) : d.countGranule.clk = d.clk := rfl

@[simp] theorem Dev.checksPass_clk (d : Dev) (g : RGran) : (d.checksPass g).clk = d.clk := by
  simp only [Dev.checksPass]
  split <;> simp

@[simp] theorem Dev.checksFail_clk (d : Dev) (g : RGran) (size : Bool) : (d.checksFail g size).clk = d.clk := by
  unfold Dev.checksFail
  split <;> simp

@[simp] theorem Dev.repath_clk (d : Dev) (id col b grp : Nat) : (d.repath id col b grp).clk = d.clk := rfl

/-! ## Programs, erases, collection and patrol -/

@[simp] theorem Dev.eraseFailure_clk (d : Dev) (die b reason : Nat) : (d.eraseFailure die b reason).clk = d.clk := by
  simp [Dev.eraseFailure]

@[simp] theorem Dev.endOp_clk (d : Dev) (die : Nat) : (d.endOp die).clk = d.clk := by
  simp [Dev.endOp]

@[simp] theorem Dev.sealStripe_clk (d : Dev) (s : Stripe) : (d.sealStripe s).clk = d.clk := by
  simp [Dev.sealStripe]

@[simp] theorem Dev.wipeBlock_clk (d : Dev) (die b : Nat) : (d.wipeBlock die b).clk = d.clk := rfl

@[simp] theorem Dev.eraseDone_clk (d : Dev) (die b : Nat) : (d.eraseDone die b).clk = d.clk := by
  simp [Dev.eraseDone]

@[simp] theorem Dev.admitNext_clk (d : Dev) (n : Nat) : (d.admitNext n).clk = d.clk := by
  unfold Dev.admitNext
  repeat' split
  all_goals simp

@[simp] theorem Dev.failOp_clk (d : Dev) (die reason : Nat) : (d.failOp die reason).clk = d.clk := by
  unfold Dev.failOp
  split <;> simp

@[simp] theorem Dev.suspend_clk (d : Dev) (die us minRun maxSusp : Nat) :
    (d.suspend die us minRun maxSusp).clk = d.clk := by
  unfold Dev.suspend
  split <;> simp

@[simp] theorem Dev.countDies_clk (d : Dev) (c : Nat) : (d.countDies c).clk = d.clk := rfl

@[simp] theorem Dev.retireChan_clk (d : Dev) (c : Nat) : (d.retireChan c).clk = d.clk := by
  simp [Dev.retireChan]

@[simp] theorem Dev.trainOnce_clk (d : Dev) (c : Nat) : (d.trainOnce c).clk = d.clk := by
  simp [Dev.trainOnce]

theorem Dev.placePages_clk (d : Dev) (col b grp use n : Nat) {e : Dev × Nat}
    (gives : d.placePages col b grp use n = some e) : e.1.clk = d.clk := by
  unfold Dev.placePages at gives
  dsimp only at gives
  repeat' split at gives
  all_goals cases gives
  all_goals simp -implicitDefEqProofs

@[simp] theorem Dev.layPages_clk (d : Dev) (l : Laying) (b : Bytes) : (d.layPages l b).clk = d.clk := by
  simp [Dev.layPages]

@[simp] theorem Dev.moveImage_clk (d : Dev) (slot col b grp : Nat) : (d.moveImage slot col b grp).clk = d.clk := by
  unfold Dev.moveImage
  split
  · rfl
  · split
    · rfl
    · split
      · rfl
      next e pga placed => simpa using Dev.placePages_clk d col b grp 3 _ placed

@[simp] theorem Dev.patrolSample_clk (d : Dev) (x : PatrolRead) : (d.patrolSample x).clk = d.clk := by
  simp [Dev.patrolSample]

@[simp] theorem Dev.patrolBlock_clk (d : Dev) (die b : Nat) (found : List PatrolRead) :
    (d.patrolBlock die b found).clk = d.clk := by
  simp [Dev.patrolBlock]

/-! ## Cartridge groups -/

@[simp] theorem Dev.belowAbsent_clk (d : Dev) (g : Nat) (rs : Reason) : (d.belowAbsent g rs).clk = d.clk := by
  simp [Dev.belowAbsent]

@[simp] theorem Dev.drivePwren_clk (d : Dev) (g : Nat) (on : Bool) : (d.drivePwren g on).clk = d.clk := by
  simp [Dev.drivePwren]

@[simp] theorem Dev.setDrivers_clk (d : Dev) (g : Nat) (on : Bool) : (d.setDrivers g on).clk = d.clk := rfl

@[simp] theorem Dev.driveAttn_clk (d : Dev) (g : Nat) (safe : Bool) : (d.driveAttn g safe).clk = d.clk := by
  simp [Dev.driveAttn]

@[simp] theorem Dev.keepPointer_clk (d : Dev) (g : Nat) : (d.keepPointer g).clk = d.clk := rfl

@[simp] theorem Dev.readsToStep4_clk (d : Dev) (g : Nat) (all : Bool) : (d.readsToStep4 g all).clk = d.clk := by
  simp [Dev.readsToStep4]

@[simp] theorem Dev.groupLost_clk (d : Dev) (g : Nat) : (d.groupLost g).clk = d.clk := by
  simp [Dev.groupLost]

@[simp] theorem Dev.dropGroupOps_clk (d : Dev) (g : Nat) :
    (d.dropGroupOps g).clk = d.clk := Dev.forEach_clk _ _ fun _ _ => rfl

@[simp] theorem Dev.loseGroup_clk (d : Dev) (g : Nat) (rs : Reason) : (d.loseGroup g rs).clk = d.clk := by
  simp only [Dev.loseGroup]
  split <;> simp

@[simp] theorem Dev.meetDie_clk (d : Dev) (n prof cell : Nat) : (d.meetDie n prof cell).clk = d.clk := by
  simp only [Dev.meetDie]
  split <;> simp

@[simp] theorem Dev.bringUp_clk (d : Dev) (g : Nat) : (d.bringUp g).clk = d.clk := by
  simp [Dev.bringUp]

@[simp] theorem Dev.identify_clk (d : Dev) (g : Nat) (fresh : Bool) (n : Nat) :
    (d.identify g fresh n).clk = d.clk := by
  unfold Dev.identify
  repeat' split
  all_goals simp

@[simp] theorem Dev.admitBlocks_clk (d : Dev) (g : Nat) : (d.admitBlocks g).clk = d.clk := by
  simp -implicitDefEqProofs [Dev.admitBlocks]

@[simp] theorem Dev.requeueErases_clk (d : Dev) (g : Nat) : (d.requeueErases g).clk = d.clk := by
  simp [Dev.requeueErases]

@[simp] theorem Dev.fillOpenSets_clk (d : Dev) (g : Nat) : (d.fillOpenSets g).clk = d.clk := by
  simp [Dev.fillOpenSets]

@[simp] theorem Dev.prepare_clk (d : Dev) (g : Nat) (ref : CmdRef) : (d.prepare g ref).clk = d.clk := by
  simp -implicitDefEqProofs [Dev.prepare]

@[simp] theorem Dev.rebuildDone_clk (d : Dev) (g : Nat) : (d.rebuildDone g).clk = d.clk := by
  simp [Dev.rebuildDone]

theorem Dev.rebuildTurn_clk (d : Dev) (n : Nat) {e : Dev} (gives : d.rebuildTurn n = some e) : e.clk = d.clk := by
  unfold Dev.rebuildTurn at gives
  dsimp only at gives
  repeat' split at gives
  all_goals cases gives
  all_goals simp

@[simp] theorem Dev.rebuildUnit_clk (d : Dev) (col b g u : Nat) (found : List (Nat × Found)) :
    (d.rebuildUnit col b g u found).clk = d.clk := by
  simp [Dev.rebuildUnit]

/-! ## The Drover -/

@[simp] theorem Dev.refuse_clk (d : Dev) (h : Nat) (x : Held) : (d.refuse h x).clk = d.clk := rfl
@[simp] theorem Dev.place'_clk (d : Dev) (n : Nat) (head : Bool) : (d.place' n head).clk = d.clk := rfl

@[simp] theorem Dev.enqueue_clk (d : Dev) (n : Nat) (head : Bool) (x : Held) : (d.enqueue n head x).clk = d.clk := by
  simp [Dev.enqueue]

@[simp] theorem Dev.unready_clk (d : Dev) (n : Nat) : (d.unready n).clk = d.clk := rfl

@[simp] theorem Dev.passFlow_clk (d : Dev) (h flow : Nat) : (d.passFlow h flow).clk = d.clk := by
  simp only [Dev.passFlow]
  split <;> simp

@[simp] theorem Dev.releaseFlow_clk (d : Dev) (n : Nat) : (d.releaseFlow n).clk = d.clk := by
  simp [Dev.releaseFlow]

@[simp] theorem Dev.runReleases_clk (d : Dev) (k : Nat) : (d.runReleases k).clk = d.clk := by
  unfold Dev.runReleases
  split <;> simp

@[simp] theorem Dev.dropDead_clk (d : Dev) (k : Nat) : (d.dropDead k).clk = d.clk := rfl

@[simp] theorem Dev.loseTicket_clk (d : Dev) (n : Nat) : (d.loseTicket n).clk = d.clk := by
  simp only [Dev.loseTicket]
  split <;> simp

@[simp] theorem Dev.returnTicket_clk (d : Dev) (n : Nat) : (d.returnTicket n).clk = d.clk := by
  simp only [Dev.returnTicket]
  split <;> simp

theorem Dev.takeDelay_clk (d : Dev) (n us : Nat) (isWait : Bool) {e : Dev}
    (gives : d.takeDelay n us isWait = some e) : e.clk = d.clk := by
  unfold Dev.takeDelay at gives
  dsimp only at gives
  split at gives <;> cases gives
  simp

@[simp] theorem Dev.dropDelay_clk (d : Dev) (n : Nat) : (d.dropDelay n).clk = d.clk := rfl

@[simp] theorem Dev.leaveCtx_clk (d : Dev) (n : Nat) : (d.leaveCtx n).clk = d.clk := by
  unfold Dev.leaveCtx
  split <;> simp

@[simp] theorem Dev.blockThread_clk (d : Dev) (n : Nat) : (d.blockThread n).clk = d.clk := by
  simp [Dev.blockThread]

@[simp] theorem Dev.endThread_clk (d : Dev) (n : Nat) : (d.endThread n).clk = d.clk := by
  simp [Dev.endThread]

@[simp] theorem Dev.create_clk (d : Dev) (h level flow : Nat) : (d.create h level flow).clk = d.clk := by
  unfold Dev.create
  split <;> simp

@[simp] theorem Dev.retryHeld_clk (d : Dev) (h : Nat) : (d.retryHeld h).clk = d.clk := by
  unfold Dev.retryHeld
  repeat' split
  all_goals simp

@[simp] theorem Dev.preemptEvent_clk (d : Dev) (n : Nat) : (d.preemptEvent n).clk = d.clk := by
  unfold Dev.preemptEvent
  split <;> simp

@[simp] theorem Dev.atomicMode_clk (d : Dev) (h : Nat) : (d.atomicMode h).clk = d.clk := rfl

/-! ## Waybills and their instances -/

@[simp] theorem Dev.modInst_clk (d : Dev) (id : Nat) (f : Ctx → Ctx) : (d.modInst id f).clk = d.clk := by
  unfold Dev.modInst
  split <;> simp

@[simp] theorem Dev.feedOne_clk (d : Dev) (id : Nat) : (d.feedOne id).clk = d.clk := by
  unfold Dev.feedOne
  repeat' split
  all_goals simp

@[simp] theorem Dev.feed_clk (d : Dev) (id : Nat) : (d.feed id).clk = d.clk := by
  simp [Dev.feed]

@[simp] theorem Dev.dropJobs_clk (d : Dev) (id : Nat) : (d.dropJobs id).clk = d.clk := by
  simp [Dev.dropJobs]

@[simp] theorem Dev.stopInstance_clk (d : Dev) (id : Nat) : (d.stopInstance id).clk = d.clk := by
  unfold Dev.stopInstance
  repeat' split
  all_goals simp

@[simp] theorem Dev.endCause_clk (d : Dev) (id st : Nat) : (d.endCause id st).clk = d.clk := by
  unfold Dev.endCause
  split <;> simp

@[simp] theorem Dev.taint_clk (d : Dev) (id st from' : Nat) : (d.taint id st from').clk = d.clk := rfl

@[simp] theorem Dev.faultInstance_clk (d : Dev) (id code addr : Nat) :
    (d.faultInstance id code addr).clk = d.clk := by
  simp only [Dev.faultInstance]
  repeat' split
  all_goals simp

@[simp] theorem Dev.collect_clk (d : Dev) (id p : Nat) : (d.collect id p).clk = d.clk := by
  unfold Dev.collect
  split
  · rfl
  · split
    · rfl
    · split
      next e taken => simpa using Dev.takeGrant_clk d p _ taken
      next => rfl

@[simp] theorem Dev.passGranule_clk (d : Dev) (id hi : Nat) (g : RGran) : (d.passGranule id hi g).clk = d.clk := by
  unfold Dev.passGranule
  split <;> simp

theorem Dev.nextBuf_clk (d : Dev) (w : Waybill) (h : Handoff) {e : Dev × Nat} (gives : d.nextBuf w h = some e) :
    e.1.clk = d.clk := by
  unfold Dev.nextBuf at gives
  split at gives
  · cases gives
    simp
  · exact Dev.takeBuf_clk d h gives

@[simp] theorem Dev.dropInput_clk (d : Dev) (id : Nat) : (d.dropInput id).clk = d.clk := by
  unfold Dev.dropInput
  split <;> simp

@[simp] theorem Dev.dropScratch_clk (d : Dev) (w : Waybill) : (d.dropScratch w).clk = d.clk := by
  unfold Dev.dropScratch
  split <;> simp

@[simp] theorem Dev.writeResult_clk (d : Dev) (w : Waybill) : (d.writeResult w).clk = d.clk := by
  simp -implicitDefEqProofs [Dev.writeResult]

@[simp] theorem Dev.dropWaiting_clk (d : Dev) (w : Waybill) : (d.dropWaiting w).clk = d.clk := by
  simp -implicitDefEqProofs [Dev.dropWaiting]

@[simp] theorem Dev.sanitizeWaybill_clk (d : Dev) (w : Waybill) : (d.sanitizeWaybill w).clk = d.clk := by
  unfold Dev.sanitizeWaybill
  split <;> simp

@[simp] theorem Dev.squashWaybill_clk (d : Dev) (id : Nat) : (d.squashWaybill id).clk = d.clk := by
  unfold Dev.squashWaybill
  repeat' split
  all_goals simp

/-! ## The frame of a fetched command -/

@[simp] theorem Dev.ran_clk (d : Dev) (ref : CmdRef) : (d.ran ref).clk = d.clk := rfl

@[simp] theorem Dev.admin_clk (d : Dev) (ref : CmdRef) {f : Dev → Dev} (keeps : ∀ d, (f d).clk = d.clk) :
    (d.admin ref f).clk = d.clk := by
  simp [Dev.admin, keeps]

@[simp] theorem Dev.pfAdmin_clk (d : Dev) (ref : CmdRef) {f : Dev → Dev} (keeps : ∀ d, (f d).clk = d.clk) :
    (d.pfAdmin ref f).clk = d.clk := by
  simp [Dev.pfAdmin, keeps]

@[simp] theorem Dev.io_clk (d : Dev) (ref : CmdRef) {f : Dev → Dev} (keeps : ∀ d, (f d).clk = d.clk) :
    (d.io ref f).clk = d.clk := by
  simp [Dev.io, keeps]

/-! ## Log pages -/

@[simp] theorem Dev.clearEvents_clk (d : Dev) (fix lid : Nat) : (d.clearEvents fix lid).clk = d.clk := rfl

/-! ## Admin commands -/

@[simp] theorem Dev.cancelCmd_clk (d : Dev) (c : Cmd) (st : Status) : (d.cancelCmd c st).clk = d.clk := by
  unfold Dev.cancelCmd
  repeat' split
  all_goals simp

@[simp] theorem Dev.abortNone_clk (d : Dev) (ref : CmdRef) : (d.abortNone ref).clk = d.clk := by
  simp [Dev.abortNone]

@[simp] theorem Dev.setCoalescing_clk (d : Dev) (fix thr time : Nat) :
    (d.setCoalescing fix thr time).clk = d.clk := by
  simp [Dev.setCoalescing]

@[simp] theorem Dev.setCoalesceDisable_clk (d : Dev) (fix v : Nat) (off : Bool) :
    (d.setCoalesceDisable fix v off).clk = d.clk := by
  simp [Dev.setCoalesceDisable]

@[simp] theorem Dev.beginShutdown_clk (d : Dev) (fix shn : Nat) : (d.beginShutdown fix shn).clk = d.clk := by
  simp [Dev.beginShutdown]

@[simp] theorem Dev.firmwareFlowMode_clk (d : Dev) (m : Nat) :
    (d.firmwareFlowMode m).clk = d.clk := Dev.forEach_clk _ _ fun _ _ => rfl

@[simp] theorem Dev.startFlowMode_clk (d : Dev) : d.startFlowMode.clk = d.clk := by
  simp -implicitDefEqProofs [Dev.startFlowMode]

@[simp] theorem Dev.startSelfTest_clk (d : Dev) (ref : CmdRef) (kind : Nat) :
    (d.startSelfTest ref kind).clk = d.clk := by
  simp [Dev.startSelfTest]

/-! ## The frame of a Feresk instruction -/

@[simp] theorem Dev.instr_clk (d : Dev) (ctx op : Nat) (e : Image → Ctx → Fw → Except Nat Ctx) :
    (d.instr ctx op e).clk = d.clk := by
  fun_cases Dev.instr <;> simp

@[simp] theorem Dev.plain_clk (d : Dev) (ctx op : Nat) (e : Ctx → Fw → Ctx) : (d.plain ctx op e).clk = d.clk := by
  simp [Dev.plain]

/-! ## Outstanding service operations -/

@[simp] theorem Dev.putInst_clk (d : Dev) (wb : Nat) (a : BitVec 64) (b : Bytes) :
    (d.putInst wb a b).clk = d.clk := by
  simp [Dev.putInst]

@[simp] theorem Dev.opOver_clk (d : Dev) (wb no status x2 : Nat) : (d.opOver wb no status x2).clk = d.clk := by
  simp [Dev.opOver]

/-! ## The engines CXE, DGE and AEE -/

@[simp] theorem Dev.modEng_clk (d : Dev) (e i : Nat) (f : Eng → Eng) : (d.modEng e i f).clk = d.clk := by
  unfold Dev.modEng
  split <;> simp

@[simp] theorem Dev.engEvent_clk (d : Dev) (e i : Nat) : (d.engEvent e i).clk = d.clk := by
  simp [Dev.engEvent]

theorem Dev.takeCjob_clk (d : Dev) (l : List CJob) {e : Dev × CJob × List CJob} (gives : d.takeCjob l = some e) :
    e.1.clk = d.clk := by
  induction l generalizing e with
  | nil => cases gives
  | cons j l ih =>
    unfold Dev.takeCjob at gives
    split at gives
    · cases gives
      rfl
    · split at gives
      next f taken =>
        cases gives
        exact Dev.takeGrant_clk d 25 _ taken
      next =>
        obtain ⟨r, rest, rfl⟩ := Option.map_eq_some_iff.mp gives
        exact (ih rest :)

theorem Dev.takeDctx_clk (d : Dev) (l : List DCtx) {e : Dev × DCtx × List DCtx} (gives : d.takeDctx l = some e) :
    e.1.clk = d.clk := by
  induction l generalizing e with
  | nil => cases gives
  | cons j l ih =>
    unfold Dev.takeDctx at gives
    split at gives
    · cases gives
      rfl
    · split at gives
      next f taken =>
        cases gives
        exact Dev.takeGrant_clk d 26 _ taken
      next =>
        obtain ⟨r, rest, rfl⟩ := Option.map_eq_some_iff.mp gives
        exact (ih rest :)

@[simp] theorem Dev.placeDge_clk (d : Dev) : d.placeDge.clk = d.clk := by
  unfold Dev.placeDge
  split
  next k e j l _ taken => simpa using Dev.takeDctx_clk d _ taken
  next => rfl

@[simp] theorem Dev.endDge_clk (d : Dev) (k : Nat) : (d.endDge k).clk = d.clk := by
  simp [Dev.endDge]

@[simp] theorem Dev.modDigest_clk (d : Dev) (wb : Nat) (f : Option Digest → Option Digest) :
    (d.modDigest wb f).clk = d.clk := by
  simp [Dev.modDigest]

@[simp] theorem Dev.draw_clk (d : Dev) (n : Nat) : (d.draw n).2.clk = d.clk := rfl

@[simp] theorem Dev.genKey_clk (d : Dev) (ktype len fuel : Nat) : (d.genKey ktype len fuel).2.clk = d.clk := by
  induction fuel generalizing d with
  | zero => simp [Dev.genKey]
  | succ fuel ih =>
    simp only [Dev.genKey]
    split <;> simp [ih]

@[simp] theorem Dev.newIkey_clk (d : Dev) (n : Nat) : (d.newIkey n).clk = d.clk := by
  simp only [Dev.newIkey]
  split <;> simp

@[simp] theorem Dev.wrapOnce_clk (d : Dev) : d.wrapOnce.clk = d.clk := by
  simp [Dev.wrapOnce]

theorem Dev.takeAjob_clk (d : Dev) (l : List AJob) {e : Dev × AJob × List AJob} (gives : d.takeAjob l = some e) :
    e.1.clk = d.clk := by
  induction l generalizing e with
  | nil => cases gives
  | cons j l ih =>
    unfold Dev.takeAjob at gives
    split at gives
    · cases gives
      rfl
    · split at gives
      next f taken =>
        cases gives
        obtain ⟨r, -, granted⟩ := Option.bind_eq_some_iff.mp taken
        exact Dev.takeGrant_clk d 27 _ granted
      next =>
        obtain ⟨r, rest, rfl⟩ := Option.map_eq_some_iff.mp gives
        exact (ih rest :)

@[simp] theorem Dev.placeAee_clk (d : Dev) : d.placeAee.clk = d.clk := by
  unfold Dev.placeAee
  split
  next k e j l _ taken => simpa using Dev.takeAjob_clk d _ taken
  next => rfl

@[simp] theorem Dev.secured_clk (d : Dev) (kind : SpdmKind) (b : Bytes) : (d.secured kind b).clk = d.clk := by
  unfold Dev.secured
  split <;> simp

@[simp] theorem Dev.failUnwraps_clk (d : Dev) (l : List AJob) : (d.failUnwraps l).clk = d.clk := by
  refine Dev.forEach_clk _ _ fun d j => ?_
  split <;> simp

@[simp] theorem Dev.aeeExhausted_clk (d : Dev) : d.aeeExhausted.clk = d.clk := by
  simp -implicitDefEqProofs [Dev.aeeExhausted]

@[simp] theorem Dev.retireAee_clk (d : Dev) (i : Nat) (why : Reason) : (d.retireAee i why).clk = d.clk := by
  simp only [Dev.retireAee]
  repeat' split
  all_goals simp

@[simp] theorem Dev.retireCxe_clk (d : Dev) (i : Nat) : (d.retireCxe i).clk = d.clk := by
  simp [Dev.retireCxe]

@[simp] theorem Dev.noDge_clk (d : Dev) (j : DCtx) : (d.noDge j).clk = d.clk := by
  simp [Dev.noDge]

@[simp] theorem Dev.retireDge_clk (d : Dev) (i : Nat) : (d.retireDge i).clk = d.clk := by
  simp [Dev.retireDge]

/-! ## The key store -/

@[simp] theorem Dev.useSlot_clk (d : Dev) (slot n : Nat) : (d.useSlot slot n).clk = d.clk := by
  simp [Dev.useSlot]

@[simp] theorem Dev.putKey_clk (d : Dev) (n fix ktype limit origin : Nat) (key : Bytes) :
    (d.putKey n fix ktype limit origin key).clk = d.clk := rfl

@[simp] theorem Dev.importEnds_clk (d : Dev) (ref : CmdRef) (unit : Bool) (st : Status) (dw0 : Nat) :
    (d.importEnds ref unit st dw0).clk = d.clk := by
  simp -implicitDefEqProofs [Dev.importEnds]

@[simp] theorem Dev.importRefused_clk (d : Dev) (ref : CmdRef) (unit : Bool) (st : Status) (dw0 : Nat) :
    (d.importRefused ref unit st dw0).clk = d.clk := by
  simp [Dev.importRefused]

@[simp] theorem Dev.storeBlobKey_clk (d : Dev) (c : Cmd) (key : Bytes) : (d.storeBlobKey c key).clk = d.clk := by
  unfold Dev.storeBlobKey
  split <;> simp

@[simp] theorem Dev.startUnwrap_clk (d : Dev) (ref : CmdRef) : (d.startUnwrap ref).clk = d.clk := by
  unfold Dev.startUnwrap
  split <;> simp

theorem Dev.blobChecks_clk (d : Dev) (fix : Nat) (b : Bytes) (len : Nat) (target : Option Slot) {e : Dev}
    (gives : d.blobChecks fix b len target = .ok e) : e.clk = d.clk := by
  unfold Dev.blobChecks at gives
  dsimp only at gives
  repeat' split at gives
  all_goals cases gives
  all_goals simp

@[simp] theorem Dev.unlocked_clk (d : Dev) (ref : CmdRef) {f : Dev → Dev} (keeps : ∀ d, (f d).clk = d.clk) :
    (d.unlocked ref f).clk = d.clk := by
  simp [Dev.unlocked, keeps]

@[simp] theorem Dev.storeGenerated_clk (d : Dev) (ref : CmdRef) : (d.storeGenerated ref).clk = d.clk := by
  unfold Dev.storeGenerated
  split <;> simp

@[simp] theorem Dev.releaseDone_clk (d : Dev) (c : Cmd) : (d.releaseDone c).clk = d.clk := by
  simp -implicitDefEqProofs [Dev.releaseDone]

@[simp] theorem Dev.aeeOutcome_clk (d : Dev) (j : AJob) (status : Nat) (text : Bytes) :
    (d.aeeOutcome j status text).clk = d.clk := by
  simp only [Dev.aeeOutcome]
  repeat' split
  all_goals simp

@[simp] theorem Dev.alarm_clk (d : Dev) (source : Nat) : (d.alarm source).clk = d.clk := by
  unfold Dev.alarm
  split
  · rfl
  · simp only [Dev.srcEvent_clk]
    refine (Dev.forEach_clk _ _ fun _ _ => Dev.emit_clk _ _).trans
      ((Dev.forEach_clk _ _ ?_).trans (Dev.forEach_clk _ _ ?_))
    · intro d j
      split <;> simp
    · simp

/-! ## Reservations -/

@[simp] theorem Dev.notifyResv_clk (d : Dev) (nsid ty : Nat) (fixes : List Nat) :
    (d.notifyResv nsid ty fixes).clk = d.clk := by
  simp [Dev.notifyResv]

@[simp] theorem Dev.resvCmd_clk (d : Dev) (ref : CmdRef) (nsid : Nat) {f : Dev → Resv → Nat → Dev}
    (keeps : ∀ d a b, (f d a b).clk = d.clk) : (d.resvCmd ref nsid f).clk = d.clk := by
  refine Dev.io_clk d ref fun d => ?_
  split
  · simp
  · split <;> simp [keeps]

@[simp] theorem Dev.resvKeys_clk (d : Dev) (ref : CmdRef) (nsid : Nat) (k : KeyData) (len : Nat)
    {f : Dev → Resv → Nat → Nat × Nat → Dev} (keeps : ∀ d a b c, (f d a b c).clk = d.clk) :
    (d.resvKeys ref nsid k len f).clk = d.clk := by
  unfold Dev.resvKeys
  split <;> simp [keeps]

@[simp] theorem Dev.setResv_clk (d : Dev) (nsid : Nat) (r : Resv) : (d.setResv nsid r).clk = d.clk := by
  simp [Dev.setResv]

/-! ## The host's I/O commands -/

@[simp] theorem Dev.addWrite_clk (d : Dev) (ref : CmdRef) (n : Ns) (nsid keyRef : Nat) (p : Nat × Nat × Nat × Nat)
    (data info : Bytes) (zeroes : Bool) : (d.addWrite ref n nsid keyRef p data info zeroes).clk = d.clk := rfl

@[simp] theorem Dev.enterReadOnly_clk (d : Dev) (nsid : Nat) (n : Ns) : (d.enterReadOnly nsid n).clk = d.clk := by
  simp [Dev.enterReadOnly]

@[simp] theorem Dev.refuseWrite_clk (d : Dev) (ref : CmdRef) (nsid : Nat) (n : Ns) (st : Status) :
    (d.refuseWrite ref nsid n st).clk = d.clk := by
  simp [Dev.refuseWrite]

@[simp] theorem Dev.stageAll_clk (d : Dev) (ref : CmdRef) : (d.stageAll ref).clk = d.clk := by
  simp [Dev.stageAll]

@[simp] theorem Dev.readParts_clk (d : Dev) (ref : CmdRef) (n : Ns) (nsid keyRef slba nlb : Nat) (job : Job)
    (dest : RDest) : (d.readParts ref n nsid keyRef slba nlb job dest).clk = d.clk := by
  simp [Dev.readParts]

@[simp] theorem Dev.addClear_clk (d : Dev) (ref : CmdRef) (nsid : Nat) (r : Nat × Nat) :
    (d.addClear ref nsid r).clk = d.clk := rfl

@[simp] theorem Dev.clearRanges_clk (d : Dev) (ref : CmdRef) (nsid : Nat) (n : Ns) (ranges : List (Nat × Nat)) :
    (d.clearRanges ref nsid n ranges).clk = d.clk := by
  simp only [Dev.clearRanges]
  split
  · simp
  · split
    · simp
    · split <;> simp -implicitDefEqProofs

/-! ## Tongs searches -/

@[simp] theorem Dev.startWrite_clk (d : Dev) (ref : CmdRef) (unit : Nat) (l : List TUpdate) :
    (d.startWrite ref unit l).clk = d.clk := rfl

@[simp] theorem Dev.tongsWriteData_clk (d : Dev) (ref : CmdRef) (unit first count mode len : Nat) (ptr : DataPtr)
    (data : Option Bytes) {k : Dev → TUnit → List Bytes → Dev} (keeps : ∀ d a b, (k d a b).clk = d.clk) :
    (d.tongsWriteData ref unit first count mode len ptr data k).clk = d.clk := by
  fun_cases Dev.tongsWriteData <;> simp [keeps]

@[simp] theorem Dev.tongsRepair_clk (d : Dev) (unit entry : Nat) : (d.tongsRepair unit entry).clk = d.clk := rfl

@[simp] theorem Dev.searchOver_clk (d : Dev) (unit : Nat) : (d.searchOver unit).clk = d.clk := by
  unfold Dev.searchOver
  split <;> simp

/-! ## Namespaces, Format and Sanitize -/

@[simp] theorem Dev.nsAdmin_clk (d : Dev) (ref : CmdRef) {f : Dev → Dev} (keeps : ∀ d, (f d).clk = d.clk) :
    (d.nsAdmin ref f).clk = d.clk := by
  simp [Dev.nsAdmin, keeps]

@[simp] theorem Dev.newMediaKey_clk (d : Dev) (nsid : Nat) : (d.newMediaKey nsid).clk = d.clk := by
  simp [Dev.newMediaKey]

@[simp] theorem Dev.beginDelete_clk (d : Dev) (nsid : Nat) : (d.beginDelete nsid).clk = d.clk := by
  unfold Dev.beginDelete
  split <;> simp

@[simp] theorem Dev.eraseKeys_clk (d : Dev) (nsid : Nat) : (d.eraseKeys nsid).clk = d.clk := by
  simp [Dev.eraseKeys]

@[simp] theorem Dev.abortSelfTest_clk (d : Dev) (result : Nat) : (d.abortSelfTest result).clk = d.clk := by
  simp [Dev.abortSelfTest]

@[simp] theorem Dev.zeroiseBound_clk (d : Dev) : d.zeroiseBound.clk = d.clk := Dev.forEach_clk _ _ fun _ _ => rfl

@[simp] theorem Dev.eraseIdle_clk (d : Dev) : d.eraseIdle.clk = d.clk := by
  simp [Dev.eraseIdle]

@[simp] theorem Dev.beginErase_clk (d : Dev) : d.beginErase.clk = d.clk := by
  simp [Dev.beginErase]

@[simp] theorem Dev.trySanitize_clk (d : Dev) (ref : CmdRef) : (d.trySanitize ref).clk = d.clk := by
  simp [Dev.trySanitize]

@[simp] theorem Dev.sanitizeCmd_clk (d : Dev) (ref : CmdRef) (kind : Nat) : (d.sanitizeCmd ref kind).clk = d.clk := by
  unfold Dev.sanitizeCmd
  split <;> simp

/-! ## Nolob images -/

@[simp] theorem Dev.nolobStore_clk (d : Dev) (ref : CmdRef) (t : Bytes) (col b grp : Nat) :
    (d.nolobStore ref t col b grp).clk = d.clk := by
  unfold Dev.nolobStore
  dsimp only
  split
  next s e pga _ placed => simpa using Dev.placePages_clk d col b grp 3 _ placed
  next => rfl

@[simp] theorem Dev.removeImage_clk (d : Dev) (slot : Nat) (im : Image) : (d.removeImage slot im).clk = d.clk := by
  simp [Dev.removeImage]

/-! ## Vendor commands -/

@[simp] theorem Dev.readTable_clk (d : Dev) (ref : CmdRef) (table len : Nat) (t : Bytes) :
    (d.readTable ref table len t).clk = d.clk := by
  simp [Dev.readTable]

@[simp] theorem Dev.serviceDone_clk (d : Dev) (ref : CmdRef) (g : Nat) : (d.serviceDone ref g).clk = d.clk := by
  simp [Dev.serviceDone]

@[simp] theorem Dev.service_clk (d : Dev) (ref : CmdRef) (group gen : Nat) {f : Dev → Dev}
    (keeps : ∀ d, (f d).clk = d.clk) : (d.service ref group gen f).clk = d.clk := by
  simp [Dev.service, keeps]

@[simp] theorem Dev.clearViolated_clk (d : Dev) (p : Nat) : (d.clearViolated p).clk = d.clk := by
  simp [Dev.clearViolated]

/-! ## The code flash -/

@[simp] theorem Dev.spoilSlot_clk (d : Dev) (n : Nat) : (d.spoilSlot n).clk = d.clk := by
  unfold Dev.spoilSlot
  split <;> simp

@[simp] theorem Dev.putWords_clk (d : Dev) (n i : Nat) (l : List Nat) : (d.putWords n i l).clk = d.clk := rfl

@[simp] theorem Dev.beginSectorErase_clk (d : Dev) (n : Nat) : (d.beginSectorErase n).clk = d.clk := by
  simp [Dev.beginSectorErase]

@[simp] theorem Dev.flashAns_clk (d : Dev) (st : Nat) : (d.flashAns st).clk = d.clk := rfl

@[simp] theorem Dev.startFlash_clk (d : Dev) (refusal : Option Nat) (o : FlashOp) :
    (d.startFlash refusal o).clk = d.clk := by
  unfold Dev.startFlash
  split <;> simp

@[simp] theorem Dev.resumeErase_clk (d : Dev) (us : Nat) : (d.resumeErase us).clk = d.clk := rfl

@[simp] theorem Dev.endFlash_clk (d : Dev) (o : FlashOp) (status pulses us : Nat) :
    (d.endFlash o status pulses us).clk = d.clk := by
  simp [Dev.endFlash]

@[simp] theorem Dev.putPartly_clk (d : Dev) (o : FlashOp) (k : Nat) : (d.putPartly o k).clk = d.clk := rfl

/-! ## Resets of parts of the device -/

@[simp] theorem Dev.revertRecord_clk (d : Dev) (r : JRec) : (d.revertRecord r).clk = d.clk := by
  fun_cases Dev.revertRecord <;> simp

@[simp] theorem Dev.dropRecords_clk (d : Dev) (l : List JRec) : (d.dropRecords l).clk = d.clk := by
  simp [Dev.dropRecords]

@[simp] theorem Dev.losePending_clk (d : Dev) : d.losePending.clk = d.clk := by
  simp [Dev.losePending]

@[simp] theorem Dev.completeMram_clk (d : Dev) : d.completeMram.clk = d.clk := by
  simp [Dev.completeMram]

@[simp] theorem Dev.fenceAll_clk (d : Dev) : d.fenceAll.clk = d.clk := by
  simp [Dev.fenceAll]

@[simp] theorem Dev.startHost_clk (d : Dev) : d.startHost.clk = d.clk := by
  simp [Dev.startHost]

@[simp] theorem Dev.recapEngines_clk (d : Dev) : d.recapEngines.clk = d.clk := rfl

@[simp] theorem Dev.restartPools_clk (d : Dev) (wake : Bool) : (d.restartPools wake).clk = d.clk := by
  simp [Dev.restartPools]

@[simp] theorem Dev.cutFlash_clk (d : Dev) : d.cutFlash.clk = d.clk := by
  unfold Dev.cutFlash
  split <;> simp

@[simp] theorem Dev.clearData_clk (d : Dev) (keepDram : Bool) : (d.clearData keepDram).clk = d.clk := rfl
@[simp] theorem Dev.takeMode_clk (d : Dev) : d.takeMode.clk = d.clk := rfl

@[simp] theorem Dev.clearControl_clk (d : Dev) : d.clearControl.clk = d.clk := by
  simp [Dev.clearControl]

@[simp] theorem Dev.clearCoreBanks_clk (d : Dev) : d.clearCoreBanks.clk = d.clk := rfl

@[simp] theorem Dev.retest_clk (d : Dev) (failed : List Nat) : (d.retest failed).clk = d.clk := by
  simp [Dev.retest]

@[simp] theorem Dev.switchFast_clk (d : Dev) (on : Bool) :
    (d.switchFast on).clk = d.clk := Dev.forEach_clk _ _ fun _ _ => rfl

@[simp] theorem Dev.startFast_clk (d : Dev) (sequence : Nat) (failed : List Nat) :
    (d.startFast sequence failed).clk = d.clk := by
  simp [Dev.startFast]

@[simp] theorem Dev.resetFast_clk (d : Dev) : d.resetFast.clk = d.clk := by
  simp [Dev.resetFast]

@[simp] theorem Dev.abruptReset_clk (d : Dev) (causes failed : List Nat) :
    (d.abruptReset causes failed).clk = d.clk := by
  simp [Dev.abruptReset]

@[simp] theorem Dev.keyOff_clk (d : Dev) : d.keyOff.clk = d.clk := rfl

@[simp] theorem Dev.fastLost_clk (d : Dev) : d.fastLost.clk = d.clk := by
  simp [Dev.fastLost]

/-! ## Boot and the watchdog -/

@[simp] theorem Dev.writeRec_clk (d : Dev) (slot : Nat) (trial : Bool) (minSvn : Nat) :
    (d.writeRec slot trial minSvn).clk = d.clk := by
  simp only [Dev.writeRec]
  split <;> simp

@[simp] theorem Dev.putRecWord_clk (d : Dev) (j w : Nat) : (d.putRecWord j w).clk = d.clk := by
  unfold Dev.putRecWord
  split <;> simp

@[simp] theorem Dev.startSlot_clk (d : Dev) (k : Nat) : (d.startSlot k).clk = d.clk := by
  unfold Dev.startSlot
  split <;> simp

@[simp] theorem Dev.countTrial_clk (d : Dev) : d.countTrial.clk = d.clk := by
  simp only [Dev.countTrial]
  repeat' split
  all_goals simp

@[simp] theorem Dev.kick_clk (d : Dev) (key : Nat) : (d.kick key).clk = d.clk := by
  simp [Dev.kick]

@[simp] theorem Dev.wdtReset_clk (d : Dev) (us : Nat) (failed : List Nat) : (d.wdtReset us failed).clk = d.clk := by
  simp [Dev.wdtReset]

/-! ## Firmware download and commit -/

@[simp] theorem Dev.trialRec_clk (d : Dev) (slot : Nat) : (d.trialRec slot).clk = d.clk := by
  simp [Dev.trialRec]

@[simp] theorem Dev.postActivation_clk (d : Dev) : d.postActivation.clk = d.clk := by
  simp [Dev.postActivation]

@[simp] theorem Dev.beginActivation_clk (d : Dev) (ref : CmdRef) : (d.beginActivation ref).clk = d.clk := by
  simp [Dev.beginActivation]

@[simp] theorem Dev.afterImage_clk (d : Dev) (ref : CmdRef) (action slot : Nat) (i : FwImage) :
    (d.afterImage ref action slot i).clk = d.clk := by
  simp [Dev.afterImage]

@[simp] theorem Dev.commitChecked_clk (d : Dev) (ref : CmdRef) (action fs : Nat) (b : FwBuf) (cert : Option Bytes)
    (profiles : List DieProfile) : (d.commitChecked ref action fs b cert profiles).clk = d.clk := by
  simp only [Dev.commitChecked]
  repeat' split
  all_goals simp

@[simp] theorem Dev.fwCommit_clk (d : Dev) (ref : CmdRef) (action fs : Nat) (cert : Option Bytes)
    (profiles : List DieProfile) : (d.fwCommit ref action fs cert profiles).clk = d.clk := by
  simp [Dev.fwCommit]

@[simp] theorem Dev.finishActivation_clk (d : Dev) (ref : CmdRef) (us : Nat) :
    (d.finishActivation ref us).clk = d.clk := by
  simp [Dev.finishActivation]

@[simp] theorem Dev.rewriteSlot_clk (d : Dev) (k : Nat) (b : Bytes) (i : Option FwImage) :
    (d.rewriteSlot k b i).clk = d.clk := by
  simp [Dev.rewriteSlot]

/-! ## Recovery -/

@[simp] theorem Dev.lostSuperblock_clk (d : Dev) : d.lostSuperblock.clk = d.clk := by
  simp [Dev.lostSuperblock]

@[simp] theorem Dev.pendAgain_clk (d : Dev) : d.pendAgain.clk = d.clk := by
  simp -implicitDefEqProofs [Dev.pendAgain]

@[simp] theorem Dev.readRing_clk (d : Dev) (torn : List Nat) : (d.readRing torn).clk = d.clk := by
  simp [Dev.readRing]

@[simp] theorem Dev.closeOpen_clk (d : Dev) : d.closeOpen.clk = d.clk := by
  simp [Dev.closeOpen]

@[simp] theorem Dev.loadCleared_clk (d : Dev) : d.loadCleared.clk = d.clk := by
  simp [Dev.loadCleared]

@[simp] theorem Dev.moveUnsealed_clk (d : Dev) : d.moveUnsealed.clk = d.clk := by
  simp [Dev.moveUnsealed]

@[simp] theorem Dev.resumeErases_clk (d : Dev) : d.resumeErases.clk = d.clk := by
  simp [Dev.resumeErases]

@[simp] theorem Dev.resumeClears_clk (d : Dev) : d.resumeClears.clk = d.clk := by
  have clears : (d.forEach d.map.clears (fun d n => (d.clearLeaves n).endClear n)).clk = d.clk :=
    Dev.forEach_clk _ _ fun _ _ => by simp
  unfold Dev.resumeClears
  dsimp only
  simp only [Dev.clk_ite, Dev.beginErase_clk, Dev.record_clk, ite_self]
  rw [Dev.forEach_clk, clears]
  intro d i
  split <;> simp

@[simp] theorem Dev.recountPlain_clk (d : Dev) (p issued held : Nat) :
    (d.recountPlain p issued held).clk = d.clk := rfl

@[simp] theorem Dev.recountPools_clk (d : Dev) : d.recountPools.clk = d.clk := by
  simp [Dev.recountPools]

@[simp] theorem Dev.startOutrider_clk (d : Dev) : d.startOutrider.clk = d.clk := rfl

@[simp] theorem Dev.unloadOrphans_clk (d : Dev) : d.unloadOrphans.clk = d.clk := by
  unfold Dev.unloadOrphans
  split
  · rfl
  · refine Dev.forEach_clk _ _ fun d p => ?_
    split <;> simp

@[simp] theorem Dev.recoveryRecord_clk (d : Dev) : d.recoveryRecord.clk = d.clk := by
  simp [Dev.recoveryRecord]

@[simp] theorem Dev.admitIo_clk (d : Dev) : d.admitIo.clk = d.clk := by
  simp [Dev.admitIo]

@[simp] theorem Dev.completeRecovery_clk (d : Dev) (us : Nat) : (d.completeRecovery us).clk = d.clk := by
  simp [Dev.completeRecovery]

/-! ## Rails, power modes and wakes -/

@[simp] theorem Dev.keyOn_clk (d : Dev) : d.keyOn.clk = d.clk := rfl

@[simp] theorem Dev.dropGone_clk (d : Dev) : d.dropGone.clk = d.clk := by
  simp -implicitDefEqProofs [Dev.dropGone]

@[simp] theorem Dev.railLost_clk (d : Dev) (rail : Nat) : (d.railLost rail).clk = d.clk := by
  simp [Dev.railLost]

@[simp] theorem Dev.enterSleep_clk (d : Dev) (reset : Bool) : (d.enterSleep reset).clk = d.clk := by
  simp -implicitDefEqProofs [Dev.enterSleep]

@[simp] theorem Dev.padAll_clk (d : Dev) : d.padAll.clk = d.clk := by
  simp [Dev.padAll]

@[simp] theorem Dev.orderlyEnd_clk (d : Dev) : d.orderlyEnd.clk = d.clk := by
  simp [Dev.orderlyEnd]

@[simp] theorem Dev.toDeep_clk (d : Dev) : d.toDeep.clk = d.clk := by
  simp [Dev.toDeep]

@[simp] theorem Dev.beginWake_clk (d : Dev) (cause sequence : Nat) : (d.beginWake cause sequence).clk = d.clk := by
  simp -implicitDefEqProofs [Dev.beginWake]

@[simp] theorem Dev.wakeChannels_clk (d : Dev) : d.wakeChannels.clk = d.clk := by
  simp -implicitDefEqProofs [Dev.wakeChannels]

@[simp] theorem Dev.resume_clk (d : Dev) (us : Nat) : (d.resume us).clk = d.clk := by
  simp [Dev.resume]

@[simp] theorem Dev.fullWake_clk (d : Dev) : d.fullWake.clk = d.clk := by
  simp [Dev.fullWake]

@[simp] theorem Dev.dropLink_clk (d : Dev) (port : Nat) (cause : LinkEnd) : (d.dropLink port cause).clk = d.clk := rfl

@[simp] theorem Dev.portGone_clk (d : Dev) (port : Nat) : (d.portGone port).clk = d.clk := by
  simp [Dev.portGone]

/-! ## The management endpoint -/

@[simp] theorem Dev.onBus_clk (d : Dev) (bus : Nat) {f : Dev → Dev} (keeps : ∀ d, (f d).clk = d.clk) :
    (d.onBus bus f).clk = d.clk := by
  simp [Dev.onBus, keeps]

@[simp] theorem Dev.answer_clk (d : Dev) (o : Output) : (d.answer o).clk = d.clk := rfl
@[simp] theorem Dev.miBusy_clk (d : Dev) : d.miBusy.clk = d.clk := rfl

@[simp] theorem Dev.mi_clk (d : Dev) (bus slot : Nat) {f : Dev → Dev} (keeps : ∀ d, (f d).clk = d.clk) :
    (d.mi bus slot f).clk = d.clk := by
  simp [Dev.mi, keeps]

@[simp] theorem Dev.subsystemReset_clk (d : Dev) (causes failed : List Nat) :
    (d.subsystemReset causes failed).clk = d.clk := by
  simp [Dev.subsystemReset]

@[simp] theorem Dev.submitTunnel_clk (d : Dev) (slot ctrl : Nat) : (d.submitTunnel slot ctrl).clk = d.clk := rfl

@[simp] theorem Dev.spdmIn_clk (d : Dev) (bus : Nat) {f : Dev → Dev} (keeps : ∀ d, (f d).clk = d.clk) :
    (d.spdmIn bus f).clk = d.clk := by
  simp [Dev.spdmIn, keeps]

@[simp] theorem Dev.spdmFree_clk (d : Dev) (n : Nat) : (d.spdmFree n).2.clk = d.clk := rfl

@[simp] theorem Dev.negotiated_clk (d : Dev) {f : Dev → Dev} (keeps : ∀ d, (f d).clk = d.clk) :
    (d.negotiated f).clk = d.clk := by
  simp [Dev.negotiated, keeps]

@[simp] theorem Dev.spdmSign_clk (d : Dev) (kind : SpdmKind) (b : Bytes) : (d.spdmSign kind b).clk = d.clk := by
  simp [Dev.spdmSign]

@[simp] theorem Dev.inSession_clk (d : Dev) (state : Nat) {f : Dev → Dev} (keeps : ∀ d, (f d).clk = d.clk) :
    (d.inSession state f).clk = d.clk := by
  simp [Dev.inSession, keeps]

/-! ## The accounting epoch -/

@[simp] theorem Dev.violation_clk (d : Dev) (p : Nat) : (d.violation p).clk = d.clk := by
  simp [Dev.violation]

@[simp] theorem Dev.checkPool_clk (d : Dev) (p : Nat) : (d.checkPool p).clk = d.clk := by
  simp [Dev.checkPool]

@[simp] theorem Dev.countStalls_clk (d : Dev) : d.countStalls.clk = d.clk := rfl

@[simp] theorem Dev.splitHearth_clk (d : Dev) (h : Nat) : (d.splitHearth h).clk = d.clk := by
  unfold Dev.splitHearth
  split <;> simp

@[simp] theorem Dev.clampApplied_clk (d : Dev) (id : Nat) : (d.clampApplied id).clk = d.clk := by
  unfold Dev.clampApplied
  split <;> simp

@[simp] theorem Dev.activateTable_clk (d : Dev) (id : Nat) : (d.activateTable id).clk = d.clk := by
  unfold Dev.activateTable
  split <;> simp

@[simp] theorem Dev.evalVector_clk (d : Dev) (fix v : Nat) : (d.evalVector fix v).clk = d.clk := by
  simp [Dev.evalVector]

@[simp] theorem Dev.moderate_clk (d : Dev) (fix : Nat) : (d.moderate fix).clk = d.clk := by
  simp [Dev.moderate]

@[simp] theorem Dev.trackSet_clk (d : Dev) (n cell : Nat) (samples : List (List Int)) :
    (d.trackSet n cell samples).clk = d.clk := by
  simp [Dev.trackSet]

@[simp] theorem Dev.trackDie_clk (d : Dev) (n : Nat) : (d.trackDie n).clk = d.clk := by
  simp [Dev.trackDie]

@[simp] theorem Dev.evalPslc_clk (d : Dev) : d.evalPslc.clk = d.clk := by
  simp [Dev.evalPslc]

@[simp] theorem Dev.exitReadOnly_clk (d : Dev) : d.exitReadOnly.clk = d.clk := by
  unfold Dev.exitReadOnly
  split
  · rfl
  · simp only [Dev.clk_ite, Dev.warn_clk, ite_self]
    refine Dev.forEach_clk _ _ fun d i => ?_
    split <;> simp

@[simp] theorem Dev.evalPatrol_clk (d : Dev) : d.evalPatrol.clk = d.clk := by
  simp [Dev.evalPatrol]

@[simp] theorem Dev.evalAvs_clk (d : Dev) (h m : Nat) : (d.evalAvs h m).clk = d.clk := by
  simp [Dev.evalAvs]

@[simp] theorem Dev.evalThermal_clk (d : Dev) (top : Int) : (d.evalThermal top).clk = d.clk := by
  simp [Dev.evalThermal]

@[simp] theorem Dev.countAvailability_clk (d : Dev) (mode : PMode) : (d.countAvailability mode).clk = d.clk := by
  simp [Dev.countAvailability]

@[simp] theorem Dev.evalHealth_clk (d : Dev) (i : Nat) : (d.evalHealth i).clk = d.clk := by
  unfold Dev.evalHealth
  split <;> simp

@[simp] theorem Dev.fastLoops_clk (d : Dev) (margins : List Nat) : (d.fastLoops margins).clk = d.clk := by
  simp [Dev.fastLoops]

/-! ## Commits and held writes -/

@[simp] theorem Dev.commitMch_clk (d : Dev) : d.commitMch.clk = d.clk := rfl

@[simp] theorem Dev.commitDrv_clk (d : Dev) : d.commitDrv.clk = d.clk := Dev.forEach_clk _ _ fun _ _ => rfl

/-! ## Accesses, mailboxes and the bridge -/

@[simp] theorem Dev.dropHeld_clk (d : Dev) (w off : Nat) : (d.dropHeld w off).clk = d.clk := rfl

/-! ## The registers (R8 to R13) -/

/-- What a read of a register clears and what a write of it does leave the clock as it was. -/
structure Reg.KeepsClock (r : Reg) : Prop where
  clear : ∀ f, r.clear = some f → ∀ d i, (f d i).clk = d.clk
  write : ∀ f, r.write = some f → ∀ d i v m, (f d i v m).clk = d.clk

/-- A register that only shows a value. -/
@[simp] theorem Reg.keepsClock_shown (base size stride count : Nat) (value : Dev → Nat → Nat) :
    Reg.KeepsClock { base, value, size, stride, count } where
  clear _ effect := by cases effect
  write _ effect := by cases effect

/-- A register that a read clears. -/
@[simp] theorem Reg.keepsClock_cleared (base size stride count : Nat) (value : Dev → Nat → Nat) {clear : Dev → Nat → Dev}
    (keeps : ∀ d i, (clear d i).clk = d.clk) :
    Reg.KeepsClock { base, value, size, stride, count, clear := some clear } where
  clear _ effect := by cases effect; exact keeps
  write _ effect := by cases effect

/-- A register that a write changes. -/
@[simp] theorem Reg.keepsClock_written (base size stride count : Nat) (value : Dev → Nat → Nat)
    {write : Dev → Nat → Nat → Nat → Dev} (keeps : ∀ d i v m, (write d i v m).clk = d.clk) :
    Reg.KeepsClock { base, value, size, stride, count, write := some write } where
  clear _ effect := by cases effect
  write _ effect := by cases effect; exact keeps

theorem bankRegs_keepsClock (base first n : Nat) : ∀ r ∈ bankRegs base first n, r.KeepsClock := by
  simp -implicitDefEqProofs [bankRegs, or_imp, forall_and]

theorem icuRegs_keepsClock : ∀ r ∈ icuRegs, r.KeepsClock := by
  have sources : ∀ r ∈ sourceRegs, r.KeepsClock := by simp -implicitDefEqProofs [sourceRegs, commitReg]
  exact List.forall_mem_append.mpr ⟨sources, bankRegs_keepsClock _ _ _⟩

theorem embRegs_keepsClock : ∀ r ∈ embRegs, r.KeepsClock :=
  List.forall_mem_append.mpr ⟨by simp -implicitDefEqProofs [ro32, rc32], bankRegs_keepsClock _ _ _⟩

theorem windowRegs_keepsClock (w : Nat) : ∀ r ∈ windowRegs w, r.KeepsClock := by
  unfold windowRegs
  split
  case h_17 => exact icuRegs_keepsClock
  case h_26 => exact embRegs_keepsClock
  all_goals
    simp -implicitDefEqProofs [hlkRegs, fnmRegs, qenRegs, wrpRegs, rdpRegs, icmRegs, mxtRegs, ldcRegs, mchRegs, crtRegs,
      mapRegs, jrnRegs, parRegs, outRegs, hrtRegs, drvRegs, tngRegs, cxeRegs, dgeRegs, aeeRegs, keyRegs, cflRegs, botRegs,
      wdtRegs, blwRegs, mgtRegs, mnfRegs, tolRegs, commitReg, ro32, ro64, rc32, chanRc, chan64, drvReg, tngReg, tngRc,
      engHead, engReg, engRc, unitRecs]

theorem findReg_keepsClock {w off i b : Nat} {r : Reg} (found : findReg (windowRegs w) off = some (r, i, b)) :
    r.KeepsClock := by
  obtain ⟨x, mem, located⟩ := List.exists_of_findSome?_eq_some found
  obtain ⟨p, -, same⟩ := Option.map_eq_some_iff.mp located
  cases same
  exact windowRegs_keepsClock w _ mem

/-! ## Accesses, mailboxes and the bridge -/

@[simp] theorem Dev.writeWord_clk (d : Dev) (w off v : Nat) : (d.writeWord w off v).clk = d.clk := by
  unfold Dev.writeWord
  split
  · rfl
  next r i b found =>
    split
    · rfl
    next f effect =>
      have keeps := (findReg_keepsClock found).write f effect
      dsimp only
      repeat' split
      all_goals simp [keeps]

@[simp] theorem Dev.writeReg_clk (d : Dev) (w off : Nat) (wide : Bool) (v : Nat) :
    (d.writeReg w off wide v).clk = d.clk := by
  unfold Dev.writeReg
  split
  · simp
  · split
    next r i found =>
      split
      · split
        next f effect => simp [(findReg_keepsClock found).write f effect]
        next => rfl
      · simp
    next => simp

@[simp] theorem Dev.readWord_clk (d : Dev) (w off : Nat) : (d.readWord w off).1.clk = d.clk := by
  unfold Dev.readWord
  split
  · rfl
  next r i b found =>
    dsimp only
    split
    · split
      next f effect => exact (findReg_keepsClock found).clear f effect d i
      next => rfl
    · split
      · rfl
      · split <;> rfl

@[simp] theorem Dev.readReg_clk (d : Dev) (w off : Nat) (wide : Bool) : (d.readReg w off wide).1.clk = d.clk := by
  unfold Dev.readReg
  repeat' split
  all_goals simp

@[simp] theorem Dev.bar2Read_clk (d : Dev) (off : Nat) (wide : Bool) : (d.bar2Read off wide).1.clk = d.clk := by
  unfold Dev.bar2Read
  split <;> simp

@[simp] theorem Dev.refuseAccess_clk (d : Dev) (core addr : Nat) : (d.refuseAccess core addr).clk = d.clk := by
  simp [Dev.refuseAccess]

@[simp] theorem Dev.pushBridge_clk (d : Dev) (dir : Nat) (a : Access) : (d.pushBridge dir a).clk = d.clk := by
  simp [Dev.pushBridge]

@[simp] theorem Dev.popBridge_clk (d : Dev) (dir : Nat) : (d.popBridge dir).clk = d.clk := rfl

@[simp] theorem Dev.accessRead_clk (d : Dev) (a : Access) : (d.accessRead a).clk = d.clk := by
  unfold Dev.accessRead
  split
  · simp
  · split
    · rw [Dev.emit_clk]
    · dsimp only
      rw [Dev.emit_clk]
      split <;> simp

@[simp] theorem Dev.readDirect_clk (d : Dev) (space : RegSpace) (addr : Nat) (wide : Bool) (w off : Nat) :
    (d.readDirect space addr wide w off).clk = d.clk := by
  unfold Dev.readDirect
  repeat' split
  all_goals simp

@[simp] theorem Dev.ringArrival_clk (d : Dev) (k : Nat) : (d.ringArrival k).clk = d.clk := by
  simp [Dev.ringArrival]

@[simp] theorem Dev.sendMail_clk (d : Dev) (k : Nat) (m : Msg) : (d.sendMail k m).clk = d.clk := by
  simp [Dev.sendMail]

/-! ## Feresk loops and calls -/

@[simp] theorem Dev.tokenFault_clk (d : Dev) (id : Nat) : (d.tokenFault id).clk = d.clk := by
  simp [Dev.tokenFault]

/-! ## Feresk scalars -/

@[simp] theorem Dev.alu_clk (d : Dev) (ctx op : Nat) (g : BitVec 64 → BitVec 64 → BitVec 64) :
    (d.alu ctx op g).clk = d.clk := by
  simp [Dev.alu]

@[simp] theorem Dev.branch_clk (d : Dev) (ctx op : Nat) (taken : Ctx → Fw → Bool) :
    (d.branch ctx op taken).clk = d.clk := by
  simp [Dev.branch]

/-! ## Service calls -/

@[simp] theorem Dev.svc_clk (d : Dev) (ctx n : Nat) {k : Dev → Call → Dev} (keeps : ∀ d a, (k d a).clk = d.clk) :
    (d.svc ctx n k).clk = d.clk := by
  fun_cases Dev.svc <;> simp [keeps]

@[simp] theorem Dev.svcRet_clk (d : Dev) (q : Call) (status : Nat) (f : Ctx → Ctx) :
    (d.svcRet q status f).clk = d.clk := by
  simp [Dev.svcRet]

@[simp] theorem Dev.svcWait_clk (d : Dev) (q : Call) (b : Blocked) : (d.svcWait q b).clk = d.clk := by
  simp [Dev.svcWait]

@[simp] theorem Dev.svcFault_clk (d : Dev) (q : Call) : (d.svcFault q).clk = d.clk := by
  simp [Dev.svcFault]

@[simp] theorem Dev.startOp_clk (d : Dev) (q : Call) (t : Ticket) : (d.startOp q t).clk = d.clk := by
  simp [Dev.startOp]

@[simp] theorem Dev.mapChunk_clk (d : Dev) (id i : Nat) (f : Ctx → Nat → Ctx) : (d.mapChunk id i f).clk = d.clk := by
  simp [Dev.mapChunk]

@[simp] theorem Dev.noInput_clk (d : Dev) (id : Nat) (f : Ctx → Nat → Ctx) : (d.noInput id f).clk = d.clk := by
  simp [Dev.noInput]

theorem Dev.freshOut_clk (d : Dev) (id : Nat) {e : Dev} (gives : d.freshOut id = some e) : e.clk = d.clk := by
  unfold Dev.freshOut at gives
  split at gives
  · cases gives
  · split at gives
    · cases gives
    · obtain ⟨r, taken, rfl⟩ := Option.map_eq_some_iff.mp gives
      simpa using Dev.takeBuf_clk d _ taken

@[simp] theorem Dev.emitOut_clk (d : Dev) (id len off : Nat) : (d.emitOut id len off).clk = d.clk := by
  unfold Dev.emitOut
  repeat' split
  all_goals simp

@[simp] theorem Dev.startCxe_clk (d : Dev) (q : Call) (op : Nat) : (d.startCxe q op).clk = d.clk := by
  simp only [Dev.startCxe]
  repeat' split
  all_goals simp

@[simp] theorem Dev.wakeUp_clk (d : Dev) (n : Nat) : (d.wakeUp n).clk = d.clk := by
  simp [Dev.wakeUp]

@[simp] theorem Dev.retryTimed_clk (d : Dev) (n us : Nat) (isWait : Bool) :
    (d.retryTimed n us isWait).clk = d.clk := by
  unfold Dev.retryTimed
  split
  · rfl
  · exact clk_getD fun _ => Dev.takeDelay_clk d n us isWait

@[simp] theorem Dev.wakeCall_clk (d : Dev) (n id : Nat) (c : Ctx) (w : Waybill) :
    (d.wakeCall n id c w).clk = d.clk := by
  unfold Dev.wakeCall
  split
  case h_1 => rfl
  case h_2 =>
    split
    · simp
    · split <;> simp
  case h_3 =>
    split
    · rfl
    next e fresh =>
      have eClk : e.clk = d.clk := Dev.freshOut_clk d id fresh
      dsimp only
      split
      · split
        · simp [eClk]
        · split
          next f again =>
            have fClk := Dev.freshOut_clk _ id again
            simp [fClk, eClk]
          next => simp [eClk]
      · simp [eClk]
  case h_4 =>
    split
    next e fresh => simpa using Dev.freshOut_clk d id fresh
    next => rfl
  case h_5 =>
    split
    · split <;> simp
    · rfl
  case h_6 => simp
  case h_7 =>
    split
    · simp
    · split <;> simp

@[simp] theorem Dev.expire_clk (d : Dev) (e : DelayE) : (d.expire e).clk = d.clk := by
  fun_cases Dev.expire <;> simp

@[simp] theorem Dev.moveExpired_clk (d : Dev) (h : Nat) (e : DelayE) (rest : List DelayE) :
    (d.moveExpired h e rest).clk = d.clk := by
  simp [Dev.moveExpired]

@[simp] theorem Dev.moveDue_clk (d : Dev) (h at' fuel : Nat) : (d.moveDue h at' fuel).clk = d.clk := by
  induction fuel generalizing d with
  | zero => rfl
  | succ fuel ih =>
    unfold Dev.moveDue
    split
    · split
      · simp [ih]
      · rfl
    · rfl

/-! ## The squash of old work -/

@[simp] theorem Dev.squashWg_clk (d : Dev) (id : Nat) : (d.squashWg id).clk = d.clk := by
  unfold Dev.squashWg
  split <;> simp

@[simp] theorem Dev.squashRg_clk (d : Dev) (id : Nat) : (d.squashRg id).clk = d.clk := by
  unfold Dev.squashRg
  split <;> simp

@[simp] theorem Dev.squashUnwrap_clk (d : Dev) (ref : CmdRef) (target : Nat) :
    (d.squashUnwrap ref target).clk = d.clk := by
  simp [Dev.squashUnwrap]

@[simp] theorem Dev.releaseJob_clk (d : Dev) (c : Cmd) : (d.releaseJob c).clk = d.clk := by
  unfold Dev.releaseJob
  split <;> simp

@[simp] theorem Dev.squashCmd_clk (d : Dev) (ref : CmdRef) : (d.squashCmd ref).clk = d.clk := by
  unfold Dev.squashCmd
  split <;> simp

@[simp] theorem Dev.squashQueued_clk (d : Dev) (fix k : Nat) : (d.squashQueued fix k).clk = d.clk := by
  simp [Dev.squashQueued]

@[simp] theorem Dev.squashJob_clk (d : Dev) (fix k : Nat) : (d.squashJob fix k).clk = d.clk := by
  fun_cases Dev.squashJob <;> simp

@[simp] theorem Dev.squashThread_clk (d : Dev) (fix n : Nat) : (d.squashThread fix n).clk = d.clk := by
  fun_cases Dev.squashThread <;> simp

@[simp] theorem Dev.squashSearch_clk (d : Dev) (fix unit caller : Nat) :
    (d.squashSearch fix unit caller).clk = d.clk := rfl

@[simp] theorem Dev.squashItem_clk (d : Dev) (fix : Nat) (w : Waiter) : (d.squashItem fix w).clk = d.clk := by
  unfold Dev.squashItem
  split <;> simp

/-! ## Feresk vectors -/

@[simp] theorem Dev.valu_clk (d : Dev) (ctx op : Nat) (g : Fw → Nat → Nat → Nat) : (d.valu ctx op g).clk = d.clk := by
  simp [Dev.valu]

@[simp] theorem Dev.vcmp_clk (d : Dev) (ctx op : Nat) (g : Fw → Nat → Nat → Bool) :
    (d.vcmp ctx op g).clk = d.clk := by
  simp [Dev.vcmp]

@[simp] theorem Dev.palu_clk (d : Dev) (ctx op : Nat) (g : Bool → Bool → Bool) : (d.palu ctx op g).clk = d.clk := by
  simp [Dev.palu]

end Sys2Proof.Machine

/-! The rows of exec that leave the clock as it was: those whose meaning takes a case split. `exec_clk` closes the others
by the frame alone. -/

namespace Sys2Proof.Machine

theorem act_clk {s t : State} {f : Dev → Dev} (keeps : ∀ d, (f d).clk = d.clk) (next : act s f = .next t) :
    t.dev.clk = s.dev.clk := by
  cases next
  exact keeps _

/-! ## The interrupt controller -/

theorem execWakeWatcherFire_clk {s t : State} (next : execWakeWatcherFire s = .next t) : t.dev.clk = s.dev.clk := by
  refine act_clk (fun d => ?_) next
  dsimp only
  split <;> simp

/-! ## The host link and the functions -/

theorem execLinkTraining_clk {port partnerMax : Nat} {passing lanes : List Nat} {flit : Bool} {s t : State}
    (next : execLinkTraining port partnerMax passing lanes flit s = .next t) : t.dev.clk = s.dev.clk := by
  refine act_clk (fun d => ?_) next
  dsimp only
  split <;> simp

theorem execLinkPowerStateChange_clk {port state : Nat} {s t : State}
    (next : execLinkPowerStateChange port state s = .next t) : t.dev.clk = s.dev.clk := by
  refine act_clk (fun d => ?_) next
  dsimp only
  split <;> simp

/-! ## Doorbells, fetch and shutdown -/

theorem execSubmissionFetch_clk {cid : Nat} {sgl fused : Bool} {s t : State}
    (next : execSubmissionFetch cid sgl fused s = .next t) : t.dev.clk = s.dev.clk := by
  refine act_clk (fun d => ?_) next
  dsimp only
  repeat' split
  all_goals simp

/-! ## The write pipeline -/

theorem execGranuleLockRelease_clk {gtag : Nat} {s t : State} (next : execGranuleLockRelease gtag s = .next t) :
    t.dev.clk = s.dev.clk := by
  refine act_clk (fun d => ?_) next
  split <;> simp

theorem execGranuleCompress_clk {lane : Nat} {s t : State} (next : execGranuleCompress lane s = .next t) :
    t.dev.clk = s.dev.clk := by
  refine act_clk (fun d => ?_) next
  dsimp only
  split <;> simp

theorem execQlcCopyComplete_clk {id : Nat} {s t : State} (next : execQlcCopyComplete id s = .next t) :
    t.dev.clk = s.dev.clk := by
  refine act_clk (fun d => ?_) next
  dsimp only
  split <;> simp

/-! ## The read pipeline -/

theorem execNandReadComplete_clk {id : Nat} {s t : State} (next : execNandReadComplete id s = .next t) :
    t.dev.clk = s.dev.clk := by
  refine act_clk (fun d => ?_) next
  split
  · rfl
  next g _ =>
    dsimp only
    split
    · split
      · rfl
      next e served => simp [Dev.serveRead_clk d g served]
    · rfl

theorem execCodewordDecode_clk {id cw : Nat} {ok : Bool} {s t : State}
    (next : execCodewordDecode id cw ok s = .next t) : t.dev.clk = s.dev.clk := by
  refine act_clk (fun d => ?_) next
  dsimp only
  split <;> simp

theorem execReadRetryRung_clk {id cw : Nat} {ok : Bool} {s t : State} (next : execReadRetryRung id cw ok s = .next t) :
    t.dev.clk = s.dev.clk := by
  refine act_clk (fun d => ?_) next
  dsimp only
  split <;> simp

theorem execSoftDecode_clk {id cw decoder : Nat} {ok : Bool} {s t : State}
    (next : execSoftDecode id cw decoder ok s = .next t) : t.dev.clk = s.dev.clk := by
  refine act_clk (fun d => ?_) next
  dsimp only
  split <;> simp

theorem execStripeReconstruct_clk {id cw : Nat} {failed : List (Nat × Found)} {s t : State}
    (next : execStripeReconstruct id cw failed s = .next t) : t.dev.clk = s.dev.clk := by
  refine act_clk (fun d => ?_) next
  dsimp only
  split <;> simp

theorem execLaneGrant_clk {kind lane : Nat} {s t : State} (next : execLaneGrant kind lane s = .next t) :
    t.dev.clk = s.dev.clk := by
  refine act_clk (fun d => ?_) next
  dsimp only
  repeat' split
  all_goals simp

theorem execMxtKeyCacheMiss_clk {lane : Nat} {s t : State} (next : execMxtKeyCacheMiss lane s = .next t) :
    t.dev.clk = s.dev.clk := by
  refine act_clk (fun d => ?_) next
  split <;> simp

theorem execXtsLaneCompute_clk {lane : Nat} {first second : Bool} {col set grp : Nat} {s t : State}
    (next : execXtsLaneCompute lane first second col set grp s = .next t) : t.dev.clk = s.dev.clk := by
  refine act_clk (fun d => ?_) next
  dsimp only
  repeat' split
  all_goals simp

theorem execGranuleDecompress_clk {lane : Nat} {clear region : List (Nat × Byte)} {s t : State}
    (next : execGranuleDecompress lane clear region s = .next t) : t.dev.clk = s.dev.clk := by
  refine act_clk (fun d => ?_) next
  dsimp only
  repeat' split
  all_goals simp

theorem execHostDmaComplete_clk {id : Nat} {s t : State} (next : execHostDmaComplete id s = .next t) :
    t.dev.clk = s.dev.clk := by
  refine act_clk (fun d => ?_) next
  dsimp only
  split <;> simp

theorem execCreditGrant_clk {pool id col set grp : Nat} {s t : State}
    (next : execCreditGrant pool id col set grp s = .next t) : t.dev.clk = s.dev.clk := by
  refine act_clk (fun d => ?_) next
  split
  · split
    next e taken => simp [Dev.takeGrant_clk d 2 _ taken]
    next => rfl
  · split
    · split
      next e taken => simp [Dev.takeGrant_clk d 3 _ taken]
      next => rfl
    · repeat' split
      all_goals simp

theorem execMapItemLoad_clk {kind index : Nat} {s t : State} (next : execMapItemLoad kind index s = .next t) :
    t.dev.clk = s.dev.clk := by
  refine act_clk (fun d => ?_) next
  dsimp only
  generalize (if kind = 0 then d.item 1 (dirOfLeaf index) else {}) = dir
  split
  · rfl
  · split
    · rfl
    next e room => simp [Dev.roomFor_clk d _ _ room]

/-! ## Programs, erases, collection and patrol -/

theorem execNandProgramComplete_clk {die : Nat} {pass verifyOk : Bool} {s t : State}
    (next : execNandProgramComplete die pass verifyOk s = .next t) : t.dev.clk = s.dev.clk := by
  refine act_clk (fun d => ?_) next
  dsimp only
  repeat' split
  all_goals simp

theorem execNandEraseComplete_clk {die : Nat} {pass : Bool} {s t : State}
    (next : execNandEraseComplete die pass s = .next t) : t.dev.clk = s.dev.clk := by
  refine act_clk (fun d => ?_) next
  dsimp only
  split <;> simp

theorem execNandOperationTimeout_clk {die us : Nat} {read : Option Nat} {s t : State}
    (next : execNandOperationTimeout die us read s = .next t) : t.dev.clk = s.dev.clk := by
  refine act_clk (fun d => ?_) next
  dsimp only
  split <;> simp

theorem execEraseSuspend_clk {die us : Nat} {s t : State} (next : execEraseSuspend die us s = .next t) :
    t.dev.clk = s.dev.clk := by
  refine act_clk (fun d => ?_) next
  split <;> simp

theorem execProgramSuspend_clk {die us : Nat} {s t : State} (next : execProgramSuspend die us s = .next t) :
    t.dev.clk = s.dev.clk := by
  refine act_clk (fun d => ?_) next
  split <;> simp

theorem execSuspendReady_clk {die : Nat} {completed : Bool} {s t : State}
    (next : execSuspendReady die completed s = .next t) : t.dev.clk = s.dev.clk := by
  refine act_clk (fun d => ?_) next
  split <;> simp

theorem execSuspendResume_clk {die : Nat} {s t : State} (next : execSuspendResume die s = .next t) :
    t.dev.clk = s.dev.clk := by
  refine act_clk (fun d => ?_) next
  dsimp only
  split <;> simp

theorem execChannelTraining_clk {chan : Nat} {passing : List Nat} {tj : Int} {s t : State}
    (next : execChannelTraining chan passing tj s = .next t) : t.dev.clk = s.dev.clk := by
  refine act_clk (fun d => ?_) next
  dsimp only
  repeat' split
  all_goals simp

theorem execGcVictimSelect_clk {cls : Nat} {s t : State} (next : execGcVictimSelect cls s = .next t) :
    t.dev.clk = s.dev.clk := by
  refine act_clk (fun d => ?_) next
  repeat' split
  all_goals simp

theorem execPslcFoldStart_clk {s t : State} (next : execPslcFoldStart s = .next t) : t.dev.clk = s.dev.clk := by
  refine act_clk (fun d => ?_) next
  dsimp only
  repeat' split
  all_goals simp

theorem execMapItemFlush_clk {kind index col set grp : Nat} {s t : State}
    (next : execMapItemFlush kind index col set grp s = .next t) : t.dev.clk = s.dev.clk := by
  refine act_clk (fun d => ?_) next
  split
  · simp
  · split
    · rfl
    · split
      · rfl
      next e pga placed => simpa using Dev.placePages_clk d col set grp 2 1 placed

/-! ## Cartridge groups -/

theorem execCartridgeAttnAssert_clk {group : Nat} {s t : State} (next : execCartridgeAttnAssert group s = .next t) :
    t.dev.clk = s.dev.clk := by
  refine act_clk (fun d => ?_) next
  dsimp only
  repeat' split
  all_goals simp

theorem execQuiesceComplete_clk {unit : Nat} {s t : State} (next : execQuiesceComplete unit s = .next t) :
    t.dev.clk = s.dev.clk := by
  refine act_clk (fun d => ?_) next
  dsimp only
  repeat' split
  all_goals simp

theorem execRebuildSet_clk {group : Nat} {pass : Bool} {failed : List (Nat × List (Nat × Found))} {s t : State}
    (next : execRebuildSet group pass failed s = .next t) : t.dev.clk = s.dev.clk := by
  refine act_clk (fun d => ?_) next
  split
  · rfl
  · split
    · simp
    · dsimp only
      split
      · rfl
      · split
        · rfl
        next e turn => simp [Dev.rebuildTurn_clk d _ turn]

/-! ## The Drover -/

theorem execThreadDispatch_clk {ctx : Nat} {s t : State} (next : execThreadDispatch ctx s = .next t) :
    t.dev.clk = s.dev.clk := by
  refine act_clk (fun d => ?_) next
  dsimp only
  repeat' split
  all_goals simp

theorem execThreadPreempt_clk {hearth : Nat} {s t : State} (next : execThreadPreempt hearth s = .next t) :
    t.dev.clk = s.dev.clk := by
  refine act_clk (fun d => ?_) next
  dsimp only
  split <;> simp

theorem execFlowModeChange_clk {hearth : Nat} {s t : State} (next : execFlowModeChange hearth s = .next t) :
    t.dev.clk = s.dev.clk := by
  refine act_clk (fun d => ?_) next
  split <;> simp

/-! ## Waybills and their instances -/

theorem execWaybillAdmitted_clk {wb : Nat} {s t : State} (next : execWaybillAdmitted wb s = .next t) :
    t.dev.clk = s.dev.clk := by
  refine act_clk (fun d => ?_) next
  split
  · rfl
  next w _ =>
    dsimp only
    generalize granted : (if 20 ∈ w.got then some d else d.takeGrant 20 (.waybill wb)) = e
    split
    next e im _ =>
      have kept : e.clk = d.clk := by
        split at granted
        · cases granted
          rfl
        · exact Dev.takeGrant_clk d 20 _ granted
      simp [kept]
    next => rfl

theorem execInstanceStart_clk {wb : Nat} {s t : State} (next : execInstanceStart wb s = .next t) :
    t.dev.clk = s.dev.clk := by
  refine act_clk (fun d => ?_) next
  dsimp only
  repeat' split
  all_goals simp
  next e i taken => simpa using Dev.takeBuf_clk _ _ taken

theorem execImageFetch_clk {slot : Nat} {s t : State} (next : execImageFetch slot s = .next t) :
    t.dev.clk = s.dev.clk := by
  refine act_clk (fun d => ?_) next
  dsimp only
  repeat' split
  all_goals simp

theorem execHandoffDelivery_clk {wb : Nat} {s t : State} (next : execHandoffDelivery wb s = .next t) :
    t.dev.clk = s.dev.clk := by
  refine act_clk (fun d => ?_) next
  split
  · rfl
  next w _ =>
    dsimp only
    generalize (if w.cur.isSome then 1 else 0) = current
    split
    · rfl
    · split
      · simp
      · split
        · rfl
        · split
          · rfl
          next e i given => simpa using Dev.nextBuf_clk d w _ given

theorem execCheckVerdictFinal_clk {wb id : Nat} {s t : State} (next : execCheckVerdictFinal wb id s = .next t) :
    t.dev.clk = s.dev.clk := by
  refine act_clk (fun d => ?_) next
  dsimp only
  repeat' split
  all_goals simp

theorem execSegmentBoundary_clk {wb : Nat} {s t : State} (next : execSegmentBoundary wb s = .next t) :
    t.dev.clk = s.dev.clk := by
  refine act_clk (fun d => ?_) next
  split <;> simp

theorem execTimeLimitExpiry_clk {wb : Nat} {s t : State} (next : execTimeLimitExpiry wb s = .next t) :
    t.dev.clk = s.dev.clk := by
  refine act_clk (fun d => ?_) next
  split <;> simp

theorem execInstanceEnd_clk {wb : Nat} {s t : State} (next : execInstanceEnd wb s = .next t) :
    t.dev.clk = s.dev.clk := by
  refine act_clk (fun d => ?_) next
  dsimp only
  repeat' split
  all_goals simp

theorem execCoreUncorrectableError_clk {ctx : Nat} {s t : State} (next : execCoreUncorrectableError ctx s = .next t) :
    t.dev.clk = s.dev.clk := by
  refine act_clk (fun d => ?_) next
  dsimp only
  repeat' split
  all_goals simp

/-! ## Admin commands -/

theorem execCreateIoSq_clk {ref : CmdRef} {contiguous : Bool} {qid entries base cqid : Nat} {s t : State}
    (next : execCreateIoSq ref contiguous qid entries base cqid s = .next t) : t.dev.clk = s.dev.clk := by
  refine act_clk (fun d => Dev.admin_clk _ _ fun d => ?_) next
  dsimp only
  split <;> simp

theorem execCreateIoCq_clk {ref : CmdRef} {contiguous ien : Bool} {qid entries base vector : Nat} {s t : State}
    (next : execCreateIoCq ref contiguous ien qid entries base vector s = .next t) : t.dev.clk = s.dev.clk := by
  refine act_clk (fun d => Dev.admin_clk _ _ fun d => ?_) next
  dsimp only
  split <;> simp

theorem execDeleteIoSq_clk {ref : CmdRef} {qid : Nat} {s t : State} (next : execDeleteIoSq ref qid s = .next t) :
    t.dev.clk = s.dev.clk := by
  refine act_clk (fun d => Dev.admin_clk _ _ fun d => ?_) next
  dsimp only
  repeat' split
  all_goals simp

theorem execDeleteIoCq_clk {ref : CmdRef} {qid : Nat} {s t : State} (next : execDeleteIoCq ref qid s = .next t) :
    t.dev.clk = s.dev.clk := by
  refine act_clk (fun d => Dev.admin_clk _ _ fun d => ?_) next
  dsimp only
  repeat' split
  all_goals simp

theorem execGetLogPage_clk {ref : CmdRef} {lid offset len : Nat} {rae capture : Bool} {s t : State}
    (next : execGetLogPage ref lid offset len rae capture s = .next t) : t.dev.clk = s.dev.clk := by
  refine act_clk (fun d => Dev.admin_clk _ _ fun d => ?_) next
  dsimp only
  split <;> simp

theorem execIdentify_clk {ref : CmdRef} {cns nsid cntid : Nat} {s t : State}
    (next : execIdentify ref cns nsid cntid s = .next t) : t.dev.clk = s.dev.clk := by
  refine act_clk (fun d => Dev.admin_clk _ _ fun d => ?_) next
  split <;> simp

theorem execAbort_clk {ref : CmdRef} {sqid cid : Nat} {s t : State} (next : execAbort ref sqid cid s = .next t) :
    t.dev.clk = s.dev.clk := by
  refine act_clk (fun d => Dev.admin_clk _ _ fun d => ?_) next
  repeat' split
  all_goals simp

theorem execGetFeatures_clk {ref : CmdRef} {fid sel nsid value : Nat} {s t : State}
    (next : execGetFeatures ref fid sel nsid value s = .next t) : t.dev.clk = s.dev.clk := by
  refine act_clk (fun d => Dev.admin_clk _ _ fun d => ?_) next
  dsimp only
  repeat' split
  all_goals simp

theorem execAsynchronousEventRequest_clk {ref : CmdRef} {s t : State}
    (next : execAsynchronousEventRequest ref s = .next t) : t.dev.clk = s.dev.clk := by
  refine act_clk (fun d => Dev.admin_clk _ _ fun d => ?_) next
  dsimp only
  split <;> simp

theorem execDeviceSelfTestComplete_clk {failedCore : Option Nat} {s t : State}
    (next : execDeviceSelfTestComplete failedCore s = .next t) : t.dev.clk = s.dev.clk := by
  refine act_clk (fun d => ?_) next
  dsimp only
  repeat' split
  all_goals simp

/-! ## Outstanding service operations -/

theorem execAsyncOperationEnd_clk {wb ticket : Nat} {s t : State}
    (next : execAsyncOperationEnd wb ticket s = .next t) : t.dev.clk = s.dev.clk := by
  refine act_clk (fun d => ?_) next
  dsimp only
  split <;> simp

/-! ## The engines CXE, DGE and AEE -/

theorem execCxeContextPlace_clk {s t : State} (next : execCxeContextPlace s = .next t) : t.dev.clk = s.dev.clk := by
  refine act_clk (fun d => ?_) next
  split
  next k e j l _ taken => simpa using Dev.takeCjob_clk d _ taken
  next => rfl

theorem execCxeSegment_clk {inst : Nat} {s t : State} (next : execCxeSegment inst s = .next t) :
    t.dev.clk = s.dev.clk := by
  refine act_clk (fun d => ?_) next
  dsimp only
  repeat' split
  all_goals simp

theorem execDgeSegment_clk {inst : Nat} {s t : State} (next : execDgeSegment inst s = .next t) :
    t.dev.clk = s.dev.clk := by
  refine act_clk (fun d => ?_) next
  dsimp only
  repeat' split
  all_goals simp

theorem execAeeSegment_clk {inst : Nat} {first second : Bool} {s t : State}
    (next : execAeeSegment inst first second s = .next t) : t.dev.clk = s.dev.clk := by
  refine act_clk (fun d => ?_) next
  dsimp only
  repeat' split
  all_goals simp

theorem execEngineEccRetire_clk {engine inst : Nat} {s t : State}
    (next : execEngineEccRetire engine inst s = .next t) : t.dev.clk = s.dev.clk := by
  refine act_clk (fun d => ?_) next
  repeat' split
  all_goals simp

/-! ## The key store -/

theorem execKeySlotImport_clk {ref : CmdRef} {len cdw15 : Nat} {data : Option Bytes} {s t : State}
    (next : execKeySlotImport ref len cdw15 data s = .next t) : t.dev.clk = s.dev.clk := by
  refine act_clk (fun d => ?_) next
  split
  · rfl
  · split
    · split
      next e taken => simp [Dev.takeGrant_clk d 28 _ taken]
      next => rfl
    · refine Dev.admin_clk _ _ fun d => Dev.unlocked_clk _ _ fun d => ?_
      split
      · simp
      · simp
      · split
        · simp
        next e passed => simpa using Dev.blobChecks_clk _ _ _ _ _ passed

theorem execKeySlotGenerate_clk {ref : CmdRef} {len cdw15 : Nat} {s t : State}
    (next : execKeySlotGenerate ref len cdw15 s = .next t) : t.dev.clk = s.dev.clk := by
  refine act_clk (fun d => ?_) next
  split
  · rfl
  · split
    · split
      next e taken => simp [Dev.takeGrant_clk d 28 _ taken]
      next => rfl
    · refine Dev.admin_clk _ _ fun d => Dev.unlocked_clk _ _ fun d => ?_
      split <;> simp

theorem execKeySlotRekey_clk {ref : CmdRef} {slot len cdw15 : Nat} {data : Option Bytes} {s t : State}
    (next : execKeySlotRekey ref slot len cdw15 data s = .next t) : t.dev.clk = s.dev.clk := by
  refine act_clk (fun d => Dev.admin_clk _ _ fun d => Dev.unlocked_clk _ _ fun d => ?_) next
  dsimp only
  split
  · simp
  · split
    · simp
    · split
      · split <;> simp
      · split
        · simp
        · split
          · simp
          next e passed => simpa using Dev.blobChecks_clk _ _ _ _ _ passed

theorem execKeySlotDestroy_clk {ref : CmdRef} {slot : Nat} {s t : State}
    (next : execKeySlotDestroy ref slot s = .next t) : t.dev.clk = s.dev.clk := by
  refine act_clk (fun d => Dev.admin_clk _ _ fun d => ?_) next
  dsimp only
  repeat' split
  all_goals simp

theorem execKeySlotUnbind_clk {ref : CmdRef} {slot nsid tag : Nat} {s t : State}
    (next : execKeySlotUnbind ref slot nsid tag s = .next t) : t.dev.clk = s.dev.clk := by
  refine act_clk (fun d => Dev.admin_clk _ _ fun d => ?_) next
  dsimp only
  repeat' split
  all_goals simp

theorem execKeyReleaseComplete_clk {ref : CmdRef} {s t : State} (next : execKeyReleaseComplete ref s = .next t) :
    t.dev.clk = s.dev.clk := by
  refine act_clk (fun d => ?_) next
  repeat' split
  all_goals simp

theorem execAeeJobEnd_clk {job : Nat} {s t : State} (next : execAeeJobEnd job s = .next t) : t.dev.clk = s.dev.clk := by
  refine act_clk (fun d => ?_) next
  dsimp only
  repeat' split
  all_goals simp

theorem execContextBusError_clk {engine ctx : Nat} {s t : State} (next : execContextBusError engine ctx s = .next t) :
    t.dev.clk = s.dev.clk := by
  refine act_clk (fun d => ?_) next
  dsimp only
  split <;> simp

/-! ## Reservations -/

theorem execReservationRegister_clk {ref : CmdRef} {nsid action : Nat} {iekey : Bool} {cptpl : Nat} {keys : KeyData}
    {s t : State} (next : execReservationRegister ref nsid action iekey cptpl keys s = .next t) :
    t.dev.clk = s.dev.clk := by
  refine act_clk (fun d => Dev.resvKeys_clk _ _ _ _ _ fun d r h k => ?_) next
  dsimp only
  repeat' split
  all_goals simp

theorem execReservationAcquire_clk {ref : CmdRef} {nsid action : Nat} {iekey : Bool} {rtype : Nat} {keys : KeyData}
    {s t : State} (next : execReservationAcquire ref nsid action iekey rtype keys s = .next t) :
    t.dev.clk = s.dev.clk := by
  refine act_clk (fun d => Dev.resvKeys_clk _ _ _ _ _ fun d r h k => ?_) next
  dsimp only
  repeat' split
  all_goals simp

theorem execReservationReport_clk {ref : CmdRef} {nsid len : Nat} {extended : Bool} {ptr : DataPtr} {s t : State}
    (next : execReservationReport ref nsid len extended ptr s = .next t) : t.dev.clk = s.dev.clk := by
  refine act_clk (fun d => Dev.resvCmd_clk _ _ _ fun d r h => ?_) next
  split <;> simp

/-! ## The host's I/O commands -/

theorem execWrite_clk {ref : CmdRef} {nsid slba nlb : Nat} {tag : Option Nat} {dp mp : DataPtr}
    {data metadata : Option Bytes} {s t : State}
    (next : execWrite ref nsid slba nlb tag dp mp data metadata s = .next t) : t.dev.clk = s.dev.clk := by
  refine act_clk (fun d => Dev.io_clk _ _ fun d => ?_) next
  dsimp only
  repeat' split
  all_goals simp -implicitDefEqProofs

theorem execRead_clk {ref : CmdRef} {nsid slba nlb : Nat} {tag : Option Nat} {dp mp : DataPtr} {s t : State}
    (next : execRead ref nsid slba nlb tag dp mp s = .next t) : t.dev.clk = s.dev.clk := by
  refine act_clk (fun d => Dev.io_clk _ _ fun d => ?_) next
  split <;> simp

theorem execCompare_clk {ref : CmdRef} {nsid slba nlb : Nat} {tag : Option Nat} {dp mp : DataPtr}
    {data metadata : Option Bytes} {s t : State}
    (next : execCompare ref nsid slba nlb tag dp mp data metadata s = .next t) : t.dev.clk = s.dev.clk := by
  refine act_clk (fun d => Dev.io_clk _ _ fun d => ?_) next
  split <;> simp

theorem execVerify_clk {ref : CmdRef} {nsid slba nlb : Nat} {tag : Option Nat} {s t : State}
    (next : execVerify ref nsid slba nlb tag s = .next t) : t.dev.clk = s.dev.clk := by
  refine act_clk (fun d => Dev.io_clk _ _ fun d => ?_) next
  repeat' split
  all_goals simp

theorem execFlush_clk {ref : CmdRef} {nsid : Nat} {s t : State} (next : execFlush ref nsid s = .next t) :
    t.dev.clk = s.dev.clk := by
  refine act_clk (fun d => Dev.io_clk _ _ fun d => ?_) next
  repeat' split
  all_goals simp

theorem execWriteZeroes_clk {ref : CmdRef} {nsid slba nlb : Nat} {deallocate : Bool} {s t : State}
    (next : execWriteZeroes ref nsid slba nlb deallocate s = .next t) : t.dev.clk = s.dev.clk := by
  refine act_clk (fun d => Dev.io_clk _ _ fun d => ?_) next
  split <;> simp

theorem execDatasetManagement_clk {ref : CmdRef} {nsid : Nat} {deallocate : Bool} {dp : DataPtr}
    {ranges : Option (List (Nat × Nat))} {s t : State}
    (next : execDatasetManagement ref nsid deallocate dp ranges s = .next t) : t.dev.clk = s.dev.clk := by
  refine act_clk (fun d => Dev.io_clk _ _ fun d => ?_) next
  repeat' split
  all_goals simp

/-! ## Tongs searches -/

theorem execTongsReleaseComplete_clk {unit : Nat} {s t : State} (next : execTongsReleaseComplete unit s = .next t) :
    t.dev.clk = s.dev.clk := by
  refine act_clk (fun d => ?_) next
  dsimp only
  repeat' split
  all_goals simp

theorem execTongsTableRead_clk {ref : CmdRef} {unit first count len : Nat} {ptr : DataPtr} {s t : State}
    (next : execTongsTableRead ref unit first count len ptr s = .next t) : t.dev.clk = s.dev.clk := by
  refine act_clk (fun d => ?_) next
  dsimp only
  repeat' split
  all_goals simp

theorem execTongsEntryUpdate_clk {unit : Nat} {s t : State} (next : execTongsEntryUpdate unit s = .next t) :
    t.dev.clk = s.dev.clk := by
  refine act_clk (fun d => ?_) next
  dsimp only
  repeat' split
  all_goals simp

theorem execTongsSearch_clk {unit : Nat} {bad : Bool} {s t : State} (next : execTongsSearch unit bad s = .next t) :
    t.dev.clk = s.dev.clk := by
  refine act_clk (fun d => ?_) next
  dsimp only
  repeat' split
  all_goals simp

theorem execTongsStep_clk {unit : Nat} {bad : Bool} {s t : State} (next : execTongsStep unit bad s = .next t) :
    t.dev.clk = s.dev.clk := by
  refine act_clk (fun d => ?_) next
  dsimp only
  repeat' split
  all_goals simp

/-! ## Namespaces, Format and Sanitize -/

theorem execNamespaceCreate_clk {ref : CmdRef} {nsze ncap lbaf : Nat} {extended kpio shared sent : Bool} {s t : State}
    (next : execNamespaceCreate ref nsze ncap lbaf extended kpio shared sent s = .next t) : t.dev.clk = s.dev.clk := by
  refine act_clk (fun d => Dev.nsAdmin_clk _ _ fun d => ?_) next
  generalize d.freeNsid = nsid
  simp only [Dev.clk_ite, Dev.complete_clk, ite_eq_left_iff]
  intro _ _ _ _
  generalize lowestRun d.map.rootUsed _ = first
  generalize d.canIssue 29 0 1 = free
  split
  · simp
  · simp
  · simp

theorem execNamespaceAttach_clk {ref : CmdRef} {nsid : Nat} {ctrls : Option (List Nat)} {s t : State}
    (next : execNamespaceAttach ref nsid ctrls s = .next t) : t.dev.clk = s.dev.clk := by
  refine act_clk (fun d => Dev.nsAdmin_clk _ _ fun d => ?_) next
  split <;> simp

theorem execNamespaceDetach_clk {ref : CmdRef} {nsid : Nat} {ctrls : Option (List Nat)} {s t : State}
    (next : execNamespaceDetach ref nsid ctrls s = .next t) : t.dev.clk = s.dev.clk := by
  refine act_clk (fun d => Dev.nsAdmin_clk _ _ fun d => ?_) next
  split <;> simp

theorem execFormatNvm_clk {ref : CmdRef} {nsid lbaf ses : Nat} {extended : Bool} {pi : Nat} {s t : State}
    (next : execFormatNvm ref nsid lbaf ses extended pi s = .next t) : t.dev.clk = s.dev.clk := by
  refine act_clk (fun d => Dev.nsAdmin_clk _ _ fun d => ?_) next
  dsimp only
  repeat' split
  all_goals simp

theorem execFormatClearComplete_clk {nsid : Nat} {s t : State} (next : execFormatClearComplete nsid s = .next t) :
    t.dev.clk = s.dev.clk := by
  refine act_clk (fun d => ?_) next
  split <;> simp

/-! ## Nolob images -/

theorem execNolobImageLoad_clk {ref : CmdRef} {len : Nat} {mustSign : Bool} {data : Option Bytes} {col set grp : Nat}
    {s t : State} (next : execNolobImageLoad ref len mustSign data col set grp s = .next t) : t.dev.clk = s.dev.clk := by
  refine act_clk (fun d => ?_) next
  split
  · rfl
  · split
    · split
      next e taken => simp [Dev.takeGrant_clk d 23 _ taken]
      next => rfl
    · split
      · rfl
      · split
        · simp
        · split <;> simp

theorem execNolobImageUnload_clk {ref : CmdRef} {handle : Nat} {s t : State}
    (next : execNolobImageUnload ref handle s = .next t) : t.dev.clk = s.dev.clk := by
  refine act_clk (fun d => ?_) next
  repeat' split
  all_goals simp

theorem execImageUnloadComplete_clk {slot : Nat} {s t : State} (next : execImageUnloadComplete slot s = .next t) :
    t.dev.clk = s.dev.clk := by
  refine act_clk (fun d => ?_) next
  repeat' split
  all_goals simp

/-! ## Vendor commands -/

theorem execPolicyTableLoad_clk {ref : CmdRef} {table action len : Nat} {data : Option Bytes} {s t : State}
    (next : execPolicyTableLoad ref table action len data s = .next t) : t.dev.clk = s.dev.clk := by
  refine act_clk (fun d => Dev.pfAdmin_clk _ _ fun d => ?_) next
  dsimp only
  repeat' split
  all_goals simp

theorem execComputeSubmit_clk {ref : CmdRef} {addr : Nat} {waybill : Option Bytes} {out : DataPtr} {s t : State}
    (next : execComputeSubmit ref addr waybill out s = .next t) : t.dev.clk = s.dev.clk := by
  refine act_clk (fun d => Dev.io_clk _ _ fun d => ?_) next
  dsimp only
  repeat' split
  all_goals simp

/-! ## The code flash -/

theorem execFlashSuspend_clk {ran : Nat} {s t : State} (next : execFlashSuspend ran s = .next t) :
    t.dev.clk = s.dev.clk := by
  refine act_clk (fun d => ?_) next
  repeat' split
  all_goals simp

theorem execFlashAutoResume_clk {us : Nat} {s t : State} (next : execFlashAutoResume us s = .next t) :
    t.dev.clk = s.dev.clk := by
  refine act_clk (fun d => ?_) next
  split <;> simp

theorem execFlashOperationDone_clk {failed : Option Nat} {pulses us : Nat} {s t : State}
    (next : execFlashOperationDone failed pulses us s = .next t) : t.dev.clk = s.dev.clk := by
  refine act_clk (fun d => ?_) next
  dsimp only
  repeat' split
  all_goals simp

theorem execFlashOperationAbandoned_clk {unit : Nat} {s t : State}
    (next : execFlashOperationAbandoned unit s = .next t) : t.dev.clk = s.dev.clk := by
  refine act_clk (fun d => ?_) next
  dsimp only
  split <;> simp

theorem execCodeFlashReadFault_clk {offset : Nat} {fetch : Bool} {ecc : Nat} {s t : State}
    (next : execCodeFlashReadFault offset fetch ecc s = .next t) : t.dev.clk = s.dev.clk := by
  refine act_clk (fun d => ?_) next
  dsimp only
  repeat' split
  all_goals simp -implicitDefEqProofs

/-! ## Boot and the watchdog -/

theorem execTrialConfirm_clk {s t : State} (next : execTrialConfirm s = .next t) : t.dev.clk = s.dev.clk := by
  refine act_clk (fun d => ?_) next
  dsimp only
  repeat' split
  all_goals simp

/-! ## Firmware download and commit -/

theorem execFirmwareImageDownload_clk {ref : CmdRef} {offset : Nat} {data : Option Bytes} {s t : State}
    (next : execFirmwareImageDownload ref offset data s = .next t) : t.dev.clk = s.dev.clk := by
  refine act_clk (fun d => Dev.pfAdmin_clk _ _ fun d => ?_) next
  dsimp only
  split <;> simp

theorem execFirmwareCommitActivateNow_clk {ref : CmdRef} {fs us : Nat} {cert : Option Bytes}
    {profiles : List DieProfile} {s t : State}
    (next : execFirmwareCommitActivateNow ref fs us cert profiles s = .next t) : t.dev.clk = s.dev.clk := by
  refine act_clk (fun d => ?_) next
  split <;> simp

theorem execFirmwareSlotWritten_clk {ok : Bool} {s t : State} (next : execFirmwareSlotWritten ok s = .next t) :
    t.dev.clk = s.dev.clk := by
  refine act_clk (fun d => ?_) next
  dsimp only
  split <;> simp

/-! ## Rails, power modes and wakes -/

theorem execWakeFromDormant_clk {crcOk : Bool} {us : Nat} {failed : List Nat} {s t : State}
    (next : execWakeFromDormant crcOk us failed s = .next t) : t.dev.clk = s.dev.clk := by
  refine act_clk (fun d => ?_) next
  dsimp only
  split <;> simp

theorem execWakeFromDeep_clk {failed : List Nat} {s t : State} (next : execWakeFromDeep failed s = .next t) :
    t.dev.clk = s.dev.clk := by
  refine act_clk (fun d => ?_) next
  dsimp only
  repeat' split
  all_goals simp -implicitDefEqProofs

/-! ## The management endpoint -/

theorem execSmbusArp_clk {cmd addr : Nat} {udidOk : Bool} {s t : State}
    (next : execSmbusArp cmd addr udidOk s = .next t) : t.dev.clk = s.dev.clk := by
  refine act_clk (fun d => Dev.onBus_clk _ _ fun d => ?_) next
  dsimp only
  split <;> simp

theorem execConfigurationSet_clk {bus slot ident value : Nat} {s t : State}
    (next : execConfigurationSet bus slot ident value s = .next t) : t.dev.clk = s.dev.clk := by
  refine act_clk (fun d => Dev.mi_clk _ _ _ fun d => ?_) next
  dsimp only
  split <;> simp

theorem execConfigurationGet_clk {bus slot ident : Nat} {s t : State}
    (next : execConfigurationGet bus slot ident s = .next t) : t.dev.clk = s.dev.clk := by
  refine act_clk (fun d => Dev.mi_clk _ _ _ fun d => ?_) next
  split <;> simp

theorem execRecoveryCommit_clk {bus slot target : Nat} {cert : Option Bytes} {profiles : List DieProfile}
    {failed : List Nat} {s t : State} (next : execRecoveryCommit bus slot target cert profiles failed s = .next t) :
    t.dev.clk = s.dev.clk := by
  refine act_clk (fun d => Dev.mi_clk _ _ _ fun d => ?_) next
  dsimp only
  repeat' split
  all_goals simp

theorem execSpdmGetMeasurements_clk {bus index : Nat} {signed : Bool} {s t : State}
    (next : execSpdmGetMeasurements bus index signed s = .next t) : t.dev.clk = s.dev.clk := by
  refine act_clk (fun d => Dev.spdmIn_clk _ _ fun d => Dev.negotiated_clk _ fun d => ?_) next
  dsimp only
  split <;> simp

/-! ## Accesses, mailboxes and the bridge -/

theorem execBridgeAccess_clk {dir : Nat} {source : Source} {addr : Nat} {wide isWrite : Bool} {value : Nat}
    {s t : State} (next : execBridgeAccess dir source addr wide isWrite value s = .next t) : t.dev.clk = s.dev.clk := by
  refine act_clk (fun d => ?_) next
  split <;> simp

theorem execBridgeReadReturn_clk {dir : Nat} {s t : State} (next : execBridgeReadReturn dir s = .next t) :
    t.dev.clk = s.dev.clk := by
  refine act_clk (fun d => ?_) next
  split <;> simp

theorem execRcCounterRead_clk {space : RegSpace} {addr : Nat} {s t : State}
    (next : execRcCounterRead space addr s = .next t) : t.dev.clk = s.dev.clk := by
  refine act_clk (fun d => ?_) next
  split <;> simp

theorem execUpperWordLatch_clk {space : RegSpace} {spot : ReadAt} {s t : State}
    (next : execUpperWordLatch space spot s = .next t) : t.dev.clk = s.dev.clk := by
  refine act_clk (fun d => ?_) next
  repeat' split
  all_goals simp

theorem windowCommit_clk {w : Nat} {f : Dev → Dev} (commit : windowCommit w = some f) (d : Dev) : (f d).clk = d.clk := by
  unfold windowCommit at commit
  split at commit
  all_goals simp only [Option.some.injEq, reduceCtorEq] at commit
  all_goals simp [← commit]

theorem execStagedCommit_clk {w : Nat} {s t : State} (next : execStagedCommit w s = .next t) : t.dev.clk = s.dev.clk := by
  refine act_clk (fun d => ?_) next
  split
  next f commit => simp [windowCommit_clk commit]
  next => rfl

theorem execMailboxSlotGranted_clk {ring : Nat} {s t : State} (next : execMailboxSlotGranted ring s = .next t) :
    t.dev.clk = s.dev.clk := by
  refine act_clk (fun d => ?_) next
  split <;> simp

theorem execMailboxReceive_clk {ring : Nat} {s t : State} (next : execMailboxReceive ring s = .next t) :
    t.dev.clk = s.dev.clk := by
  refine act_clk (fun d => ?_) next
  dsimp only
  split <;> simp

theorem execHandoffBufferPass_clk {buffer : Nat} {data : Bytes} {s t : State}
    (next : execHandoffBufferPass buffer data s = .next t) : t.dev.clk = s.dev.clk := by
  refine act_clk (fun d => ?_) next
  dsimp only
  repeat' split
  all_goals simp -implicitDefEqProofs

theorem execHandoffForeignAccess_clk {buffer offset : Nat} {core : Option Nat} {s t : State}
    (next : execHandoffForeignAccess buffer offset core s = .next t) : t.dev.clk = s.dev.clk := by
  refine act_clk (fun d => ?_) next
  dsimp only
  repeat' split
  all_goals simp

/-! ## Feresk loops and calls -/

theorem execNodeFiring_clk {ctx : Nat} {s t : State} (next : execNodeFiring ctx s = .next t) :
    t.dev.clk = s.dev.clk := by
  refine act_clk (fun d => ?_) next
  dsimp only
  repeat' split
  all_goals simp

theorem execGraphQuiescent_clk {ctx : Nat} {s t : State} (next : execGraphQuiescent ctx s = .next t) :
    t.dev.clk = s.dev.clk := by
  refine act_clk (fun d => ?_) next
  dsimp only
  repeat' split
  all_goals simp

theorem execRet_clk {ctx : Nat} {s t : State} (next : execRet ctx s = .next t) : t.dev.clk = s.dev.clk := by
  refine act_clk (fun d => ?_) next
  dsimp only
  repeat' split
  all_goals simp

/-! ## Service calls -/

theorem execSvcDelay_clk {ctx : Nat} {s t : State} (next : execSvcDelay ctx s = .next t) : t.dev.clk = s.dev.clk := by
  refine act_clk (fun d => Dev.svc_clk _ _ _ fun d q => ?_) next
  dsimp only
  split
  · simp
  · simp [clk_getD fun _ => Dev.takeDelay_clk d q.th (q.c.arg 2) false]

theorem execSvcNextInput_clk {ctx : Nat} {s t : State} (next : execSvcNextInput ctx s = .next t) :
    t.dev.clk = s.dev.clk := by
  refine act_clk (fun d => Dev.svc_clk _ _ _ fun d q => ?_) next
  dsimp only
  repeat' split
  all_goals simp

theorem execSvcEmitOutput_clk {ctx : Nat} {s t : State} (next : execSvcEmitOutput ctx s = .next t) :
    t.dev.clk = s.dev.clk := by
  refine act_clk (fun d => Dev.svc_clk _ _ _ fun d q => ?_) next
  dsimp only
  split
  · simp
  · split
    · simp
    · split
      · simp
      next e have? =>
        have kept : e.clk = d.clk := by
          split at have?
          · cases have?
            rfl
          · exact Dev.freshOut_clk d _ have?
        split
        · simp [kept]
        · split
          next f got =>
            have kept' : f.clk = d.clk := by
              split at got
              · cases got
                simp [kept]
              · simpa [kept] using Dev.freshOut_clk _ _ got
            simp [kept']
          next => simp [kept]

theorem execSvcTongsQuery_clk {ctx : Nat} {s t : State} (next : execSvcTongsQuery ctx s = .next t) :
    t.dev.clk = s.dev.clk := by
  refine act_clk (fun d => Dev.svc_clk _ _ _ fun d q => ?_) next
  dsimp only
  repeat' split
  all_goals simp

theorem execSvcDigest_clk {ctx : Nat} {tagOk : Bool} {s t : State} (next : execSvcDigest ctx tagOk s = .next t) :
    t.dev.clk = s.dev.clk := by
  refine act_clk (fun d => Dev.svc_clk _ _ _ fun d q => ?_) next
  dsimp only
  repeat' split
  all_goals simp

theorem execSvcWaitTimeout_clk {ctx : Nat} {s t : State} (next : execSvcWaitTimeout ctx s = .next t) :
    t.dev.clk = s.dev.clk := by
  refine act_clk (fun d => Dev.svc_clk _ _ _ fun d q => ?_) next
  dsimp only
  split
  · simp
  · split
    · simp
    · simp [clk_getD fun _ => Dev.takeDelay_clk d q.th (q.c.arg 3) true]

theorem execThreadWake_clk {thread : Nat} {s t : State} (next : execThreadWake thread s = .next t) :
    t.dev.clk = s.dev.clk := by
  refine act_clk (fun d => ?_) next
  dsimp only
  repeat' split
  all_goals simp

theorem execDelayEntryExpiry_clk {hearth : Nat} {s t : State} (next : execDelayEntryExpiry hearth s = .next t) :
    t.dev.clk = s.dev.clk := by
  refine act_clk (fun d => ?_) next
  dsimp only
  split <;> simp

theorem execThreadCancel_clk {thread : Nat} {s t : State} (next : execThreadCancel thread s = .next t) :
    t.dev.clk = s.dev.clk := by
  refine act_clk (fun d => ?_) next
  dsimp only
  repeat' split
  all_goals simp

end Sys2Proof.Machine

/-! The rows of exec that move the clock keep it sound, so that every step does: O51. -/

namespace Sys2Proof.Machine

/-! ## What moves the clock keeps it sound (R38) -/

theorem Dev.discard_clockOk {d : Dev} (ok : d.clk.ok) (fix off : Nat) : (d.discard fix off).clk.ok := by
  unfold Dev.discard
  split
  · exact ok
  · exact ok

theorem Dev.bar2Write_clockOk {d : Dev} (ok : d.clk.ok) (fix off : Nat) (wide : Bool) (v : Nat) :
    (d.bar2Write fix off wide v).clk.ok := by
  unfold Dev.bar2Write
  split
  · simpa using ok
  · exact Dev.discard_clockOk ok fix off

theorem Dev.accessWrite_clockOk {d : Dev} (ok : d.clk.ok) (a : Access) : (d.accessWrite a).clk.ok := by
  unfold Dev.accessWrite
  split
  · simpa using ok
  · split
    · exact ok
    · dsimp only
      generalize a.addr - windowBase = off
      split
      · exact Dev.bar2Write_clockOk ok _ _ _ _
      · simpa using ok

theorem Dev.checkpoint_clockOk {d : Dev} (ok : d.clk.ok) : d.checkpoint.clk.ok := by
  simpa [Dev.checkpoint, Clock.ok] using ok

theorem Dev.fallAsleep_clockOk {d : Dev} (ok : d.clk.ok) (us : Nat) : (d.fallAsleep us).clk.ok := by
  have saved : (if d.nvm.noSuperblock then d else d.checkpoint).clk.ok := by
    split
    · exact ok
    · exact Dev.checkpoint_clockOk ok
  simp only [Dev.fallAsleep]
  split <;> simpa using saved

theorem Dev.goOnEntry_clockOk {d : Dev} (ok : d.clk.ok) (us : Nat) : (d.goOnEntry us).clk.ok := by
  have padded : d.padAll.clk.ok := by simpa using ok
  simp only [Dev.goOnEntry]
  split
  · exact Dev.fallAsleep_clockOk padded us
  · exact padded

theorem Dev.enterSleep_goOnEntry_clockOk {d : Dev} (ok : d.clk.ok) (orderly : Bool) (us : Nat) :
    ((d.enterSleep orderly).goOnEntry us).clk.ok := Dev.goOnEntry_clockOk (by simpa using ok) us

theorem Dev.hostReset_clockOk {d : Dev} (ok : d.clk.ok) (port : Nat) (cause : LinkEnd) (failed : List Nat) :
    (d.hostReset port cause failed).clk.ok := by
  unfold Dev.hostReset
  split
  · exact ok
  · split
    · dsimp only
      split <;> simpa using ok
    · split
      · exact Dev.enterSleep_goOnEntry_clockOk ok true 0
      · simpa using ok

theorem Clock.next_ok {c : Clock} (ok : c.ok) : c.next.ok :=
  ⟨Nat.mod_lt _ (by omega), Nat.le_succ_of_le ok.2⟩

theorem Dev.passTime_clockOk {d : Dev} (ok : d.clk.ok) : d.passTime.clk.ok := Clock.next_ok ok

theorem Dev.powerOn_clockOk (d : Dev) : d.powerOn.clk.ok := by
  simp [Dev.powerOn, Clock.ok]

/-! ## The rows that move the clock -/

section
variable {s t : State}

theorem act_clockOk {f : Dev → Dev} (keeps : ∀ d, d.clk.ok → (f d).clk.ok) (ok : s.dev.clk.ok)
    (next : act s f = .next t) : t.dev.clk.ok := by
  cases next
  exact keeps _ ok

theorem execAccountingEpochBoundary_clockOk {tj : Int} {sensor : Nat} {top : Int} {margins : List Nat} (ok : s.dev.clk.ok)
    (next : execAccountingEpochBoundary tj sensor top margins s = .next t) : t.dev.clk.ok := by
  refine act_clockOk (fun d ok => ?_) ok next
  have stalls : (d.forEach (List.range 32) Dev.checkPool).countStalls.clk.ok := by simpa using ok
  simpa using Dev.passTime_clockOk stalls

theorem execBar2WriteDiscarded_clockOk {fix offset : Nat} {wide : Bool} (ok : s.dev.clk.ok)
    (next : execBar2WriteDiscarded fix offset wide s = .next t) : t.dev.clk.ok := by
  refine act_clockOk (fun d ok => ?_) ok next
  split
  · exact Dev.discard_clockOk ok fix offset
  · exact ok

theorem execDeviceResetOrderly_clockOk {us : Nat} (ok : s.dev.clk.ok) (next : execDeviceResetOrderly us s = .next t) :
    t.dev.clk.ok := by
  refine act_clockOk (fun d ok => ?_) ok next
  split
  · exact Dev.goOnEntry_clockOk ok us
  · split
    · exact Dev.enterSleep_goOnEntry_clockOk ok true us
    · exact ok

theorem execEmberRailLoss_clockOk {rail : Nat} (ok : s.dev.clk.ok) (next : execEmberRailLoss rail s = .next t) :
    t.dev.clk.ok := by
  refine act_clockOk (fun d ok => ?_) ok next
  split
  · exact ok
  · exact Dev.powerOn_clockOk d

theorem execHotReset_clockOk {port : Nat} {failed : List Nat} (ok : s.dev.clk.ok)
    (next : execHotReset port failed s = .next t) : t.dev.clk.ok := by
  refine act_clockOk (fun d ok => ?_) ok next
  split
  · exact ok
  · dsimp only
    split
    · simpa using ok
    · exact Dev.hostReset_clockOk (by simpa using ok) _ _ _

theorem execJournalCheckpoint_clockOk (ok : s.dev.clk.ok) (next : execJournalCheckpoint s = .next t) : t.dev.clk.ok := by
  refine act_clockOk (fun d ok => ?_) ok next
  split
  · exact Dev.checkpoint_clockOk ok
  · exact ok

theorem execLinkDown_clockOk {port : Nat} {failed : List Nat} (ok : s.dev.clk.ok)
    (next : execLinkDown port failed s = .next t) : t.dev.clk.ok := by
  refine act_clockOk (fun d ok => ?_) ok next
  split
  · exact ok
  · exact Dev.hostReset_clockOk (by simpa using ok) _ _ _

theorem execPerstAssert_clockOk {port : Nat} {failed : List Nat} (ok : s.dev.clk.ok)
    (next : execPerstAssert port failed s = .next t) : t.dev.clk.ok := by
  refine act_clockOk (fun d ok => ?_) ok next
  split
  · exact ok
  · exact Dev.hostReset_clockOk (by simpa using ok) _ _ _

theorem execPowerCycle_clockOk (ok : s.dev.clk.ok) (next : execPowerCycle s = .next t) : t.dev.clk.ok := by
  refine act_clockOk (fun d _ => ?_) ok next
  simpa using Dev.powerOn_clockOk d

theorem execRegisterWrite_clockOk {space : RegSpace} {addr : Nat} {wide : Bool} {value : Nat} (ok : s.dev.clk.ok)
    (next : execRegisterWrite space addr wide value s = .next t) : t.dev.clk.ok := by
  refine act_clockOk (fun d ok => ?_) ok next
  cases space with
  | nvme f => dsimp only; split <;> simpa using ok
  | msix f => dsimp only; split <;> simpa using ok
  | config f c => dsimp only; split <;> simpa using ok
  | bar2 p =>
    dsimp only
    split
    · split
      · simpa using ok
      · exact Dev.bar2Write_clockOk ok _ _ _ _
    · exact ok
  | core c =>
    dsimp only
    split
    · split <;> simpa using ok
    · exact ok
  | bridge dir =>
    dsimp only
    split
    · split
      · exact Dev.accessWrite_clockOk (by simpa using ok) _
      · exact ok
    · exact ok

theorem Dev.admin_clockOk {d : Dev} (ok : d.clk.ok) (ref : CmdRef) {f : Dev → Dev}
    (keeps : ∀ d, d.clk.ok → (f d).clk.ok) : (d.admin ref f).clk.ok := by
  unfold Dev.admin
  split
  · exact keeps _ (by simpa using ok)
  · exact ok

theorem execSetFeatures_clockOk {ref : CmdRef} {fid : Nat} {save : Bool} {nsid value : Nat} {data : Option Bytes}
    (ok : s.dev.clk.ok) (next : execSetFeatures ref fid save nsid value data s = .next t) : t.dev.clk.ok := by
  refine act_clockOk (fun d ok => Dev.admin_clockOk ok ref fun d ok => ?_) ok next
  dsimp only
  repeat' split
  all_goals simpa [Clock.ok] using ok

theorem execSleepEntry_clockOk {us : Nat} (ok : s.dev.clk.ok) (next : execSleepEntry us s = .next t) : t.dev.clk.ok := by
  refine act_clockOk (fun d ok => ?_) ok next
  split
  · exact Dev.goOnEntry_clockOk ok us
  · split
    · exact Dev.enterSleep_goOnEntry_clockOk ok false us
    · exact ok
end

/-! ## Every row -/

/-- The commands that move the clock: epochs and time that passes, the host's time and the journal's, sleep and power,
and a write that may be discarded. -/
def movesClock : Instr → Bool
  | .registerWrite _ _ _ _ | .bar2WriteDiscarded _ _ _ | .accountingEpochBoundary _ _ _ _ | .perstAssert _ _
  | .hotReset _ _ | .linkDown _ _ | .setFeatures _ _ _ _ _ _ | .journalCheckpoint | .sleepEntry _
  | .emberRailLoss _ | .deviceResetOrderly _ | .powerCycle => true
  | _ => false

theorem exec_recoveryCommit (bus slot target : Nat) (cert : Option Bytes) (profiles : List DieProfile) (failed : List Nat)
    (s : State) : exec (.recoveryCommit bus slot target cert profiles failed) s =
      execRecoveryCommit bus slot target cert profiles failed s := rfl

theorem exec_clk {i : Instr} {s t : State} (still : movesClock i = false) (next : exec i s = .next t) :
    t.dev.clk = s.dev.clk := by
  cases i
  case rcCounterRead => exact execRcCounterRead_clk next
  case upperWordLatch => exact execUpperWordLatch_clk next
  case stagedCommit => exact execStagedCommit_clk next
  case mailboxSlotGranted => exact execMailboxSlotGranted_clk next
  case mailboxReceive => exact execMailboxReceive_clk next
  case handoffBufferPass => exact execHandoffBufferPass_clk next
  case handoffForeignAccess => exact execHandoffForeignAccess_clk next
  case bridgeAccess => exact execBridgeAccess_clk next
  case bridgeReadReturn => exact execBridgeReadReturn_clk next
  case linkTraining => exact execLinkTraining_clk next
  case linkPowerStateChange => exact execLinkPowerStateChange_clk next
  case submissionFetch => exact execSubmissionFetch_clk next
  case createIoSq => exact execCreateIoSq_clk next
  case createIoCq => exact execCreateIoCq_clk next
  case deleteIoSq => exact execDeleteIoSq_clk next
  case deleteIoCq => exact execDeleteIoCq_clk next
  case getLogPage => exact execGetLogPage_clk next
  case identify => exact execIdentify_clk next
  case abort => exact execAbort_clk next
  case getFeatures => exact execGetFeatures_clk next
  case asynchronousEventRequest => exact execAsynchronousEventRequest_clk next
  case namespaceCreate => exact execNamespaceCreate_clk next
  case namespaceAttach => exact execNamespaceAttach_clk next
  case namespaceDetach => exact execNamespaceDetach_clk next
  case firmwareImageDownload => exact execFirmwareImageDownload_clk next
  case firmwareCommitActivateNow => exact execFirmwareCommitActivateNow_clk next
  case firmwareSlotWritten => exact execFirmwareSlotWritten_clk next
  case formatNvm => exact execFormatNvm_clk next
  case formatClearComplete => exact execFormatClearComplete_clk next
  case flush => exact execFlush_clk next
  case write => exact execWrite_clk next
  case read => exact execRead_clk next
  case compare => exact execCompare_clk next
  case writeZeroes => exact execWriteZeroes_clk next
  case datasetManagement => exact execDatasetManagement_clk next
  case verify => exact execVerify_clk next
  case reservationRegister => exact execReservationRegister_clk next
  case reservationReport => exact execReservationReport_clk next
  case reservationAcquire => exact execReservationAcquire_clk next
  case policyTableLoad => exact execPolicyTableLoad_clk next
  case nolobImageLoad => exact execNolobImageLoad_clk next
  case nolobImageUnload => exact execNolobImageUnload_clk next
  case imageUnloadComplete => exact execImageUnloadComplete_clk next
  case keySlotImport => exact execKeySlotImport_clk next
  case keySlotGenerate => exact execKeySlotGenerate_clk next
  case keySlotDestroy => exact execKeySlotDestroy_clk next
  case keySlotRekey => exact execKeySlotRekey_clk next
  case keySlotUnbind => exact execKeySlotUnbind_clk next
  case keyReleaseComplete => exact execKeyReleaseComplete_clk next
  case computeSubmit => exact execComputeSubmit_clk next
  case tongsReleaseComplete => exact execTongsReleaseComplete_clk next
  case tongsTableRead => exact execTongsTableRead_clk next
  case laneGrant => exact execLaneGrant_clk next
  case granuleCompress => exact execGranuleCompress_clk next
  case granuleLockRelease => exact execGranuleLockRelease_clk next
  case xtsLaneCompute => exact execXtsLaneCompute_clk next
  case qlcCopyComplete => exact execQlcCopyComplete_clk next
  case creditGrant => exact execCreditGrant_clk next
  case nandReadComplete => exact execNandReadComplete_clk next
  case codewordDecode => exact execCodewordDecode_clk next
  case readRetryRung => exact execReadRetryRung_clk next
  case softDecode => exact execSoftDecode_clk next
  case stripeReconstruct => exact execStripeReconstruct_clk next
  case granuleDecompress => exact execGranuleDecompress_clk next
  case hostDmaComplete => exact execHostDmaComplete_clk next
  case handoffDelivery => exact execHandoffDelivery_clk next
  case checkVerdictFinal => exact execCheckVerdictFinal_clk next
  case channelTraining => exact execChannelTraining_clk next
  case nandProgramComplete => exact execNandProgramComplete_clk next
  case nandEraseComplete => exact execNandEraseComplete_clk next
  case nandOperationTimeout => exact execNandOperationTimeout_clk next
  case eraseSuspend => exact execEraseSuspend_clk next
  case programSuspend => exact execProgramSuspend_clk next
  case suspendReady => exact execSuspendReady_clk next
  case suspendResume => exact execSuspendResume_clk next
  case cartridgeAttnAssert => exact execCartridgeAttnAssert_clk next
  case mapItemLoad => exact execMapItemLoad_clk next
  case mapItemFlush => exact execMapItemFlush_clk next
  case gcVictimSelect => exact execGcVictimSelect_clk next
  case pslcFoldStart => exact execPslcFoldStart_clk next
  case rebuildSet => exact execRebuildSet_clk next
  case waybillAdmitted => exact execWaybillAdmitted_clk next
  case instanceStart => exact execInstanceStart_clk next
  case imageFetch => exact execImageFetch_clk next
  case segmentBoundary => exact execSegmentBoundary_clk next
  case timeLimitExpiry => exact execTimeLimitExpiry_clk next
  case instanceEnd => exact execInstanceEnd_clk next
  case svcNextInput => exact execSvcNextInput_clk next
  case svcEmitOutput => exact execSvcEmitOutput_clk next
  case svcTongsQuery => exact execSvcTongsQuery_clk next
  case svcDigest => exact execSvcDigest_clk next
  case svcDelay => exact execSvcDelay_clk next
  case svcWaitTimeout => exact execSvcWaitTimeout_clk next
  case asyncOperationEnd => exact execAsyncOperationEnd_clk next
  case ret => exact execRet_clk next
  case tongsSearch => exact execTongsSearch_clk next
  case tongsStep => exact execTongsStep_clk next
  case tongsEntryUpdate => exact execTongsEntryUpdate_clk next
  case cxeContextPlace => exact execCxeContextPlace_clk next
  case cxeSegment => exact execCxeSegment_clk next
  case engineEccRetire => exact execEngineEccRetire_clk next
  case dgeSegment => exact execDgeSegment_clk next
  case aeeSegment => exact execAeeSegment_clk next
  case aeeJobEnd => exact execAeeJobEnd_clk next
  case contextBusError => exact execContextBusError_clk next
  case mxtKeyCacheMiss => exact execMxtKeyCacheMiss_clk next
  case threadDispatch => exact execThreadDispatch_clk next
  case threadPreempt => exact execThreadPreempt_clk next
  case threadWake => exact execThreadWake_clk next
  case threadCancel => exact execThreadCancel_clk next
  case delayEntryExpiry => exact execDelayEntryExpiry_clk next
  case flowModeChange => exact execFlowModeChange_clk next
  case nodeFiring => exact execNodeFiring_clk next
  case graphQuiescent => exact execGraphQuiescent_clk next
  case wakeWatcherFire => exact execWakeWatcherFire_clk next
  case flashSuspend => exact execFlashSuspend_clk next
  case flashOperationDone => exact execFlashOperationDone_clk next
  case flashAutoResume => exact execFlashAutoResume_clk next
  case flashOperationAbandoned => exact execFlashOperationAbandoned_clk next
  case codeFlashReadFault => exact execCodeFlashReadFault_clk next
  case trialConfirm => exact execTrialConfirm_clk next
  case spdmGetMeasurements => exact execSpdmGetMeasurements_clk next
  case configurationSet => exact execConfigurationSet_clk next
  case configurationGet => exact execConfigurationGet_clk next
  case recoveryCommit =>
    rw [exec_recoveryCommit] at next
    exact execRecoveryCommit_clk next
  case quiesceComplete => exact execQuiesceComplete_clk next
  case wakeFromDormant => exact execWakeFromDormant_clk next
  case wakeFromDeep => exact execWakeFromDeep_clk next
  case coreUncorrectableError => exact execCoreUncorrectableError_clk next
  case deviceSelfTestComplete => exact execDeviceSelfTestComplete_clk next
  case smbusArp => exact execSmbusArp_clk next
  case registerWrite | bar2WriteDiscarded | accountingEpochBoundary | perstAssert | hotReset | linkDown |
      setFeatures | journalCheckpoint | sleepEntry | emberRailLoss | deviceResetOrderly | powerCycle => cases still
  all_goals
    cases next
    simp -implicitDefEqProofs [-Nat.reducePow]

theorem exec_clockOk {i : Instr} {s t : State} (ok : s.dev.clk.ok) (next : exec i s = .next t) : t.dev.clk.ok := by
  cases moves : movesClock i with
  | false => rwa [exec_clk moves next]
  | true =>
    cases i
    case registerWrite => exact execRegisterWrite_clockOk ok next
    case bar2WriteDiscarded => exact execBar2WriteDiscarded_clockOk ok next
    case accountingEpochBoundary => exact execAccountingEpochBoundary_clockOk ok next
    case perstAssert => exact execPerstAssert_clockOk ok next
    case hotReset => exact execHotReset_clockOk ok next
    case linkDown => exact execLinkDown_clockOk ok next
    case setFeatures => exact execSetFeatures_clockOk ok next
    case journalCheckpoint => exact execJournalCheckpoint_clockOk ok next
    case sleepEntry => exact execSleepEntry_clockOk ok next
    case emberRailLoss => exact execEmberRailLoss_clockOk ok next
    case deviceResetOrderly => exact execDeviceResetOrderly_clockOk ok next
    case powerCycle => exact execPowerCycle_clockOk ok next
    all_goals cases moves

/-- Settles O51: on an empty queue the step idles, else it executes the command at the front, which keeps the clock sound.
The reset state's clock is sound by O49. -/
theorem everyStepKeepsTheClock : Obligations.EveryStepKeepsTheClock := by
  unfold Obligations.EveryStepKeepsTheClock
  intro s t ok next
  cases queue : s.pending with
  | nil =>
    rw [step_nil s queue] at next
    cases next
    exact ok
  | cons i rest =>
    rw [step_cons i rest s queue] at next
    exact exec_clockOk (s := { s with pending := rest }) ok next

end Sys2Proof.Machine

/-! The shares of an E pool (R59): O56. The extra units of an epoch go to the `x` places from the rotation pointer on, taken
around the list; over `A` epochs the pointer passes over `A * x` places, which are `x` full turns. -/

namespace Sys2Proof.Machine

/-! ## Extra units within an epoch -/

theorem countP_range_add_lt (n c x : Nat) : (List.range n).countP (fun i => decide (i + c < x)) = min n (x - c) := by
  induction n with
  | zero => simp
  | succ n ih =>
    simp only [List.range_succ, List.countP_append, ih, List.countP_singleton, decide_eq_true_eq]
    split <;> omega

/-- An epoch has `x` extra units: those before the pointer and those from it on. -/
theorem countP_getsExtra {a x : Nat} (rot : Nat) (pos : 0 < a) (hx : x ≤ a) :
    (List.range a).countP (getsExtra a rot x) = x := by
  have inside : rot % a < a := Nat.mod_lt rot pos
  have before (i : Nat) (hi : i ∈ List.range (rot % a)) : getsExtra a rot x i = true ↔ decide (i + (a - rot % a) < x) = true := by
    have small : i < rot % a := List.mem_range.mp hi
    rw [getsExtra, Nat.add_sub_assoc (Nat.le_of_lt inside), Nat.mod_eq_of_lt (by omega)]
  have after (j : Nat) (hj : j ∈ List.range (a - rot % a)) :
      (getsExtra a rot x ∘ (rot % a + ·)) j = true ↔ decide (j + 0 < x) = true := by
    have small : j < a - rot % a := List.mem_range.mp hj
    have place : rot % a + j + a - rot % a = j + a := by omega
    rw [Function.comp_apply, getsExtra, place, Nat.add_mod_right, Nat.mod_eq_of_lt (by omega), Nat.add_zero]
  have parts : a = rot % a + (a - rot % a) := by omega
  calc (List.range a).countP (getsExtra a rot x)
      = (List.range (rot % a)).countP (getsExtra a rot x) +
          (List.range (a - rot % a)).countP (getsExtra a rot x ∘ (rot % a + ·)) := by
        rw [← List.countP_map, ← List.countP_append, ← List.range_add, ← parts]
    _ = min (rot % a) (x - (a - rot % a)) + min (a - rot % a) (x - 0) := by
        rw [List.countP_congr before, List.countP_congr after, countP_range_add_lt, countP_range_add_lt]
    _ = x := by omega

/-! ## The shares of an epoch -/

theorem shareOut_fns (cap : Nat) (fns : List Nat) (rot : Nat) : (shareOut cap fns rot).map (·.1) = fns := by
  rw [shareOut, List.map_map]
  exact List.zipIdx_map_fst 0 fns

/-- A function's share rests on its position alone. -/
theorem shareOut_shares (cap : Nat) (fns : List Nat) (rot : Nat) : (shareOut cap fns rot).map (·.2) =
    (List.range fns.length).map (fun i =>
      cap / fns.length + if getsExtra fns.length rot (cap % fns.length) i then 1 else 0) := by
  rw [List.range_eq_range', ← List.zipIdx_map_snd 0 fns, List.map_map, shareOut, List.map_map]
  rfl

theorem sum_map_add_boole (q : Nat) (p : Nat → Bool) (l : List Nat) :
    (l.map (fun i => q + if p i then 1 else 0)).sum = l.length * q + l.countP p := by
  induction l with
  | nil => simp
  | cons i l ih =>
    rw [List.map_cons, List.sum_cons, ih, List.length_cons, List.countP_cons, Nat.succ_mul]
    omega

theorem sum_shareOut (cap : Nat) {fns : List Nat} (rot : Nat) (active : 0 < fns.length) :
    ((shareOut cap fns rot).map (·.2)).sum = cap := by
  have extra := countP_getsExtra rot active (Nat.le_of_lt (Nat.mod_lt cap active))
  rw [shareOut_shares, sum_map_add_boole, extra, List.length_range]
  exact Nat.div_add_mod cap fns.length

theorem share_of_mem_shareOut {cap rot : Nat} {fns : List Nat} {p : Nat × Nat} (mem : p ∈ shareOut cap fns rot) :
    p.2 = cap / fns.length ∨ p.2 = cap / fns.length + 1 := by
  obtain ⟨q, -, rfl⟩ := List.mem_map.mp mem
  dsimp only
  split
  · exact .inr rfl
  · exact .inl rfl

/-! ## Extra units over epochs -/

/-- How many of the `n` places from `rot` on, around `a` positions, are position `i`. -/
def placesAt (a rot i n : Nat) : Nat := (List.range n).countP (fun j => decide ((rot + j) % a = i))

theorem placesAt_add (a rot i m n : Nat) : placesAt a rot i (m + n) = placesAt a rot i m + placesAt a (rot + m) i n := by
  simp only [placesAt, List.range_add, List.countP_append, List.countP_map, Nat.add_assoc]
  rfl

theorem placesAt_one (a rot i : Nat) : placesAt a rot i 1 = if rot % a = i then 1 else 0 := by
  simp only [placesAt, List.range_one, List.countP_singleton, Nat.add_zero, decide_eq_true_eq]

/-- Position `i` is the place `j` from `rot` on just where it is `j` behind the pointer. -/
theorem mod_eq_iff_behind {a i j : Nat} (rot : Nat) (hi : i < a) (hj : j < a) :
    (rot + j) % a = i ↔ (i + a - rot % a) % a = j := by
  have inside : rot % a < a := Nat.mod_lt rot (by omega)
  have once (n : Nat) (hn : n < 2 * a) : n % a = if n < a then n else n - a := by
    split
    case isTrue small => exact Nat.mod_eq_of_lt small
    case isFalse => rw [Nat.mod_eq_sub_mod (by omega), Nat.mod_eq_of_lt (by omega)]
  rw [← Nat.mod_add_mod rot a j, once (rot % a + j) (by omega), once (i + a - rot % a) (by omega)]
  split <;> split <;> omega

/-- The places of one epoch: position `i` is among them once or never, as it receives an extra unit or not (R59). -/
theorem placesAt_epoch {a x i : Nat} (rot : Nat) (hi : i < a) (hx : x ≤ a) :
    placesAt a rot i x = if getsExtra a rot x i then 1 else 0 := by
  induction x with
  | zero => simp [placesAt, getsExtra]
  | succ x ih =>
    have last := mod_eq_iff_behind rot hi hx
    simp only [placesAt_add, ih (by omega), placesAt_one, getsExtra, last, decide_eq_true_eq]
    split <;> split <;> split <;> omega

/-- A full turn passes each position once. -/
theorem placesAt_turns {a i : Nat} (rot : Nat) (hi : i < a) (x : Nat) : placesAt a rot i (x * a) = x := by
  induction x with
  | zero => simp [placesAt]
  | succ x ih =>
    have turn : getsExtra a (rot + x * a) a i = true := decide_eq_true (Nat.mod_lt _ (by omega))
    rw [Nat.succ_mul, placesAt_add, ih, placesAt_epoch _ hi (Nat.le_refl a), turn, if_pos rfl]

theorem getsExtra_mod (a rot x i : Nat) : getsExtra a (rot % a) x i = getsExtra a rot x i := by
  simp only [getsExtra, Nat.mod_mod]

/-- The places of `m` epochs follow each other without a gap: the pointer moves on by the `x` units of each. -/
theorem countP_getsExtra_epochs {a x i : Nat} (rot : Nat) (hi : i < a) (hx : x ≤ a) (m : Nat) :
    (List.range m).countP (fun k => getsExtra a ((rot + k * x) % a) x i) = placesAt a rot i (m * x) := by
  induction m with
  | zero => simp [placesAt]
  | succ m ih =>
    rw [List.range_succ, List.countP_append, ih, List.countP_singleton, getsExtra_mod, Nat.succ_mul, placesAt_add,
      placesAt_epoch _ hi hx]

/-- Settles O56: the places favoured in an epoch are `x` positions in a row, and over `A` epochs they go `x` times around. -/
theorem sharesAreFair : Obligations.SharesAreFair := by
  unfold Obligations.SharesAreFair
  intro cap rot fns a x active
  have pos : 0 < a := Nat.pos_of_ne_zero active
  have fewer : x ≤ a := Nat.le_of_lt (Nat.mod_lt cap pos)
  refine ⟨shareOut_fns cap fns rot, sum_shareOut cap rot pos, fun _ mem => share_of_mem_shareOut mem, fun i hi => ?_⟩
  rw [countP_getsExtra_epochs rot hi fewer a, Nat.mul_comm, placesAt_turns rot hi x]

end Sys2Proof.Machine

/-! Links and functions (R47, R48, R53, R55, R63, R65, R68, R89, R473): O39 and O40. A row runs one function of the device, so
that a clause holds where that function and the clause's effect agree under the clause's condition. -/

namespace Sys2Proof.Machine

/-- A row that runs `f` does `e` wherever `f` and `e` agree. -/
theorem does_of_act {i : Instr} {h : Dev → Prop} {f e : Dev → Dev} (runs : ∀ s, exec i s = act s f)
    (agrees : ∀ d, h d → f d = e d) : Does i h e := by
  intro s met
  rw [runs, act_eq, agrees _ met]

/-! ## The meanings that the rows of links run -/

theorem exec_linkTraining (port partnerMax : Nat) (passing lanes : List Nat) (flit : Bool) (s : State) :
    exec (.linkTraining port partnerMax passing lanes flit) s = execLinkTraining port partnerMax passing lanes flit s := rfl
theorem exec_linkRecoveryEntry (port us : Nat) (s : State) :
    exec (.linkRecoveryEntry port us) s = execLinkRecoveryEntry port us s := rfl
theorem exec_fecUncorrectableFlit (port us : Nat) (s : State) :
    exec (.fecUncorrectableFlit port us) s = execFecUncorrectableFlit port us s := rfl
theorem exec_linkRateDowngrade (port : Nat) (s : State) :
    exec (.linkRateDowngrade port) s = execLinkRateDowngrade port s := rfl
theorem exec_retrainLink (port target : Nat) (s : State) :
    exec (.retrainLink port target) s = execRetrainLink port target s := rfl
theorem exec_l0pWidthChange (port width : Nat) (s : State) :
    exec (.l0pWidthChange port width) s = execL0pWidthChange port width s := rfl
theorem exec_linkPowerStateChange (port state : Nat) (s : State) :
    exec (.linkPowerStateChange port state) s = execLinkPowerStateChange port state s := rfl
theorem exec_portLinkUp (port : Nat) (s : State) : exec (.portLinkUp port) s = execPortLinkUp port s := rfl

/-! ## The meanings that the rows of functions run -/

theorem exec_functionPowerStateWrite (fix : Nat) (d0 : Bool) (s : State) :
    exec (.functionPowerStateWrite fix d0) s = execFunctionPowerStateWrite fix d0 s := rfl
theorem exec_msixVectorUnmask (fix vec : Nat) (s : State) :
    exec (.msixVectorUnmask fix vec) s = execMsixVectorUnmask fix vec s := rfl
theorem exec_vfEnableWrite (port : Nat) (enable : Bool) (s : State) :
    exec (.vfEnableWrite port enable) s = execVfEnableWrite port enable s := rfl
theorem exec_functionLevelReset (fix : Nat) (s : State) :
    exec (.functionLevelReset fix) s = execFunctionLevelReset fix s := rfl
theorem exec_controllerEnable (fix css ams mps : Nat) (s : State) :
    exec (.controllerEnable fix css ams mps) s = execControllerEnable fix css ams mps s := rfl
theorem exec_controllerDisable (fix : Nat) (s : State) :
    exec (.controllerDisable fix) s = execControllerDisable fix s := rfl
theorem exec_functionResetComplete (fix us : Nat) (s : State) :
    exec (.functionResetComplete fix us) s = execFunctionResetComplete fix us s := rfl

/-! ## Links (R47, R48, R53, R68) -/

/-- Settles O39: under a clause's condition its row's guard holds, or fails where the port keeps its rate. -/
theorem linksMove : Obligations.LinksMove := by
  unfold Obligations.LinksMove
  intro port n us r w passing lanes flit l
  dsimp only
  refine ⟨does_of_act (exec_linkTraining port n passing lanes flit) ?training,
    does_of_act (exec_linkRecoveryEntry port us) ?recovery, does_of_act (exec_fecUncorrectableFlit port us) ?flitError,
    does_of_act (exec_linkRateDowngrade port) ?stepsDown, does_of_act (exec_linkRateDowngrade port) ?keepsRate,
    does_of_act (exec_retrainLink port n) ?retrain,
    fun known => does_of_act (exec_l0pWidthChange port w) fun d ⟨inUse, inFlit, inL0, least, most⟩ => ?width,
    fun state notL0 => does_of_act (exec_linkPowerStateChange port n) fun d ⟨inUse, settled⟩ => ?saves,
    fun state => does_of_act (exec_linkPowerStateChange port n) fun d ⟨inUse, settled⟩ => ?wakes,
    does_of_act (exec_portLinkUp port) ?up⟩
  case training =>
    intro d ⟨inUse, released, on, running, rate, width⟩
    simp only [rate, width, inUse, released, on, decide_eq_true running, Bool.not_false, Bool.and_self, if_true]
    rfl -- the rate of the port before, read inside the update or before it
  case recovery => exact fun d inUse => by simp [inUse]
  case flitError => exact fun d inUse => by simp [inUse]
  case stepsDown =>
    intro d ⟨inUse, must, rate⟩
    have lower : 0 < (d.port port).rate := by omega
    obtain rfl : n = (d.port port).rate - 1 := by omega
    simp only [inUse, must, lower, decide_true, Bool.and_self, if_true]
    rfl
  case keepsRate => exact fun d mustNot => by simp [mustNot]
  case retrain => exact fun d ⟨inUse, carries⟩ => by simp [inUse, carries]
  case width => simp [inUse, inFlit, inL0, known, least, most]
  case saves => simp [state, inUse, settled, notL0]
  case wakes => simp [state, inUse, settled]
  case up => exact fun d ⟨inUse, inL0⟩ => by simp [inUse, inL0]

/-! ## Functions (R53, R55, R63, R65, R89, R473) -/

/-- Settles O40: under a clause's condition its row takes one branch; a reset that completes before the function has drained
and a disable of a function that is not enabled take the one that does nothing. -/
theorem functionsMove : Obligations.FunctionsMove := by
  unfold Obligations.FunctionsMove
  intro fix vec us port css ams mps
  dsimp only
  refine ⟨does_of_act (exec_functionPowerStateWrite fix false) ?d3hot, does_of_act (exec_functionPowerStateWrite fix true) ?d0,
    fun inTable => does_of_act (exec_msixVectorUnmask fix vec) fun d known => ?unmask,
    does_of_act (exec_vfEnableWrite port true) ?vfsAppear, does_of_act (exec_vfEnableWrite port false) ?vfsGo,
    does_of_act (exec_functionLevelReset fix) ?vfReset, does_of_act (exec_functionLevelReset fix) ?pfReset,
    does_of_act (exec_controllerEnable fix css ams mps) ?enable, does_of_act (exec_controllerEnable fix css ams mps) ?badConfig,
    does_of_act (exec_controllerDisable fix) ?disable, does_of_act (exec_controllerDisable fix) ?staysDisabled,
    does_of_act (exec_functionResetComplete fix us) ?completes, does_of_act (exec_functionResetComplete fix us) ?goesAbsent,
    does_of_act (exec_functionResetComplete fix us) ?notDrained⟩
  case d3hot => exact fun d answers => by simp [answers, Dev.setPower]
  case d0 => exact fun d answers => by simp [answers, Dev.setPower]
  case unmask => simp [known, inTable]
  case vfsAppear => exact fun d ⟨inUse, answers, off⟩ => by simp [inUse, answers, off, Dev.setVfEnable]
  case vfsGo => exact fun d ⟨inUse, answers, on⟩ => by simp [inUse, answers, on, Dev.setVfEnable]
  case vfReset => exact fun d ⟨known, vf⟩ => by simp [known, vf]
  case pfReset => exact fun d ⟨known, pf⟩ => by simp [known, pf]
  case enable => exact fun d ⟨known, settled, off, on, good⟩ => by simp [known, settled, off, on, good]
  case badConfig => exact fun d ⟨known, settled, off, on, bad⟩ => by simp [known, settled, off, on, bad]
  case disable => exact fun d ⟨known, on⟩ => by simp [known, on]
  case staysDisabled => exact fun d off => by simp [off]
  case completes => exact fun d ⟨resetting, drained, stays⟩ => by simp [resetting, drained, stays]
  case goesAbsent => exact fun d ⟨resetting, drained, goes⟩ => by simp [resetting, drained, goes]
  case notDrained => exact fun d ⟨resetting, waits⟩ => by simp [resetting, waits]

end Sys2Proof.Machine

/-! Power and resets (R54, R63, R68, R411, R412, R421, R424, R426, R427, R463): O43. Most rows test what keeps
them from acting and then act, so that a clause holds by taking the branch of its condition. -/

namespace Sys2Proof.Machine

/-! ## The meanings that the rows of power and resets run -/

theorem exec_coldStart (failed : List Nat) (s : State) : exec (.coldStart failed) s = execColdStart failed s := rfl
theorem exec_emberRailLoss (rail : Nat) (s : State) : exec (.emberRailLoss rail) s = execEmberRailLoss rail s := rfl
theorem exec_fastRailLoss (rail : Nat) (s : State) : exec (.fastRailLoss rail) s = execFastRailLoss rail s := rfl
theorem exec_supplyRestoredReset (failed : List Nat) (s : State) :
    exec (.supplyRestoredReset failed) s = execSupplyRestoredReset failed s := rfl
theorem exec_supplyGlitch (rail : Nat) (s : State) : exec (.supplyGlitch rail) s = execSupplyGlitch rail s := rfl
theorem exec_xtalSwitch (s : State) : exec .xtalSwitch s = execXtalSwitch s := rfl
theorem exec_xtalFail (s : State) : exec .xtalFail s = execXtalFail s := rfl
theorem exec_thermalTrip (tj : Int) (sensor : Nat) (s : State) :
    exec (.thermalTrip tj sensor) s = execThermalTrip tj sensor s := rfl
theorem exec_tripRecoveryReset (tj : Int) (failed : List Nat) (s : State) :
    exec (.tripRecoveryReset tj failed) s = execTripRecoveryReset tj failed s := rfl
theorem exec_deviceResetAbrupt (causes failed : List Nat) (s : State) :
    exec (.deviceResetAbrupt causes failed) s = execDeviceResetAbrupt causes failed s := rfl
theorem exec_nvmSubsystemReset (failed : List Nat) (s : State) :
    exec (.nvmSubsystemReset failed) s = execNvmSubsystemReset failed s := rfl
theorem exec_powerCycle (s : State) : exec .powerCycle s = execPowerCycle s := rfl
theorem exec_perstAssert (port : Nat) (failed : List Nat) (s : State) :
    exec (.perstAssert port failed) s = execPerstAssert port failed s := rfl
theorem exec_perstDeassert (port : Nat) (s : State) : exec (.perstDeassert port) s = execPerstDeassert port s := rfl
theorem exec_hotReset (port : Nat) (failed : List Nat) (s : State) :
    exec (.hotReset port failed) s = execHotReset port failed s := rfl
theorem exec_linkDown (port : Nat) (failed : List Nat) (s : State) :
    exec (.linkDown port failed) s = execLinkDown port failed s := rfl

/-! ## Power and resets -/

/-- Settles O43: a clause's condition decides each test of its row. A rail lost before a cold start is noted and does nothing
else; a released port takes its WAKEn_N with it where it holds one. -/
theorem powerAndResets : Obligations.PowerAndResets := by
  unfold Obligations.PowerAndResets
  intro rail port tj sensor causes failed off clear bad released freed
  refine ⟨does_of_act (exec_coldStart failed) ?coldStart,
    fun ember => does_of_act (exec_emberRailLoss rail) fun d _ => ?emberRail,
    fun fast inTable => ⟨does_of_act (exec_fastRailLoss rail) fun d isOff => ?fastRailOff,
      does_of_act (exec_fastRailLoss rail) fun d notOff => ?fastRail⟩,
    does_of_act (exec_supplyRestoredReset failed) ?restored,
    fun inTable => does_of_act (exec_supplyGlitch rail) fun d on => ?glitch,
    does_of_act exec_xtalSwitch fun _ _ => rfl, does_of_act exec_xtalFail ?xtalFail,
    does_of_act (exec_thermalTrip tj sensor) ?trip, does_of_act (exec_tripRecoveryReset tj failed) ?recovery,
    fun nonempty known => does_of_act (exec_deviceResetAbrupt causes failed) fun d may => ?abrupt,
    does_of_act (exec_nvmSubsystemReset failed) fun d may => if_pos may, does_of_act exec_powerCycle fun _ _ => rfl,
    fun isPort => does_of_act (exec_perstAssert port failed) fun d up => ?perst,
    fun isPort => does_of_act (exec_perstDeassert port) fun d ⟨asserted, wakes, inUse⟩ => ?releaseFrees,
    fun isPort => does_of_act (exec_perstDeassert port) fun d ⟨asserted, wakes, inUse⟩ => ?release,
    does_of_act (exec_hotReset port failed) ?hotReset, does_of_act (exec_linkDown port failed) fun d carries => if_neg carries⟩
  case coldStart =>
    intro d ⟨seq, step⟩
    simp [seq, step, clear]
  case emberRail => exact if_neg (Nat.not_le.mpr ember)
  case fastRailOff =>
    rw [if_neg (by omega)]
    exact if_pos isOff
  case fastRail =>
    rw [if_neg (by omega)]
    exact if_neg notOff
  case restored =>
    intro d ⟨notOff, lost, notTripped⟩
    rw [if_neg (not_or.mpr ⟨lost, notOff⟩), notTripped]
    rfl
  case glitch => exact if_neg (by simp [inTable, on])
  case xtalFail => exact fun d ok => if_neg (by simp [ok])
  case trip =>
    intro d ⟨hot, notTripped, notOff⟩
    exact if_neg (not_or.mpr ⟨Int.not_lt.mpr hot, not_or.mpr ⟨by simp [notTripped], notOff⟩⟩)
  case recovery =>
    intro d ⟨tripped, cool, good⟩
    exact if_neg (not_or.mpr ⟨by simp [tripped], not_or.mpr ⟨Int.not_lt.mpr cool, fun lost => lost good⟩⟩)
  case abrupt => exact if_pos (by simpa [may, nonempty] using known)
  case perst => exact if_neg (by simp [isPort, up])
  case releaseFrees =>
    rw [if_neg (by simp [isPort, asserted])]
    dsimp only
    rw [if_pos wakes]
    exact if_pos inUse
  case release =>
    rw [if_neg (by simp [isPort, asserted])]
    dsimp only
    rw [if_neg wakes]
    exact if_pos inUse
  case hotReset =>
    intro d ⟨inUse, may, mode0⟩
    rw [if_neg (by simp [inUse, may])]
    exact if_neg fun ⟨mode1, _⟩ => Nat.zero_ne_one (mode0.symm.trans mode1)

end Sys2Proof.Machine

/-! Queues (R78, R79, R86, R472): O20, and the frames of the rows of fetched commands. A row of a command that has not run runs
its meaning once the command counts as run, so that its clause holds where that meaning and the clause's effect agree. -/

namespace Sys2Proof.Machine

section
variable {i : Instr} {ref : CmdRef} {h : Dev → Prop} {f e : Dev → Dev}

theorem runsCmd_of_admin (runs : ∀ s, exec i s = act s (fun d => d.admin ref f)) (agrees : ∀ d, h d → f d = e d) :
    RunsCmd Dev.adminMay i ref h e :=
  does_of_act runs fun _ ⟨waits, _, met⟩ => (Dev.admin_at waits f).trans (agrees _ met)

theorem runsCmd_of_io (runs : ∀ s, exec i s = act s (fun d => d.io ref f)) (agrees : ∀ d, h d → f d = e d) :
    RunsCmd Dev.ioMay i ref h e :=
  does_of_act runs fun _ ⟨waits, may, met⟩ => (Dev.io_at waits may f).trans (agrees _ met)

theorem runsCmd_of_pfAdmin (runs : ∀ s, exec i s = act s (fun d => d.pfAdmin ref f)) (agrees : ∀ d, h d → f d = e d) :
    RunsCmd Dev.pfMay i ref h e :=
  does_of_act runs fun _ ⟨waits, may, met⟩ => (Dev.pfAdmin_at waits may f).trans (agrees _ met)

theorem runsCmd_of_nsAdmin (runs : ∀ s, exec i s = act s (fun d => d.nsAdmin ref f)) (agrees : ∀ d, h d → f d = e d) :
    RunsCmd Dev.nsMay i ref h e :=
  does_of_act runs fun _ ⟨waits, may, met⟩ => (Dev.nsAdmin_at waits may f).trans (agrees _ met)
end

/-! ## The meanings that the rows of queues run -/

theorem exec_sqTailDoorbell (fix qid value : Nat) (s : State) :
    exec (.sqTailDoorbell fix qid value) s = execSqTailDoorbell fix qid value s := rfl
theorem exec_cqHeadDoorbell (fix qid value : Nat) (s : State) :
    exec (.cqHeadDoorbell fix qid value) s = execCqHeadDoorbell fix qid value s := rfl
theorem exec_submissionFetch (cid : Nat) (sgl fused : Bool) (s : State) :
    exec (.submissionFetch cid sgl fused) s = execSubmissionFetch cid sgl fused s := rfl
theorem exec_moderationTimerExpiry (fix vec : Nat) (s : State) :
    exec (.moderationTimerExpiry fix vec) s = execModerationTimerExpiry fix vec s := rfl
theorem exec_shutdownComplete (fix : Nat) (s : State) : exec (.shutdownComplete fix) s = execShutdownComplete fix s := rfl

/-! ## Doorbells (R78) -/

section
variable {d : Dev} {fix qid v : Nat} (taken : d.doorbellTaken fix = true)
include taken

theorem Dev.sqTail_inside {q : Sq} (queue : (d.fn fix).sq qid = some q) (inside : v < q.size) :
    d.sqTail fix qid v =
      d.modFn fix (fun f => { f with sqs := fset f.sqs qid (some { q with tail := v, ready := true }) }) := by
  simp [Dev.sqTail, taken, queue, Nat.not_le.mpr inside]

theorem Dev.sqTail_outside {q : Sq} (queue : (d.fn fix).sq qid = some q) (outside : q.size ≤ v) :
    d.sqTail fix qid v = d.badDoorbell fix 1 := by
  simp [Dev.sqTail, taken, queue, outside]

theorem Dev.cqHead_inSpan {c : Cq} (queue : (d.fn fix).cq qid = some c) (inside : v < c.size) (posted : c.inSpan v = true) :
    d.cqHead fix qid v =
      ((d.modFn fix (fun f => { f with cqs := fset f.cqs qid (some { c with head := v }) })).releaseHeld fix qid
        c.held.length).endDeletes fix := by
  simp [Dev.cqHead, taken, queue, Nat.not_le.mpr inside, posted]
end

/-- Settles O20: a clause's condition decides each test of its row. That Asynchronous Event Requests which still wait do not
hold up the end of a shutdown (log 73), and the status of a fused entry or an admin SGL (log 38), are the model's choices. -/
theorem queuesMove : Obligations.QueuesMove := by
  unfold Obligations.QueuesMove
  intro fix qid v cid
  refine ⟨fun q inside => does_of_act (exec_sqTailDoorbell fix qid v) fun d ⟨taken, queue⟩ =>
      Dev.sqTail_inside taken queue inside,
    does_of_act (exec_sqTailDoorbell fix qid v) fun d ⟨taken, q, queue, outside⟩ => Dev.sqTail_outside taken queue outside,
    fun c inside posted => does_of_act (exec_cqHeadDoorbell fix qid v) fun d ⟨taken, queue⟩ =>
      Dev.cqHead_inSpan taken queue inside posted,
    fun drr q sgl fused => does_of_act (exec_submissionFetch cid sgl fused) fun d ⟨turn, pick, unused⟩ => ?fetch,
    does_of_act (exec_moderationTimerExpiry fix v) fun d timer => if_pos timer,
    does_of_act (exec_shutdownComplete fix) fun d ⟨begun, onlyEvents, noneHeld⟩ => ?shutdown⟩
  case fetch =>
    simp only [turn, pick, unused]
    rfl
  case shutdown =>
    have noneLeft : d.nvm.cmds.any (fun c => decide (c.ref.fix = fix ∧ c.job ≠ .aer)) = false := by
      simpa using onlyEvents
    exact if_pos ⟨begun, noneLeft, noneHeld⟩

end Sys2Proof.Machine

/-! The host's I/O commands (R74, R128, R184, R187): O21. A row tests its transfer, which answers the namespace and its key or the
status that the command completes with. -/

namespace Sys2Proof.Machine

theorem exec_read (ref : CmdRef) (nsid slba nlb : Nat) (tag : Option Nat) (dp mp : DataPtr) (s : State) :
    exec (.read ref nsid slba nlb tag dp mp) s = execRead ref nsid slba nlb tag dp mp s := rfl
theorem exec_write (ref : CmdRef) (nsid slba nlb : Nat) (tag : Option Nat) (dp mp : DataPtr) (data metadata : Option Bytes)
    (s : State) : exec (.write ref nsid slba nlb tag dp mp data metadata) s =
      execWrite ref nsid slba nlb tag dp mp data metadata s := rfl
theorem exec_compare (ref : CmdRef) (nsid slba nlb : Nat) (tag : Option Nat) (dp mp : DataPtr) (data metadata : Option Bytes)
    (s : State) : exec (.compare ref nsid slba nlb tag dp mp data metadata) s =
      execCompare ref nsid slba nlb tag dp mp data metadata s := rfl
theorem exec_verify (ref : CmdRef) (nsid slba nlb : Nat) (tag : Option Nat) (s : State) :
    exec (.verify ref nsid slba nlb tag) s = execVerify ref nsid slba nlb tag s := rfl
theorem exec_flush (ref : CmdRef) (nsid : Nat) (s : State) : exec (.flush ref nsid) s = execFlush ref nsid s := rfl
theorem exec_writeZeroes (ref : CmdRef) (nsid slba nlb : Nat) (deallocate : Bool) (s : State) :
    exec (.writeZeroes ref nsid slba nlb deallocate) s = execWriteZeroes ref nsid slba nlb deallocate s := rfl
theorem exec_datasetManagement (ref : CmdRef) (nsid : Nat) (deallocate : Bool) (dp : DataPtr)
    (ranges : Option (List (Nat × Nat))) (s : State) :
    exec (.datasetManagement ref nsid deallocate dp ranges) s = execDatasetManagement ref nsid deallocate dp ranges s := rfl

/-- Settles O21: the transfer's answer, or the namespace's, decides a row's tests. Write Zeroes clears its range whether the
Deallocate bit is set or not. -/
theorem ioCommandsBegin : Obligations.IoCommandsBegin := by
  unfold Obligations.IoCommandsBegin
  intro ref nsid slba nlb key tag dp mp b m n
  dsimp only
  refine ⟨fun st => ⟨runsCmd_of_io (exec_read ref nsid slba nlb tag dp mp) fun d bad => ?badRead,
      runsCmd_of_io (exec_write ref nsid slba nlb tag dp mp (some b) (some m)) fun d bad => ?badWrite,
      runsCmd_of_io (exec_compare ref nsid slba nlb tag dp mp (some b) (some m)) fun d bad => ?badCompare⟩,
    runsCmd_of_io (exec_read ref nsid slba nlb tag dp mp) fun d ok => ?read,
    runsCmd_of_io (exec_compare ref nsid slba nlb tag dp mp (some b) (some m)) fun d ok => ?compare,
    runsCmd_of_io (exec_write ref nsid slba nlb tag dp mp (some b) (some m)) fun d ⟨ok, staged⟩ => ?write,
    runsCmd_of_io (exec_write ref nsid slba nlb tag dp mp none (some m)) fun d ok => ?notSent,
    runsCmd_of_io (exec_verify ref nsid slba nlb tag) fun d ⟨inRange, keyed, unlocked, nonempty⟩ => ?verify,
    runsCmd_of_io (exec_flush ref nsid) fun d named => ?flush,
    fun dealloc => runsCmd_of_io (exec_writeZeroes ref nsid slba nlb dealloc) fun d ⟨inRange, nonempty⟩ => ?writeZeroes,
    fun dealloc l => runsCmd_of_io (exec_datasetManagement ref nsid dealloc dp (some l))
      fun d ⟨attached, fetched, least, most, may, inside⟩ => ?deallocate⟩
  case badRead => simp only [bad]
  case badWrite => simp only [bad]
  case badCompare => simp only [bad]
  case read => simp only [ok]
  case compare => simp only [ok]
  case write => simp only [ok, staged] <;> rfl -- the model's match and the statement's
  case notSent => simp only [ok]
  case verify => simp [inRange, keyed, unlocked, nonempty]
  case flush =>
    rcases named with all | attached
    · exact if_pos all
    · simp [attached]
  case writeZeroes => simp [inRange, nonempty]
  case deallocate =>
    have ranged : ¬ (l.isEmpty = true ∨ 256 < l.length) := by
      simp [List.ne_nil_of_length_pos least, Nat.not_lt.mpr most]
    have noneOutside : l.any (fun r => decide (n.nsze < r.1 + r.2)) = false := by simpa using inside
    simp only [attached, fetched, if_neg ranged, may, noneOutside]
    rfl

end Sys2Proof.Machine

/-! Admin commands (R73, R75, R76, R79, R82, R353, R443, R472): O27. A row of a fetched command tests its fields and the state of
its controller, which a clause's condition decides. -/

namespace Sys2Proof.Machine

/-! ## The meanings that the rows of admin commands run -/

theorem exec_unsupportedCommand (ref : CmdRef) (s : State) :
    exec (.unsupportedCommand ref) s = execUnsupportedCommand ref s := rfl
theorem exec_createIoSq (ref : CmdRef) (contiguous : Bool) (qid entries base cqid : Nat) (s : State) :
    exec (.createIoSq ref contiguous qid entries base cqid) s = execCreateIoSq ref contiguous qid entries base cqid s := rfl
theorem exec_createIoCq (ref : CmdRef) (contiguous ien : Bool) (qid entries base vector : Nat) (s : State) :
    exec (.createIoCq ref contiguous ien qid entries base vector) s =
      execCreateIoCq ref contiguous ien qid entries base vector s := rfl
theorem exec_deleteIoSq (ref : CmdRef) (qid : Nat) (s : State) :
    exec (.deleteIoSq ref qid) s = execDeleteIoSq ref qid s := rfl
theorem exec_deleteIoCq (ref : CmdRef) (qid : Nat) (s : State) :
    exec (.deleteIoCq ref qid) s = execDeleteIoCq ref qid s := rfl
theorem exec_getLogPage (ref : CmdRef) (lid offset len : Nat) (rae capture : Bool) (s : State) :
    exec (.getLogPage ref lid offset len rae capture) s = execGetLogPage ref lid offset len rae capture s := rfl
theorem exec_identify (ref : CmdRef) (cns nsid cntid : Nat) (s : State) :
    exec (.identify ref cns nsid cntid) s = execIdentify ref cns nsid cntid s := rfl
theorem exec_abort (ref : CmdRef) (sqid cid : Nat) (s : State) :
    exec (.abort ref sqid cid) s = execAbort ref sqid cid s := rfl
theorem exec_setFeatures (ref : CmdRef) (fid : Nat) (save : Bool) (nsid value : Nat) (data : Option Bytes) (s : State) :
    exec (.setFeatures ref fid save nsid value data) s = execSetFeatures ref fid save nsid value data s := rfl
theorem exec_getFeatures (ref : CmdRef) (fid sel nsid value : Nat) (s : State) :
    exec (.getFeatures ref fid sel nsid value) s = execGetFeatures ref fid sel nsid value s := rfl
theorem exec_asynchronousEventRequest (ref : CmdRef) (s : State) :
    exec (.asynchronousEventRequest ref) s = execAsynchronousEventRequest ref s := rfl
theorem exec_deviceSelfTestShort (ref : CmdRef) (s : State) :
    exec (.deviceSelfTestShort ref) s = execDeviceSelfTestShort ref s := rfl
theorem exec_deviceSelfTestExtended (ref : CmdRef) (s : State) :
    exec (.deviceSelfTestExtended ref) s = execDeviceSelfTestExtended ref s := rfl
theorem exec_deviceSelfTestComplete (failedCore : Option Nat) (s : State) :
    exec (.deviceSelfTestComplete failedCore) s = execDeviceSelfTestComplete failedCore s := rfl
theorem exec_controllerShutdownNormal (fix : Nat) (s : State) :
    exec (.controllerShutdownNormal fix) s = execControllerShutdownNormal fix s := rfl
theorem exec_controllerShutdownAbrupt (fix : Nat) (s : State) :
    exec (.controllerShutdownAbrupt fix) s = execControllerShutdownAbrupt fix s := rfl

/-! ## Tests of the rows -/

theorem queueCheck_eq_none {qid entries : Nat} (first : 1 ≤ qid) (last : qid ≤ 256) (least : 2 ≤ entries)
    (most : entries ≤ 65536) : queueCheck true false qid entries = none := by
  have known : ¬ (qid < 1 ∨ 256 < qid) := by omega
  have sized : ¬ (65536 < entries ∨ entries < 2) := by omega
  rw [queueCheck, if_neg known, if_neg sized]
  rfl

theorem Dev.startSelfTest_idle {d : Dev} (ref : CmdRef) (kind : Nat) (idle : d.nvm.selfTest.running = 0) :
    d.startSelfTest ref kind = (({ d with nvm := { d.nvm with
      selfTest := { d.nvm.selfTest with running := kind, fix := ref.fix } } }).firmwareFlowMode 1).complete ref .success := by
  simp [Dev.startSelfTest, idle]

/-- A deletion ends where its command is still fetched. -/
theorem Dev.endDelete_fetched (d : Dev) (ref : CmdRef) :
    (match d.cmd ref with
      | some c => d.endDelete c
      | none => d) = ((d.cmd ref).map d.endDelete).getD d := by
  cases d.cmd ref <;> rfl

/-- Settles O27: a clause's condition decides each test of its row. What an abrupt shutdown does to Asynchronous Event Requests,
when a queue's deletion ends and the result code of a self-test (log 73) are the model's choices. -/
theorem adminCommandsComplete : Obligations.AdminCommandsComplete := by
  unfold Obligations.AdminCommandsComplete
  intro ref qid entries base cqid vector fid value nsid
  dsimp only
  refine ⟨runsCmd_of_admin (exec_unsupportedCommand ref) fun _ _ => rfl,
    fun ⟨first, last, least, most⟩ cqFirst cqLast => runsCmd_of_admin (exec_createIoSq ref true qid entries base cqid)
      fun d ⟨unused, created⟩ => ?createSq,
    fun ⟨first, last, least, most⟩ inTable ien => runsCmd_of_admin (exec_createIoCq ref true ien qid entries base vector)
      fun d unused => ?createCq,
    fun notAdmin => runsCmd_of_admin (exec_deleteIoSq ref qid) fun d queue => ?deleteSq,
    fun notAdmin q => runsCmd_of_admin (exec_deleteIoCq ref qid) fun d ⟨queue, noneUses⟩ => ?deleteCq,
    fun lid offset len rae page notTelemetry => runsCmd_of_admin (exec_getLogPage ref lid offset len rae false)
      fun d ⟨known, inside⟩ => ?logPage,
    fun cns cntid b => runsCmd_of_admin (exec_identify ref cns nsid cntid) fun d known => ?identify,
    runsCmd_of_admin (exec_abort ref qid value) fun d absent => ?abortNone,
    fun c aer => runsCmd_of_admin (exec_abort ref qid value) fun d found => ?abortAer,
    fun data => ⟨runsCmd_of_admin (exec_setFeatures ref 0x01 false nsid value data) fun _ _ => rfl,
      runsCmd_of_admin (exec_setFeatures ref 0x0B false nsid value data) fun _ _ => rfl,
      runsCmd_of_admin (exec_setFeatures ref 0x08 false nsid value data) fun _ _ => rfl⟩,
    fun b => runsCmd_of_admin (exec_setFeatures ref 0x0E false nsid value (some b)) fun _ _ => rfl,
    fun known tempSel => runsCmd_of_admin (exec_getFeatures ref fid 0 nsid value) fun d _ => ?getFeatures,
    fun ty info page t => runsCmd_of_admin (exec_asynchronousEventRequest ref) fun d oldest => ?event,
    runsCmd_of_admin (exec_asynchronousEventRequest ref) fun d ⟨noEvent, room⟩ => ?eventRequest,
    runsCmd_of_admin (exec_deviceSelfTestShort ref) fun _ idle => Dev.startSelfTest_idle ref 1 idle,
    runsCmd_of_admin (exec_deviceSelfTestExtended ref) fun _ idle => Dev.startSelfTest_idle ref 2 idle,
    does_of_act (exec_deviceSelfTestComplete none) fun d runs => if_neg runs,
    does_of_act (exec_controllerShutdownNormal ref.fix) fun d may => if_pos may,
    does_of_act (exec_controllerShutdownAbrupt ref.fix) fun d may => if_pos may⟩
  case createSq =>
    have cqKnown : ¬ (cqid < 1 ∨ 256 < cqid) := by omega
    have cqThere : ¬ ((d.fn ref.fix).cq cqid).isNone = true := by simpa [Option.isSome_iff_ne_none] using created
    simp only [unused, Option.isSome_none, queueCheck_eq_none first last least most, if_neg cqKnown, if_neg cqThere]
  case createCq =>
    simp [unused, queueCheck_eq_none first last least most, Nat.not_lt.mpr inTable]
  case deleteSq =>
    have there : ¬ (qid = 0 ∨ ((d.fn ref.fix).sq qid).isNone = true) := by
      simpa [notAdmin, Option.isSome_iff_ne_none] using queue
    rw [if_neg there]
    exact Dev.endDelete_fetched _ ref
  case deleteCq =>
    simp only [queue, if_neg notAdmin]
    refine (if_neg fun anyNames => ?_).trans (Dev.endDelete_fetched _ ref)
    obtain ⟨p, mem, names⟩ := List.any_eq_true.mp anyNames
    split at names
    next x some' =>
      obtain ⟨notAdminSq, ofQueue⟩ := of_decide_eq_true names
      exact (noneUses p mem x some').elim notAdminSq (· ofQueue)
    next => cases names
  case logPage => simp [known, Nat.not_lt.mpr inside]
  case identify => simp [known]
  case abortNone => simp [absent, Dev.abortNone]
  case abortAer => simp [found, aer]
  case getFeatures =>
    have listed : ∀ x ∈ [0x01, 0x02, 0x04, 0x05, 0x07, 0x08, 0x0B],
        ¬ (x ∉ [0x01, 0x02, 0x04, 0x05, 0x07, 0x08, 0x09, 0x0B, 0x0E, 0x81, 0x82] ∨ 3 < 0) := by decide
    have selects : ¬ ((fid = 0x09 ∧ 256 < value % 65536) ∨ (fid = 0x04 ∧ tempSelBad value = true)) := by
      rintro (⟨rfl, -⟩ | ⟨rfl, bad⟩)
      · exact absurd known (by decide)
      · exact Bool.false_ne_true ((tempSel rfl).symm.trans bad)
    rw [if_neg (listed fid known), if_neg selects, if_neg (by decide)]
    split
    next => exact absurd known (by decide)
    next => exact absurd known (by decide)
    next => rfl
  case event => simp [oldest]
  case eventRequest => simp [noEvent, Nat.not_le.mpr room]

end Sys2Proof.Machine

/-! Namespaces (R73, R92, R476), Format NVM (R188) and Sanitize (R91): O28. -/

namespace Sys2Proof.Machine

/-! ## The meanings that the rows of namespaces run -/

theorem exec_namespaceCreate (ref : CmdRef) (nsze ncap lbaf : Nat) (extended kpio shared sent : Bool) (s : State) :
    exec (.namespaceCreate ref nsze ncap lbaf extended kpio shared sent) s =
      execNamespaceCreate ref nsze ncap lbaf extended kpio shared sent s := rfl
theorem exec_namespaceDelete (ref : CmdRef) (nsid : Nat) (s : State) :
    exec (.namespaceDelete ref nsid) s = execNamespaceDelete ref nsid s := rfl
theorem exec_namespaceAttach (ref : CmdRef) (nsid : Nat) (ctrls : Option (List Nat)) (s : State) :
    exec (.namespaceAttach ref nsid ctrls) s = execNamespaceAttach ref nsid ctrls s := rfl
theorem exec_namespaceDetach (ref : CmdRef) (nsid : Nat) (ctrls : Option (List Nat)) (s : State) :
    exec (.namespaceDetach ref nsid ctrls) s = execNamespaceDetach ref nsid ctrls s := rfl
theorem exec_formatNvm (ref : CmdRef) (nsid lbaf ses : Nat) (extended : Bool) (pi : Nat) (s : State) :
    exec (.formatNvm ref nsid lbaf ses extended pi) s = execFormatNvm ref nsid lbaf ses extended pi s := rfl
theorem exec_formatClearComplete (nsid : Nat) (s : State) :
    exec (.formatClearComplete nsid) s = execFormatClearComplete nsid s := rfl
theorem exec_sanitizeCryptoErase (ref : CmdRef) (s : State) :
    exec (.sanitizeCryptoErase ref) s = execSanitizeCryptoErase ref s := rfl
theorem exec_sanitizeBlockErase (ref : CmdRef) (s : State) :
    exec (.sanitizeBlockErase ref) s = execSanitizeBlockErase ref s := rfl
theorem exec_sanitizeOverwrite (ref : CmdRef) (s : State) :
    exec (.sanitizeOverwrite ref) s = execSanitizeOverwrite ref s := rfl
theorem exec_sanitizeComplete (s : State) : exec .sanitizeComplete s = execSanitizeComplete s := rfl

theorem Dev.ns_filter_ready {d : Dev} {nsid : Nat} {n : Ns} (there : d.ns nsid = some n) (ready : n.ready = true) :
    (d.ns nsid).filter (·.ready) = some n := by
  simp [there, ready]

/-! ## Sanitize (R91) -/

/-- With no started command left and no Waybill, the erase begins at once. -/
theorem Dev.trySanitize_idle {d : Dev} (ref : CmdRef) (noneStarted : d.startedLeft = false) (noneRuns : d.hrt.wbs = []) :
    d.trySanitize ref = d.beginErase.complete ref .success := by
  simp [Dev.trySanitize, noneStarted, noneRuns, Dev.forEach]

/-- A Sanitize that waits is run again: its erase begins once nothing is left to wait for. -/
theorem Dev.sanitizeCmd_goesOn {d : Dev} {ref : CmdRef} {kind : Nat} {c : Cmd} (found : d.cmd ref = some c)
    (waits : c.job = .sanitize) (runs : d.nvm.sanitize = kind) (noneStarted : d.startedLeft = false)
    (noneRuns : d.hrt.wbs = []) : d.sanitizeCmd ref kind = d.beginErase.complete ref .success := by
  simp [Dev.sanitizeCmd, found, waits, runs, Dev.trySanitize_idle ref noneStarted noneRuns]

/-- The device as a Sanitize of a kind leaves it once it is recorded. -/
def Dev.sanitizeBegun (d : Dev) (ref : CmdRef) (kind : Nat) : Dev :=
  let e := d.abortSelfTest 4
  let e : Dev := { e with nvm := { e.nvm with
    sanitize := kind, sanStatus := 2, sanPhase := 1, sanAction := if kind = 1 then 4 else 2 } }
  (e.record 8 0 0 0 0).modCmd ref (fun c => { c with job := .sanitize, started := true })

theorem Dev.sanitizeCmd_begins {d : Dev} {ref : CmdRef} (kind : Nat) (waits : d.waits ref) (may : d.nsMay ref)
    (unlocked : (d.ran ref).key.locked = false) :
    d.sanitizeCmd ref kind = ((d.ran ref).sanitizeBegun ref kind).trySanitize ref := by
  obtain ⟨c, live, -, job⟩ := id waits
  have found : d.cmd ref = some c := (Option.filter_eq_some_iff.mp live).1
  simp only [Dev.sanitizeCmd, found, job, reduceCtorEq, if_false, Dev.nsAdmin_at waits may, unlocked]
  rfl

/-- Settles O28: a clause's condition decides each test of its row. That Format and Sanitize abort a self-test and the phases of
a Sanitize (log 73, 74) are the model's choices. -/
theorem namespaceCommands : Obligations.NamespaceCommands := by
  unfold Obligations.NamespaceCommands
  intro ref nsid n
  dsimp only
  refine ⟨fun nsze ncap lbaf first ext kpio sh format nonempty fits =>
      runsCmd_of_nsAdmin (exec_namespaceCreate ref nsze ncap lbaf ext kpio sh true)
        fun d ⟨superblock, mayIssue, free, run, unlocked⟩ => ?create,
    runsCmd_of_nsAdmin (exec_namespaceDelete ref nsid) fun d ⟨named, noFormat⟩ => ?delete,
    fun ready => ⟨fun l => runsCmd_of_nsAdmin (exec_namespaceAttach ref nsid (some l))
        fun d ⟨there, good, noneAttached, mayShare, superblock⟩ => ?attach,
      fun l => runsCmd_of_nsAdmin (exec_namespaceDetach ref nsid (some l)) fun d ⟨there, good, allAttached⟩ => ?detach⟩,
    fun lbaf ext known single => runsCmd_of_nsAdmin (exec_formatNvm ref nsid lbaf 0 ext 0)
      fun d ⟨named, noFormat, there, may⟩ => ?format,
    fun r ty action ofNs => does_of_act (exec_formatClearComplete nsid) fun d oldest => ?formatClear,
    fun c waits => does_of_act (exec_sanitizeCryptoErase ref) fun d ⟨_, found, runs, noneStarted, noneRuns⟩ =>
      Dev.sanitizeCmd_goesOn found waits runs noneStarted noneRuns,
    does_of_act (exec_sanitizeCryptoErase ref) fun d ⟨waits, may, unlocked⟩ => Dev.sanitizeCmd_begins 1 waits may unlocked,
    fun c waits => does_of_act (exec_sanitizeBlockErase ref) fun d ⟨_, found, runs, noneStarted, noneRuns⟩ =>
      Dev.sanitizeCmd_goesOn found waits runs noneStarted noneRuns,
    does_of_act (exec_sanitizeBlockErase ref) fun d ⟨waits, may, unlocked⟩ => Dev.sanitizeCmd_begins 2 waits may unlocked,
    runsCmd_of_pfAdmin (exec_sanitizeOverwrite ref) fun _ _ => rfl,
    does_of_act exec_sanitizeComplete fun d done => if_pos done⟩
  case create =>
    have formatKnown : ¬ 5 < lbaf := Nat.not_lt.mpr format
    have sized : ¬ (nsze = 0 ∨ nsze < ncap) := not_or.mpr ⟨nonempty, Nat.not_lt.mpr fits⟩
    simp only [if_neg formatKnown, if_neg sized, superblock, mayIssue, free, run, unlocked]
    rfl
  case delete =>
    simp [named, noFormat]
  case attach =>
    have notYet : l.any (fun f => decide (f ∈ n.attached)) = false := by simpa using noneAttached
    have may : (!n.shared && (!n.attached.isEmpty || decide (1 < l.length))) = false := by
      rcases mayShare with shared | ⟨alone, single⟩
      · simp [shared]
      · simp [alone, single]
    simp only [Dev.ns_filter_ready there ready, good, notYet, may, superblock]
    rfl
  case detach =>
    have noneMissing : l.any (fun f => decide (f ∉ n.attached)) = false := by simpa using allAttached
    simp only [Dev.ns_filter_ready there ready, good, noneMissing]
    rfl
  case format =>
    have formatKnown : ¬ 5 < lbaf := Nat.not_lt.mpr known
    simp [single, named, formatKnown, noFormat, there, may, Dev.forEach] <;> rfl -- the model's match and the statement's
  case formatClear =>
    simp [oldest, ty, action, ofNs]

end Sys2Proof.Machine

/-! Reservations (R74): O29. The rows share a frame: the namespace is attached, and the keys are read, which the statement's
conditions decide once for all of them. -/

namespace Sys2Proof.Machine

/-! ## The frames of the rows of reservations -/

theorem takeKeys_ok {kd : KeyData} {len : Nat} {p : Nat × Nat} (sent : kd.keys = some p)
    (walked : sglCheck .toDevice kd.ptr len none = none) : takeKeys kd len = .ok p := by
  simp [takeKeys, sent, walked]

theorem takeKeys_refused {kd : KeyData} {len : Nat} {st : Status} (refused : sglCheck .toDevice kd.ptr len none = some st) :
    takeKeys kd len = .error st := by
  simp [takeKeys, refused]

/-- Row `i` of a fetched I/O command `ref` that has not run, on a namespace that is available and attached to its controller and
has reservation `r`: where `h` holds once the command counts as run, the device becomes `e` of it. -/
def RunsReservation (i : Instr) (ref : CmdRef) (nsid : Nat) (n : Ns) (r : Resv) (h : Dev → Prop) (e : Dev → Dev) : Prop :=
  RunsCmd Dev.ioMay i ref (fun d => d.ns nsid = some n ∧ n.ready = true ∧ ref.fix ∈ n.attached ∧ n.resv = r ∧ h d) e

section
variable {i : Instr} {ref : CmdRef} {nsid len : Nat} {kd : KeyData} {n : Ns} {r : Resv} {h : Dev → Prop} {e : Dev → Dev}

theorem runsReservation_of_resvCmd {f : Dev → Resv → Nat → Dev}
    (runs : ∀ s, exec i s = act s (fun d => d.resvCmd ref nsid f))
    (agrees : ∀ d, h d → f d r (d.hostOf ref.fix) = e d) : RunsReservation i ref nsid n r h e :=
  runsCmd_of_io runs fun d ⟨there, ready, attached, resv, met⟩ => by
    simp only [there, ready, attached, resv, ← agrees d met]
    rfl

variable {f : Dev → Resv → Nat → Nat × Nat → Dev}
  (runs : ∀ s, exec i s = act s (fun d => d.resvKeys ref nsid kd len f))
include runs

theorem runsReservation_of_resvKeys {p : Nat × Nat} (good : takeKeys kd len = .ok p)
    (agrees : ∀ d, h d → f (d.hostRead ref.fix len) r (d.hostOf ref.fix) p = e d) :
    RunsReservation i ref nsid n r h e :=
  runsReservation_of_resvCmd runs fun d met => by simp only [good, agrees d met]

theorem runsReservation_of_resvKeys_refused {st : Status} (bad : takeKeys kd len = .error st) :
    RunsReservation i ref nsid n r h (fun d => d.complete ref st) :=
  runsReservation_of_resvCmd runs fun d _ => by simp only [bad]
end

/-! ## The meanings that the rows of reservations run -/

theorem exec_reservationRegister (ref : CmdRef) (nsid action : Nat) (iekey : Bool) (cptpl : Nat) (keys : KeyData) (s : State) :
    exec (.reservationRegister ref nsid action iekey cptpl keys) s =
      execReservationRegister ref nsid action iekey cptpl keys s := rfl
theorem exec_reservationAcquire (ref : CmdRef) (nsid action : Nat) (iekey : Bool) (rtype : Nat) (keys : KeyData) (s : State) :
    exec (.reservationAcquire ref nsid action iekey rtype keys) s =
      execReservationAcquire ref nsid action iekey rtype keys s := rfl
theorem exec_reservationRelease (ref : CmdRef) (nsid action : Nat) (iekey : Bool) (rtype : Nat) (key : KeyData) (s : State) :
    exec (.reservationRelease ref nsid action iekey rtype key) s =
      execReservationRelease ref nsid action iekey rtype key s := rfl
theorem exec_reservationReport (ref : CmdRef) (nsid len : Nat) (extended : Bool) (ptr : DataPtr) (s : State) :
    exec (.reservationReport ref nsid len extended ptr) s = execReservationReport ref nsid len extended ptr s := rfl

/-- Settles O29: with the keys read, a clause's condition decides each test of its row. R74 only names the reservation types;
what the commands do is NVMe 2.1's as the model reads it (log 40). -/
theorem reservationCommands : Obligations.ReservationCommands := by
  unfold Obligations.ReservationCommands
  intro ref nsid rtype cur new kd n r
  dsimp only
  refine ⟨fun st refused => runsReservation_of_resvKeys_refused (exec_reservationRegister ref nsid 0 false 0 kd)
      (takeKeys_refused refused),
    fun ⟨sent, walked⟩ => runsReservation_of_resvKeys (exec_reservationRegister ref nsid 0 false 0 kd)
      (takeKeys_ok sent walked) fun d unknown => ?register,
    fun ⟨sent, walked⟩ k => runsReservation_of_resvKeys (exec_reservationRegister ref nsid 0 false 0 kd)
      (takeKeys_ok sent walked) fun d ⟨known, other⟩ => ?registerConflict,
    fun ⟨sent, walked⟩ least most free => runsReservation_of_resvKeys (exec_reservationAcquire ref nsid 0 false rtype kd)
      (takeKeys_ok sent walked) fun d known => ?acquire,
    fun ⟨sent, walked⟩ least most => runsReservation_of_resvKeys (exec_reservationAcquire ref nsid 0 false rtype kd)
      (takeKeys_ok sent walked) fun d unknown => ?acquireConflict,
    fun ⟨sent, walked⟩ => runsReservation_of_resvKeys (exec_reservationRelease ref nsid 0 false r.rtype kd)
      (takeKeys_ok sent walked) fun d ⟨known, holds⟩ => ?release,
    fun ⟨sent, walked⟩ => runsReservation_of_resvKeys (exec_reservationRelease ref nsid 1 false rtype kd)
      (takeKeys_ok sent walked) fun d known => ?clear,
    fun len ext ptr walked => runsReservation_of_resvCmd (exec_reservationReport ref nsid len ext ptr) fun d _ => ?report⟩
  case register => simp [unknown]
  case registerConflict => simp [known, other]
  case acquire => simp [known, free, Nat.not_lt.mpr most, Nat.ne_of_gt least]
  case acquireConflict => simp [unknown, Nat.not_lt.mpr most, Nat.ne_of_gt least]
  case release => simp [known, holds]
  case clear => simp [known]
  case report => simp only [walked]

end Sys2Proof.Machine

/-! Vendor commands (R96, R97, R99, R102, R103, R105, R235): O30. -/

namespace Sys2Proof.Machine

/-! ## The meanings that the rows of vendor commands run -/

theorem exec_policyTableLoad (ref : CmdRef) (table action len : Nat) (data : Option Bytes) (s : State) :
    exec (.policyTableLoad ref table action len data) s = execPolicyTableLoad ref table action len data s := rfl
theorem exec_policyTableReadActive (ref : CmdRef) (table len : Nat) (s : State) :
    exec (.policyTableReadActive ref table len) s = execPolicyTableReadActive ref table len s := rfl
theorem exec_policyTableReadFactory (ref : CmdRef) (table len : Nat) (s : State) :
    exec (.policyTableReadFactory ref table len) s = execPolicyTableReadFactory ref table len s := rfl
theorem exec_manifestQuery (ref : CmdRef) (first count len : Nat) (s : State) :
    exec (.manifestQuery ref first count len) s = execManifestQuery ref first count len s := rfl
theorem exec_tollgateReport (ref : CmdRef) (mask : Nat) (clear : Bool) (len : Nat) (s : State) :
    exec (.tollgateReport ref mask clear len) s = execTollgateReport ref mask clear len s := rfl
theorem exec_computeSubmit (ref : CmdRef) (addr : Nat) (waybill : Option Bytes) (out : DataPtr) (s : State) :
    exec (.computeSubmit ref addr waybill out) s = execComputeSubmit ref addr waybill out s := rfl
theorem exec_nolobImageLoad (ref : CmdRef) (len : Nat) (mustSign : Bool) (data : Option Bytes) (col set grp : Nat) (s : State) :
    exec (.nolobImageLoad ref len mustSign data col set grp) s = execNolobImageLoad ref len mustSign data col set grp s := rfl
theorem exec_nolobImageUnload (ref : CmdRef) (handle : Nat) (s : State) :
    exec (.nolobImageUnload ref handle) s = execNolobImageUnload ref handle s := rfl
theorem exec_imageUnloadComplete (slot : Nat) (s : State) :
    exec (.imageUnloadComplete slot) s = execImageUnloadComplete slot s := rfl

/-! ## Commands that run -/

theorem Dev.waits.fresh {d : Dev} {ref : CmdRef} (waits : d.waits ref) : ∃ c, d.fresh ref = some c := by
  obtain ⟨c, live, notRun, -⟩ := waits
  exact ⟨c, by simp [Dev.fresh, live, notRun]⟩

/-- Counting a command as run leaves its name as it is, so that both changes meet the same commands. -/
theorem Dev.modCmd_ran (d : Dev) (ref : CmdRef) (f : Cmd → Cmd) :
    (d.ran ref).modCmd ref f = d.modCmd ref (fun c => f { c with ran := true }) := by
  have both : mapWhere (mapWhere d.nvm.cmds (fun c => c.ref = ref) (fun c => { c with ran := true })) (fun c => c.ref = ref) f =
      mapWhere d.nvm.cmds (fun c => c.ref = ref) (fun c => f { c with ran := true }) := by
    rw [mapWhere, mapWhere, mapWhere, List.map_map]
    refine List.map_congr_left fun c _ => ?_
    by_cases named : c.ref = ref <;> simp [named]
  simp only [Dev.ran, Dev.modCmd, both]

/-! ## Tests of the rows -/

theorem policyFields_good {table len : Nat} (known : table ∈ policyIds) (least : 32 ≤ len) (most : len ≤ 65536)
    (aligned : len % 8 = 0) : ¬ (table ∉ policyIds ∨ 0 ≠ 0 ∨ len < 32 ∨ 65536 < len ∨ len % 8 ≠ 0) := by
  simp [known, least, most, aligned]

theorem Dev.readTable_ok (d : Dev) (ref : CmdRef) {table len : Nat} (t : Bytes) (known : table ∈ policyIds) (least : 4 ≤ len)
    (most : len ≤ 65536) (aligned : len % 4 = 0) :
    d.readTable ref table len t = (d.emit (.toHost ref 0 (padTo len t))).complete ref .success t.length := by
  simp [Dev.readTable, known, Nat.not_lt.mpr least, Nat.not_lt.mpr most, aligned]

/-- Settles O30: a clause's condition decides each test of its row. How many records a Manifest Query returns (log 76) and which
status a foreign handle has (log 97) are the model's choices. -/
theorem vendorCommands : Obligations.VendorCommands := by
  unfold Obligations.VendorCommands
  intro ref table len b
  dsimp only
  refine ⟨fun known least most aligned => ⟨fun st off failed => runsCmd_of_pfAdmin
        (exec_policyTableLoad ref table 0 len (some b)) fun d checked => ?policyBad,
      fun off => runsCmd_of_pfAdmin (exec_policyTableLoad ref table 0 len (some b)) fun d checked => ?policyLoad⟩,
    fun known least most aligned => ⟨runsCmd_of_pfAdmin (exec_policyTableReadActive ref table len)
        fun d _ => d.readTable_ok ref _ known least most aligned,
      runsCmd_of_pfAdmin (exec_policyTableReadFactory ref table len)
        fun d _ => d.readTable_ok ref _ known least most aligned⟩,
    fun first count => runsCmd_of_admin (exec_manifestQuery ref first count len) fun _ _ => rfl,
    fun mask clear some' => runsCmd_of_admin (exec_tollgateReport ref mask clear (64 * (bitsSet mask 32).length))
      fun d _ => ?tollgate,
    fun addr out => runsCmd_of_io (exec_computeSubmit ref addr (some b) out) fun d good => ?submit,
    fun addr out st off => runsCmd_of_io (exec_computeSubmit ref addr (some b) out) fun d bad => ?submitBad,
    fun sign col set grp c e => does_of_act (exec_nolobImageLoad ref len sign (some b) col set grp)
      fun d ⟨live, plain, notRun, good, room, issued⟩ => ?load,
    fun handle im => does_of_act (exec_nolobImageUnload ref handle) fun d ⟨waits, _, own⟩ => ?unload,
    fun slot im unloads => does_of_act (exec_imageUnloadComplete slot) fun d ⟨there, noneLeft⟩ => ?unloaded⟩
  case policyBad =>
    rw [if_neg (policyFields_good known least most aligned)]
    simp only [checked]
  case policyLoad =>
    rw [if_neg (policyFields_good known least most aligned)]
    simp only [checked]
  case tollgate => exact if_neg (by simp [some'])
  case submit => simp only [good]
  case submitBad => simp only [bad]
  case load =>
    have placed : (d.placePages col set grp 3 (ceilDiv b.length 16384)).isNone = false :=
      Option.isNone_eq_false_iff.mpr room
    simp [live, plain, notRun, good, issued, placed]
  case unload =>
    obtain ⟨c, fresh⟩ := waits.fresh
    have owned : d.ownImage ref.fix handle = some im := own
    have runsAtOnce := Dev.modCmd_ran (d.modImage (handle % 4096) (fun im => { im with unloading := some ref })) ref
      (fun c => { c with ran := true, job := .imageUnload (handle % 4096) })
    simp only [fresh, owned]
    exact runsAtOnce.symm
  case unloaded =>
    have none' : ¬ d.hrt.wbs.any (fun w => w.slot = slot) = true := by simpa using noneLeft
    simp only [there, unloads, if_neg none']

end Sys2Proof.Machine

/-! Cartridge Service (R101, R163, R217, R219): O35. The three actions share a frame: the generation quoted is the current one,
and no other action holds them up. -/

namespace Sys2Proof.Machine

/-! ## The meanings that the rows of cartridge commands run -/

theorem exec_cartridgeQuery (ref : CmdRef) (group : Nat) (s : State) :
    exec (.cartridgeQuery ref group) s = execCartridgeQuery ref group s := rfl
theorem exec_cartridgePrepareRemoval (ref : CmdRef) (group gen : Nat) (s : State) :
    exec (.cartridgePrepareRemoval ref group gen) s = execCartridgePrepareRemoval ref group gen s := rfl
theorem exec_cartridgeAdmit (ref : CmdRef) (group gen : Nat) (s : State) :
    exec (.cartridgeAdmit ref group gen) s = execCartridgeAdmit ref group gen s := rfl
theorem exec_cartridgeCancelRemoval (ref : CmdRef) (group gen : Nat) (s : State) :
    exec (.cartridgeCancelRemoval ref group gen) s = execCartridgeCancelRemoval ref group gen s := rfl

/-! ## The frame of the three actions -/

section
variable {i : Instr} {ref : CmdRef} {g gen : Nat} {h : Dev → Prop} {f e : Dev → Dev} (known : g < 8)
  (runs : ∀ s, exec i s = act s (fun d => d.service ref g gen f))
include known runs

theorem runsCmd_of_service (agrees : ∀ d, h d → f d = e d) :
    RunsCmd Dev.pfMay i ref (fun d => gen = (d.unit (uid 5 g)).generation ∧
      (∀ x < 8, ∀ r, (d.grp x).owner = some r → r.fix = ref.fix ∧ x ≠ g) ∧ h d) e :=
  runsCmd_of_pfAdmin runs fun d ⟨current, free, met⟩ => by
    rw [if_neg (Nat.not_le.mpr known), if_neg (not_not_intro current)]
    refine (if_neg fun other => ?_).trans (agrees d met)
    obtain ⟨x, inRange, owned⟩ := List.any_eq_true.mp other
    split at owned
    next r owner =>
      obtain ⟨sameFunction, otherGroup⟩ := free x (List.mem_range.mp inRange) r owner
      exact (of_decide_eq_true owned).elim (· sameFunction) otherGroup
    next => cases owned

theorem runsCmd_of_service_stale : RunsCmd Dev.pfMay i ref (fun d => gen ≠ (d.unit (uid 5 g)).generation)
    (fun d => ({ d with mnf := { d.mnf with stale := satAdd 32 d.mnf.stale 1 } }).complete ref .staleGeneration) :=
  runsCmd_of_pfAdmin runs fun d stale => by rw [if_neg (Nat.not_le.mpr known), if_pos stale]
end

/-- Settles O35: with the frame's tests passed, a clause's condition decides those of its row. When actions 2 and 3 complete and
the generation they answer (log 76) are the model's choices. -/
theorem cartridgeCommands : Obligations.CartridgeCommands := by
  unfold Obligations.CartridgeCommands
  intro ref g gen known
  dsimp only
  refine ⟨runsCmd_of_pfAdmin (exec_cartridgeQuery ref g) fun d _ => if_neg (Nat.not_le.mpr known),
    runsCmd_of_service_stale known (exec_cartridgePrepareRemoval ref g gen),
    runsCmd_of_service_stale known (exec_cartridgeAdmit ref g gen),
    runsCmd_of_service_stale known (exec_cartridgeCancelRemoval ref g gen),
    runsCmd_of_service known (exec_cartridgePrepareRemoval ref g gen) fun d ⟨inService, few⟩ => ?prepare,
    runsCmd_of_service known (exec_cartridgeAdmit ref g gen) fun d ⟨absent, present, notAdmitted, idle⟩ => ?admits,
    runsCmd_of_service known (exec_cartridgeCancelRemoval ref g gen) fun d ⟨prepared, whole⟩ => ?cancel,
    runsCmd_of_service known (exec_cartridgeCancelRemoval ref g gen) fun d notPrepared => ?notPrepared⟩
  case prepare =>
    refine if_neg ?_
    rintro (⟨notAlive, notDegraded⟩ | many)
    · exact inService.elim notAlive notDegraded
    · exact Nat.not_lt.mpr few many
  case admits => exact if_neg (by simp [absent, present, notAdmitted, idle])
  case cancel => simp only [prepared, whole]; rfl
  case notPrepared => simp only [notPrepared]; rfl

end Sys2Proof.Machine

/-! Waybill instances (R129, R130, R242 to R246, R253, R258, R277): O17. The row of an event tests the Waybill it is about, so that
a clause holds by taking the branch of its condition. -/

namespace Sys2Proof.Machine

/-! ## The meanings that the rows of instances run -/

theorem exec_handoffDelivery (wb : Nat) (s : State) : exec (.handoffDelivery wb) s = execHandoffDelivery wb s := rfl
theorem exec_checkVerdictFinal (wb id : Nat) (s : State) :
    exec (.checkVerdictFinal wb id) s = execCheckVerdictFinal wb id s := rfl
theorem exec_segmentBoundary (wb : Nat) (s : State) : exec (.segmentBoundary wb) s = execSegmentBoundary wb s := rfl
theorem exec_timeLimitExpiry (wb : Nat) (s : State) : exec (.timeLimitExpiry wb) s = execTimeLimitExpiry wb s := rfl
theorem exec_asyncOperationEnd (wb ticket : Nat) (s : State) :
    exec (.asyncOperationEnd wb ticket) s = execAsyncOperationEnd wb ticket s := rfl
theorem exec_instanceEnd (wb : Nat) (s : State) : exec (.instanceEnd wb) s = execInstanceEnd wb s := rfl
theorem exec_hearthDrainComplete (hearth : Nat) (s : State) :
    exec (.hearthDrainComplete hearth) s = execHearthDrainComplete hearth s := rfl
theorem exec_coreUncorrectableError (ctx : Nat) (s : State) :
    exec (.coreUncorrectableError ctx) s = execCoreUncorrectableError ctx s := rfl

/-! ## The result record (R80) -/

theorem Dev.writeResult_eq (d : Dev) (w : Waybill) : d.writeResult w =
    if w.epoch = (d.fn w.ref.fix).epoch then d.emit (.hostWrite w.ref.fix w.resultAddr w.record) else d := by
  simp only [Dev.writeResult, Dev.doIf, decide_eq_true_eq]

/-- Settles O17: a clause's condition decides the tests of its row. BYTES_IN and LAST_EXTENT counted at the hand-over (log 66)
and the free result of a spoilt ticket (log 4) are the model's choices. -/
theorem waybillRunsAndEnds : Obligations.WaybillRunsAndEnds := by
  unfold Obligations.WaybillRunsAndEnds
  intro wb w
  dsimp only
  refine ⟨fun i e => does_of_act (exec_handoffDelivery wb) fun d ⟨stands, running, room, left, complete, buffer⟩ => ?handsOver,
    fun id out size t x failing => does_of_act (exec_checkVerdictFinal wb id) fun d stands => ?fails,
    fun id out good => does_of_act (exec_checkVerdictFinal wb id) fun d stands => ?passes,
    does_of_act (exec_segmentBoundary wb) fun d ⟨stands, runs, notEnding⟩ => ?goesOn,
    does_of_act (exec_segmentBoundary wb) fun d ⟨stands, runs, ending⟩ => ?stops,
    does_of_act (exec_timeLimitExpiry wb) fun d ⟨stands, overtime⟩ => ?overtime,
    fun no t => does_of_act (exec_asyncOperationEnd wb no) fun d ⟨ticket, done, notEnded, numbered⟩ => ?ticketEnds,
    does_of_act (exec_instanceEnd wb) fun d ⟨stands, ending, stopped, noVerdicts, noneLent⟩ => ?ends,
    fun h => does_of_act (exec_hearthDrainComplete h) fun d drained => if_pos drained,
    fun ctx known => does_of_act (exec_coreUncorrectableError ctx) fun d runs => ?faults⟩
  case handsOver =>
    simp only [stands]
    rw [if_neg (by simp [running, room, left]), if_neg (by simp [Nat.not_lt.mpr complete]), if_neg (Nat.not_lt.mpr complete),
      buffer]
  case fails => simp only [stands, failing]
  case passes => simp only [stands, good]
  case goesOn => simp [stands, runs, notEnding]
  case stops => simp [stands, runs, ending]
  case overtime => simp [stands, overtime]
  case ticketEnds => simp [ticket, done, notEnded, numbered]
  case ends =>
    simp only [stands]
    rw [if_neg (by simp [ending, stopped, noVerdicts, noneLent])]
    cases w.outBuf with
    | none => simp only [Dev.writeResult_eq]
    | some i => simp only [Dev.writeResult_eq]
  case faults =>
    rw [if_neg (Nat.not_le.mpr known)]
    simp only [runs]

end Sys2Proof.Machine

/-! The write pipeline (R114, R116, R119, R122 to R124, R132, R180, R335): O22. A row finds its granule and acts on it, so that a
clause holds by the search its condition answers. -/

namespace Sys2Proof.Machine

/-! ## The meanings that the rows of the write pipeline run -/

theorem exec_granuleLockRelease (gtag : Nat) (s : State) :
    exec (.granuleLockRelease gtag) s = execGranuleLockRelease gtag s := rfl
theorem exec_laneGrant (kind lane : Nat) (s : State) : exec (.laneGrant kind lane) s = execLaneGrant kind lane s := rfl
theorem exec_granuleCompress (lane : Nat) (s : State) : exec (.granuleCompress lane) s = execGranuleCompress lane s := rfl
theorem exec_xtsLaneCompute (lane : Nat) (first second : Bool) (col set grp : Nat) (s : State) :
    exec (.xtsLaneCompute lane first second col set grp) s = execXtsLaneCompute lane first second col set grp s := rfl
theorem exec_mxtKeyCacheMiss (lane : Nat) (s : State) : exec (.mxtKeyCacheMiss lane) s = execMxtKeyCacheMiss lane s := rfl
theorem exec_creditGrant (pool id col set grp : Nat) (s : State) :
    exec (.creditGrant pool id col set grp) s = execCreditGrant pool id col set grp s := rfl
theorem exec_qlcCopyComplete (id : Nat) (s : State) : exec (.qlcCopyComplete id) s = execQlcCopyComplete id s := rfl
theorem exec_stripeCloseTimer (col set pu : Nat) (s : State) :
    exec (.stripeCloseTimer col set pu) s = execStripeCloseTimer col set pu s := rfl
theorem exec_journalRecordDurable (s : State) : exec .journalRecordDurable s = execJournalRecordDurable s := rfl

/-! ## Lanes (R114, R122) -/

/-- The round robin over the functions of a lane kind as it stands once a lane of it has taken a granule (R114). -/
def Dev.turned (d : Dev) (kind : Nat) (drr : Drr) : Dev := { d with wrp := { d.wrp with drr := fset d.wrp.drr kind drr } }

/-- Two rails that match at the first attempt leave the device as it was. -/
theorem Dev.rails_match {d : Dev} (lane : Nat) (counts : d.mxt.railMismatch < 2 ^ 32) : d.rails lane true true = d := by
  have same : satAdd 32 d.mxt.railMismatch 0 = d.mxt.railMismatch := by simp only [satAdd]; omega
  simp [Dev.rails, b2n, same]

/-- A free lane of the write pipeline takes the granule ready first of the function served next. -/
theorem does_laneGrant_write {kind lane fix : Nat} {drr : Drr} {g : WGran} {e : Dev → Dev} (writes : kind ≤ 1)
    (takes : ∀ d : Dev, ((d.turned kind drr).issue (lanePool kind) 0 1).grantW kind lane g = e d) :
    Does (.laneGrant kind lane) (fun d => d.laneFree kind lane = true ∧
      (fget d.wrp.drr {} kind).next 32768 (d.laneWork kind) = some (fix, drr) ∧
      d.wrp.grans.find? (fun g => g.readyFor kind && decide (g.ref.fix = fix)) = some g) e :=
  does_of_act (exec_laneGrant kind lane) fun d ⟨free, turn, ready⟩ => by
    rw [if_neg (by simp [free]; omega)]
    simp only [turn, ready, if_pos writes]
    exact takes d

/-- Settles O22: the granule that a clause's condition names is the one its row finds, and rails that match at the first attempt
count nothing. -/
theorem writePipelineMoves : Obligations.WritePipelineMoves := by
  unfold Obligations.WritePipelineMoves
  intro id lane col set grp pu fix g drr
  dsimp only
  refine ⟨does_of_act (exec_granuleLockRelease g.gtag) fun d waits => by simp only [waits],
    does_laneGrant_write (by decide) fun d => rfl, does_laneGrant_write (by decide) fun d => rfl,
    does_of_act (exec_granuleCompress lane) fun d compressing => by simp only [compressing],
    fun encrypts => does_of_act (exec_xtsLaneCompute lane true true col set grp) fun d ⟨hasKey, computes, counts⟩ => ?encrypt,
    fun k => does_of_act (exec_mxtKeyCacheMiss lane) fun d ⟨key, missing, unlocked⟩ => ?keyed,
    fun e => does_of_act (exec_creditGrant 2 id col set grp) fun d granted => ?writeCredit,
    fun e => does_of_act (exec_creditGrant 3 id col set grp) fun d granted => ?readCredit,
    fun p buffer parity => ⟨fun unplaced => does_of_act (exec_creditGrant p id col set grp) fun d stands => ?placed,
      fun placed => does_of_act (exec_creditGrant p id col set grp) fun d ⟨stands, free⟩ => ?copies⟩,
    fun copied => does_of_act (exec_qlcCopyComplete id) fun d stands => ?copied,
    fun t isOpen => does_of_act (exec_stripeCloseTimer col set pu) fun d stands => ?closes,
    does_of_act exec_journalRecordDurable fun d _ => rfl⟩
  case encrypt => simp [hasKey, Dev.rails_match lane counts, encrypts, computes]
  case keyed => simp [key, missing, unlocked]
  case writeCredit => simp [granted]
  case readCredit => simp [granted]
  case placed =>
    rcases buffer with rfl | rfl <;> simp [stands, parity, unplaced]
  case copies =>
    rcases buffer with rfl | rfl <;> simp [stands, parity, placed, free]
  case copied => simp [stands, copied]
  case closes => simp [Dev.padStripe, stands, isOpen]

end Sys2Proof.Machine

/-! The read pipeline (R114, R126, R127, R131, R139, R157, R211): O23. A row finds its granule, a step of R126 a codeword of it, and
acts once the units it needs are free, so that a clause holds by taking the branch of its condition. -/

namespace Sys2Proof.Machine

/-! ## The meanings that the rows of the read pipeline run -/

theorem exec_nandReadComplete (id : Nat) (s : State) : exec (.nandReadComplete id) s = execNandReadComplete id s := rfl
theorem exec_codewordDecode (id cw : Nat) (ok : Bool) (s : State) :
    exec (.codewordDecode id cw ok) s = execCodewordDecode id cw ok s := rfl
theorem exec_readRetryRung (id cw : Nat) (ok : Bool) (s : State) :
    exec (.readRetryRung id cw ok) s = execReadRetryRung id cw ok s := rfl
theorem exec_softDecode (id cw decoder : Nat) (ok : Bool) (s : State) :
    exec (.softDecode id cw decoder ok) s = execSoftDecode id cw decoder ok s := rfl
theorem exec_stripeReconstruct (id cw : Nat) (failed : List (Nat × Found)) (s : State) :
    exec (.stripeReconstruct id cw failed) s = execStripeReconstruct id cw failed s := rfl
theorem exec_granuleDecompress (lane : Nat) (clear region : List (Nat × Byte)) (s : State) :
    exec (.granuleDecompress lane clear region) s = execGranuleDecompress lane clear region s := rfl
theorem exec_hostDmaComplete (id : Nat) (s : State) : exec (.hostDmaComplete id) s = execHostDmaComplete id s := rfl

/-! ## Functions stand as a granule leaves the pipeline -/

@[simp] theorem Dev.tell_fnm (d : Dev) (kind : MediaKind) (die block : Nat) : (d.tell kind die block).fnm = d.fnm := by
  simp only [Dev.tell]
  split <;> rfl

@[simp] theorem Dev.encode_fnm (d : Dev) (die b u : Nat) : (d.encode die b u).fnm = d.fnm := by
  unfold Dev.encode
  split <;> simp [apply_ite Dev.fnm]

@[simp] theorem Dev.startNext_fnm (d : Dev) (n : Nat) : (d.startNext n).fnm = d.fnm := by
  simp only [Dev.startNext]
  repeat' split
  all_goals simp

@[simp] theorem Dev.issue_fnm (d : Dev) (p fix n : Nat) : (d.issue p fix n).fnm = d.fnm := rfl
@[simp] theorem Dev.giveBack_fnm (d : Dev) (p fix n : Nat) : (d.giveBack p fix n).fnm = d.fnm := rfl

@[simp] theorem Dev.endTag_fnm (d : Dev) (c : Nat) : (d.endTag c).fnm = d.fnm := by
  simp only [Dev.endTag]
  repeat' split
  all_goals simp

@[simp] theorem Dev.freeLane_fnm (d : Dev) (g : RGran) : (d.freeLane g).fnm = d.fnm := by
  simp only [Dev.freeLane]
  repeat' split
  all_goals rfl

@[simp] theorem Dev.freeRg_fnm (d : Dev) (g : RGran) : (d.freeRg g).fnm = d.fnm := by
  simp only [Dev.freeRg]
  repeat' split
  all_goals simp

theorem Dev.fn_endRg (d : Dev) (g : RGran) (fix : Nat) : (d.endRg g).fn fix = d.fn fix := by
  simp [Dev.endRg, Dev.dropRg, Dev.fn]

/-! ## Lanes (R114) -/

/-- Only the lane kind 3, decompression, takes hand-off buffers and frees the decrypting lane that holds the granule (R131). -/
theorem Dev.grantR_keeps (d : Dev) {kind lane : Nat} {g : RGran} (other : kind ≠ 3) :
    d.grantR kind lane g = d.modRg g.id (fun x => { x with lane := some lane }) := by
  unfold Dev.grantR
  cases dest : g.dest <;> simp [other]

theorem Dev.grantR_decompress (d : Dev) {lane : Nat} {g : RGran} (direct : ∀ w, g.dest ≠ .divert w) :
    d.grantR 3 lane g =
      (if g.holds.isSome = true then d.giveBack 12 0 1 else d).modRg g.id (fun x => { x with lane := some lane, holds := none }) := by
  unfold Dev.grantR
  cases dest : g.dest with
  | divert w => exact absurd dest (direct w)
  | host | compare | verify | merge | move | repair => simp

/-- A free lane of the read pipeline takes the granule ready first of the function served next. -/
theorem does_laneGrant_read {kind lane fix : Nat} {drr : Drr} {g : RGran} {e : Dev → Dev} (reads : 2 ≤ kind) (known : kind ≤ 5)
    (takes : ∀ d : Dev, (if kind = 4 then d.turned kind drr else (d.turned kind drr).issue (lanePool kind) 0 1).grantR kind lane g =
      e d) :
    Does (.laneGrant kind lane) (fun d => d.laneFree kind lane = true ∧
      (fget d.wrp.drr {} kind).next 32768 (d.laneWork kind) = some (fix, drr) ∧
      d.rdp.grans.find? (fun g => d.readyFor g kind && decide (g.ref.fix = fix)) = some g) e :=
  does_of_act (exec_laneGrant kind lane) fun d ⟨free, turn, ready⟩ => by
    rw [if_neg (by simp [free, known])]
    simp only [turn, if_neg (Nat.not_le.mpr reads : ¬ kind ≤ 1)]
    split -- what is ready does not depend on the round robin
    next h found =>
      obtain rfl : h = g := Option.some.inj (found.symm.trans ready)
      exact takes d
    next found => exact absurd (found.symm.trans ready) (Option.some_ne_none g).symm

/-! ## Checks (R127) -/

section
variable (d : Dev) {g : RGran} (host : g.dest = .host) (first : g.checkFail = none)
include host first

theorem Dev.checksPass_host : d.checksPass g = d.countGranule.modRg g.id (fun g => { g with stage := .deliver }) := by
  simp [Dev.checksPass, host, first]

theorem Dev.checksFail_host (size : Bool) (recon : d.rdp.reconA = true) :
    d.checksFail g size =
      ({ d with
        rdp := { d.rdp with checkFail := satAdd 32 d.rdp.checkFail 1 }
        icm := { d.icm with lenMismatch := satAdd 32 d.icm.lenMismatch (b2n size) } } : Dev).modRg g.id
          (fun g => { g.toStep4 true with checkFail := some size }) := by
  simp [Dev.checksFail, host, first, recon]
end

/-- Settles O23: a clause's condition decides the tests of its row, and what a granule waits for is the same once the round robin
has moved on. A hard decode counted for every rung (log 112), the reads of a soft decode (log 111), the counters that a failed
check moves (log 104) and the key's refusal before the other checks (log 109) are the model's choices. -/
theorem readPipelineMoves : Obligations.ReadPipelineMoves := by
  unfold Obligations.ReadPipelineMoves
  intro id cw lane decoder fix g drr
  dsimp only
  refine ⟨fun e => does_of_act (exec_nandReadComplete id) fun d ⟨stands, media, tag, reads, served⟩ => ?arrives,
    fun ok => does_of_act (exec_codewordDecode id cw ok) fun d ⟨stands, decode, failed, step, free⟩ => ?hard,
    does_of_act (exec_readRetryRung id cw true) fun d ⟨⟨stands, decode, failed, step, free⟩, reads⟩ => ?rungDecodes,
    does_of_act (exec_readRetryRung id cw false) fun d ⟨⟨stands, decode, failed, step, free⟩, reads⟩ => ?rungFails,
    does_of_act (exec_softDecode id cw decoder true)
      fun d ⟨⟨stands, decode, failed, step, free⟩, taken, reads⟩ => ?soft,
    fun found => does_of_act (exec_stripeReconstruct id cw found)
      fun d ⟨stands, rebuild, taken, failed, step, others, can⟩ => ?rebuilt,
    does_laneGrant_read (by decide) (by decide) fun d => Dev.grantR_keeps _ (by decide),
    fun direct => does_laneGrant_read (by decide) (by decide) fun d => Dev.grantR_decompress _ direct,
    does_laneGrant_read (by decide) (by decide) fun d => Dev.grantR_keeps _ (by decide),
    does_laneGrant_read (by decide) (by decide) fun d => Dev.grantR_keeps _ (by decide),
    fun decrypts col set grp => does_of_act (exec_xtsLaneCompute lane true true col set grp)
      fun d ⟨hasKey, computes, counts⟩ => ?decrypt,
    fun host first clear region => does_of_act (exec_granuleDecompress lane clear region)
      fun d ⟨computes, allowed, verdict⟩ => ?passes,
    fun host first clear region => does_of_act (exec_granuleDecompress lane clear region)
      fun d ⟨computes, allowed, verdict, recon⟩ => ?fails,
    fun same => does_of_act (exec_hostDmaComplete id) fun d ⟨turn, epoch⟩ => ?delivered⟩
  case arrives => simp [stands, media, tag, reads, served]
  case hard => simp [stands, decode, failed, step, free]
  case rungDecodes => simp [stands, decode, failed, step, free, reads]
  case rungFails => simp [stands, decode, failed, step, free, reads]
  case soft => simp [stands, decode, failed, step, free, taken, reads]
  case rebuilt =>
    simp [stands, rebuild, taken, failed, step, others, can]
  case decrypt => simp [hasKey, Dev.rails_match lane counts, Nat.not_lt.mpr decrypts, computes]
  case passes =>
    simp only [computes, verdict]
    rw [if_neg (by simp [allowed])]
    exact Dev.checksPass_host _ host first
  case fails =>
    simp only [computes, verdict]
    rw [if_neg (by simp [allowed])]
    exact Dev.checksFail_host _ host first false recon
  case delivered =>
    simp only [turn, if_pos same]
    exact if_pos (epoch.trans (congrArg Fn.epoch (Dev.fn_endRg (d.turned 6 drr) g g.ref.fix).symm))

end Sys2Proof.Machine

/-! The dies (R141, R149 to R153): O24. A row acts on the operation that its die runs, or on a channel, so that a clause holds by the
tests that its condition decides. -/

namespace Sys2Proof.Machine

/-! ## The meanings that the rows of the dies run -/

theorem exec_channelTraining (chan : Nat) (passing : List Nat) (tj : Int) (s : State) :
    exec (.channelTraining chan passing tj) s = execChannelTraining chan passing tj s := rfl
theorem exec_zqCalibrationTimer (chan : Nat) (s : State) :
    exec (.zqCalibrationTimer chan) s = execZqCalibrationTimer chan s := rfl
theorem exec_readDqRetrain (chan : Nat) (tj : Int) (s : State) :
    exec (.readDqRetrain chan tj) s = execReadDqRetrain chan tj s := rfl
theorem exec_nandProgramComplete (die : Nat) (pass verifyOk : Bool) (s : State) :
    exec (.nandProgramComplete die pass verifyOk) s = execNandProgramComplete die pass verifyOk s := rfl
theorem exec_nandEraseComplete (die : Nat) (pass : Bool) (s : State) :
    exec (.nandEraseComplete die pass) s = execNandEraseComplete die pass s := rfl
theorem exec_nandOperationTimeout (die us : Nat) (read : Option Nat) (s : State) :
    exec (.nandOperationTimeout die us read) s = execNandOperationTimeout die us read s := rfl
theorem exec_eraseSuspend (die us : Nat) (s : State) : exec (.eraseSuspend die us) s = execEraseSuspend die us s := rfl
theorem exec_programSuspend (die us : Nat) (s : State) : exec (.programSuspend die us) s = execProgramSuspend die us s := rfl
theorem exec_suspendReady (die : Nat) (completed : Bool) (s : State) :
    exec (.suspendReady die completed) s = execSuspendReady die completed s := rfl
theorem exec_suspendResume (die : Nat) (s : State) : exec (.suspendResume die) s = execSuspendResume die s := rfl

/-! ## Time-outs and ends (R149, R150) -/

/-- An operation that runs, or that a suspend found complete (R153), neither waits for a suspend nor stands suspended. -/
theorem DieOp.notSuspended {o : DieOp} (ends : o.suspended = 0 ∨ o.suspended = 3) : o.suspended ≠ 1 ∧ o.suspended ≠ 2 := by omega

/-- A time-out that is at most the third in a minute retires no die. -/
theorem Dev.timeOut_few {d : Dev} {die us : Nat} (fails : Dev → Dev)
    (few : ((d.die die).timeouts.filter (fun t => us < t + 60000000)).length < 3) :
    d.timeOut die us fails =
      fails (((d.modChan (chanOf die) (fun c => { c with timeouts := satAdd 32 c.timeouts 1 })).tell .dieReset die 0).modDie die
        (fun x => { x with timeouts := (d.die die).timeouts.filter (fun t => us < t + 60000000) ++ [us] })) :=
  if_neg fun ⟨many, _⟩ => by simp at many; omega

/-- A running erase that fails ends, and its block is retired. -/
theorem Dev.failOp_erase {d : Dev} {die : Nat} {o : DieOp} (reason : Nat) (runs : (d.die die).op = some o)
    (erases : o.kind = .erase) : d.failOp die reason = (d.endOp die).eraseFailure die o.block reason := by
  simp only [Dev.failOp, runs, if_pos erases]

/-- Settles O24: the guard of a training holds where the group is powered, and every other row finds the operation that its die runs.
That a suspend which finds its operation complete is taken back from the channel's count (log 113) is the model's choice. -/
theorem diesOperate : Obligations.DiesOperate := by
  unfold Obligations.DiesOperate
  intro chan die us tj o
  dsimp only
  refine ⟨fun below passing r => does_of_act (exec_channelTraining chan passing tj) fun d ⟨⟨power, drivers⟩, rate⟩ => ?trained,
    fun below passing => does_of_act (exec_channelTraining chan passing tj) fun d ⟨⟨power, drivers⟩, rate⟩ => ?untrained,
    does_of_act (exec_zqCalibrationTimer chan) fun d ⟨trained, active⟩ => ?calibrates,
    does_of_act (exec_readDqRetrain chan tj) fun d ⟨trained, moved⟩ => ?retrains,
    fun programs ends ok => does_of_act (exec_nandProgramComplete die false ok) fun d runs => ?programFails,
    fun pslc ends => does_of_act (exec_nandProgramComplete die true true) fun d ⟨runs, unstriped⟩ => ?programPasses,
    fun erases ends => ⟨does_of_act (exec_nandEraseComplete die true) fun d runs => ?erasePasses,
      does_of_act (exec_nandEraseComplete die false) fun d runs => ?eraseFails⟩,
    fun erases => does_of_act (exec_eraseSuspend die us) fun d runs => ?suspendsErase,
    fun programs => does_of_act (exec_programSuspend die us) fun d runs => ?suspendsProgram,
    fun asked => ⟨does_of_act (exec_suspendReady die false) fun d runs => ?suspended,
      does_of_act (exec_suspendReady die true) fun d runs => ?complete⟩,
    fun suspended => does_of_act (exec_suspendResume die) fun d ⟨runs, reads⟩ => ?resumes,
    fun erases => does_of_act (exec_nandOperationTimeout die us none) fun d ⟨runs, few, still⟩ => ?timesOut⟩
  case trained =>
    rw [if_neg (by simp [below, power, drivers])]
    simp only [rate]
  case untrained =>
    rw [if_neg (by simp [below, power, drivers])]
    simp only [rate]
  case calibrates => simp [trained, active]
  case retrains => simp [trained, moved]
  case programFails =>
    obtain ⟨notAsked, notHeld⟩ := DieOp.notSuspended ends
    simp [runs, programs, notAsked, notHeld]
  case programPasses => simp [runs, pslc, ends, unstriped]
  case erasePasses =>
    obtain ⟨notAsked, notHeld⟩ := DieOp.notSuspended ends
    simp [runs, erases, notAsked, notHeld]
  case eraseFails =>
    obtain ⟨notAsked, notHeld⟩ := DieOp.notSuspended ends
    simp [runs, erases, notAsked, notHeld]
  case suspendsErase => simp [runs, erases]
  case suspendsProgram => simp [runs, programs]
  case suspended => simp [runs, asked]
  case complete => simp [runs, asked]
  case resumes => simp [runs, suspended, reads]
  case timesOut =>
    simp only [runs, Option.isSome_some, if_true]
    rw [Dev.timeOut_few _ few]
    exact Dev.failOp_erase 4 still erases

end Sys2Proof.Machine

/-! Cartridges (R162 to R165, R219, R220, R440): O34. A row acts on its group, so that a clause holds by the tests that its condition
decides; what a test reads after the pins were driven is what stood before. -/

namespace Sys2Proof.Machine

/-! ## The meanings that the rows of cartridges run -/

theorem exec_cartPresenceChange (g : Nat) (seated : Bool) (s : State) :
    exec (.cartPresenceChange g seated) s = execCartPresenceChange g seated s := rfl
theorem exec_insertionDebounced (g : Nat) (s : State) : exec (.insertionDebounced g) s = execInsertionDebounced g s := rfl
theorem exec_removalCounted (g : Nat) (s : State) : exec (.removalCounted g) s = execRemovalCounted g s := rfl
theorem exec_pgoodFall (g : Nat) (s : State) : exec (.pgoodFall g) s = execPgoodFall g s := rfl
theorem exec_cartridgeAdmission (g : Nat) (found : List (Nat × Nat × Nat)) (s : State) :
    exec (.cartridgeAdmission g found) s = execCartridgeAdmission g found s := rfl
theorem exec_pgoodRise (g : Nat) (s : State) : exec (.pgoodRise g) s = execPgoodRise g s := rfl
theorem exec_pgoodTimeout (g : Nat) (s : State) : exec (.pgoodTimeout g) s = execPgoodTimeout g s := rfl
theorem exec_cartridgePowerUpDone (g : Nat) (s : State) :
    exec (.cartridgePowerUpDone g) s = execCartridgePowerUpDone g s := rfl
theorem exec_cartridgePowerDown (g : Nat) (s : State) : exec (.cartridgePowerDown g) s = execCartridgePowerDown g s := rfl
theorem exec_cartridgeAttnAssert (g : Nat) (s : State) : exec (.cartridgeAttnAssert g) s = execCartridgeAttnAssert g s := rfl
theorem exec_rebuildSet (g : Nat) (pass : Bool) (failed : List (Nat × List (Nat × Found))) (s : State) :
    exec (.rebuildSet g pass failed) s = execRebuildSet g pass failed s := rfl
theorem exec_quiesceComplete (unit : Nat) (s : State) : exec (.quiesceComplete unit) s = execQuiesceComplete unit s := rfl

/-! ## Groups and their pins -/

@[simp] theorem Dev.grp_modGrp_same (d : Dev) (g : Nat) (f : Cart → Cart) : (d.modGrp g f).grp g = f (d.grp g) := by
  simp [Dev.grp, Dev.modGrp]

/-- A change of a group is what it makes of the group as it stands. -/
theorem Dev.modGrp_congr {d : Dev} {g : Nat} {f h : Cart → Cart} (same : f (d.grp g) = h (d.grp g)) :
    d.modGrp g f = d.modGrp g h := by
  simp only [Dev.grp] at same
  simp only [Dev.modGrp, fmod, same]

@[simp] theorem Dev.drivePwren_mnf (d : Dev) (g : Nat) (on : Bool) : (d.drivePwren g on).mnf = d.mnf := by
  unfold Dev.drivePwren
  split <;> simp

@[simp] theorem Dev.driveAttn_mnf (d : Dev) (g : Nat) (safe : Bool) : (d.driveAttn g safe).mnf = d.mnf := by
  unfold Dev.driveAttn
  split <;> simp

/-- A group's state stands as its power is switched on and its attention pin released. -/
theorem Dev.unit_powerPins (d : Dev) (g id : Nat) (f : Cart → Cart) (on safe : Bool) :
    (((d.modGrp g f).drivePwren g on).driveAttn g safe).unit id = d.unit id := by
  simp [Dev.unit]

/-- A unit ID holds its type and its number (R435). -/
theorem uid_type {ty ix : Nat} (below : ix < 2 ^ 24) : uid ty ix / 2 ^ 24 = ty := by simp only [uid]; omega
theorem uid_index {ty ix : Nat} (below : ix < 2 ^ 24) : uid ty ix % 2 ^ 24 = ix := by simp only [uid]; omega

/-! ## The end of a power-up (R163, step 6) -/

/-- A group at the end of its power-up: its channels and then its dies have taken their states, and are counted. -/
def Dev.groupMet (d : Dev) (g : Nat) : Dev :=
  (((d.modGrp g (fun c => { c with step := 6, profile := d.groupProfile g })).forEach (chansOfGroup g) (fun e n =>
    if (e.chan n).trained = true then
      (if (e.chan n).rate = 4 then e.transition (uid 3 n) .alive .none else e.transition (uid 3 n) .degraded .rateDown)
    else e)).forEach (diesOfGroup g) (fun e n => e.identify g (decide ((d.unit (uid 5 g)).state = .absent)) n)).forEach
      (chansOfGroup g) (fun e n => e.countDies n)

@[simp] theorem Dev.forEach_nil {α : Type} (d : Dev) (f : Dev → α → Dev) : d.forEach [] f = d := rfl

/-- Where step 6 tests a channel for not having trained, the branches change places. -/
theorem Dev.ite_untrained (d x y : Dev) (n : Nat) :
    (if (!(d.chan n).trained) = true then x else y) = if (d.chan n).trained = true then y else x := by
  cases (d.chan n).trained <;> rfl

/-- Step 6 runs on a powered group once every channel of it has ended its training. -/
theorem Dev.powerUp_runs {d : Dev} {g : Nat} (below : g < 8) (second : (d.grp g).step = 2) (good : (d.grp g).pgood = true)
    (ended : ∀ n ∈ chansOfGroup g, (d.chan n).trained = true ∨ (d.unit (uid 3 n)).state = .retired) :
    ¬ ((d.grp g).step ≠ 2 ∨ (d.grp g).pgood = false ∨
      ((chansOfGroup g).all fun n => (d.chan n).trained || decide ((d.unit (uid 3 n)).state = .retired)) = false ∨ 8 ≤ g) := by
  have allEnded : ((chansOfGroup g).all fun n => (d.chan n).trained || decide ((d.unit (uid 3 n)).state = .retired)) = true := by
    simpa using ended
  simp [below, second, good, allEnded]

/-- Settles O34: the tests of a row are those of its clause's condition, read where the row's own pins and counts leave them as they
were. Of a rebuild (R220) only the end is stated. -/
theorem cartridgeEvents : Obligations.CartridgeEvents := by
  unfold Obligations.CartridgeEvents
  intro g below
  dsimp only
  refine ⟨fun seated => does_of_act (exec_cartPresenceChange g seated) fun d _ => if_neg (Nat.not_le.mpr below),
    does_of_act (exec_insertionDebounced g) fun d ⟨seated, fresh⟩ => ?inserted,
    does_of_act (exec_removalCounted g) fun d ⟨pulled, there, unprepared⟩ => ?surprise,
    does_of_act (exec_removalCounted g) fun d ⟨pulled, there, unpowered, unowned, prepared⟩ => ?removed,
    does_of_act (exec_pgoodFall g) fun d ⟨good, powered⟩ => ?falls,
    fun found => does_of_act (exec_cartridgeAdmission g found) fun d ⟨admitted, there, on, turn, absent⟩ => ?admitted,
    does_of_act (exec_pgoodRise g) fun d ⟨powered, other⟩ => ?rises,
    does_of_act (exec_pgoodRise g) fun d ⟨powered, first⟩ => ?comesUp,
    does_of_act (exec_pgoodTimeout g) fun d ⟨first, low⟩ => ?timesOut,
    does_of_act (exec_cartridgePowerUpDone g) fun d ⟨second, good, ended, untrained⟩ => ?retired,
    does_of_act (exec_cartridgePowerUpDone g)
      fun d ⟨second, good, absent, _, ended, trained, whole, stillNotReady⟩ => ?alive,
    does_of_act (exec_cartridgePowerDown g) fun d ⟨prepared, owned, powered, idle, closed⟩ => ?powersDown,
    fun ref => does_of_act (exec_cartridgeAttnAssert g) fun d ⟨down, owned⟩ => ?attention,
    does_of_act (exec_rebuildSet g true []) fun d ⟨rebuilding, good, last⟩ => ?rebuilt,
    fun s r => does_of_act (exec_quiesceComplete (uid 5 g)) fun d ⟨quiescing, pending, drained⟩ => ?quiesced⟩
  case inserted => simp [seated, fresh, below]
  case surprise =>
    rw [if_neg (by simp [pulled, there, below])]
    refine if_neg ?_
    rcases unprepared with no | on | owned
    · simp [no]
    · simp [on]
    · simp [Option.isSome_iff_ne_none.mp owned]
  case removed =>
    rw [if_neg (by simp [pulled, there, below])]
    exact if_pos (by simp [prepared, unpowered, unowned])
  case falls => simp [good, powered]
  case admitted =>
    rw [if_neg ?_, if_pos ((congrArg MUnit.state (Dev.unit_powerPins ..)).trans absent)]
    rcases turn with ready | lowest
    · simp [admitted, there, below, on, ready]
    · have noLower : (List.range g).any (fun x => (d.grp x).admitted) = false := by simpa using lowest
      simp [admitted, there, below, on, noLower]
  case rises =>
    simp only [other, decide_false, Bool.false_eq_true, if_false]
    rw [if_pos (by simp [powered, below])]
    exact Dev.modGrp_congr (by simp [other])
  case comesUp =>
    simp only [first, decide_true, if_true]
    rw [if_pos (by simp [powered, below])]
    exact congrArg (Dev.bringUp · g) (Dev.modGrp_congr (by simp [first]))
  case timesOut => exact if_pos ⟨first, low, below⟩
  case retired =>
    rw [if_neg (Dev.powerUp_runs below second good ended)]
    simp only [Dev.ite_untrained, ← Dev.groupMet.eq_1] at untrained ⊢
    have noneTrained : ((chansOfGroup g).all fun n => !((d.groupMet g).chan n).trained) = true := by simpa using untrained
    simp only [noneTrained, if_true, Dev.forEach_nil]
  case alive =>
    rw [if_neg (Dev.powerUp_runs below second good ended)]
    simp only [Dev.ite_untrained, ← Dev.groupMet.eq_1] at trained whole stillNotReady ⊢
    have someTrained : ((chansOfGroup g).all fun n => !((d.groupMet g).chan n).trained) = false := by simpa using trained
    simp only [someTrained, absent, decide_true, Bool.false_eq_true, if_true, if_false, whole, stillNotReady]
  case powersDown => exact if_pos (by simp [prepared, owned, powered, idle, closed])
  case attention =>
    simp only [down, if_true, owned]
    rfl
  case rebuilt => simp [rebuilding, good, last]
  case quiesced =>
    have small : g < 2 ^ 24 := by omega
    simp only [quiescing, uid_type small, uid_index small, pending]
    simp [drained]

end Sys2Proof.Machine

/-! Mapping and durability (R174, R181, R191, R194, R223): O25. A row acts where its guard holds, so that a clause holds by the tests that
its condition decides; the two starts of recovery differ in whether a copy of the superblock is left. -/

namespace Sys2Proof.Machine

/-! ## The meanings that the rows of mapping and durability run -/

theorem exec_mapItemLoad (kind index : Nat) (s : State) : exec (.mapItemLoad kind index) s = execMapItemLoad kind index s := rfl
theorem exec_mapItemFlush (kind index col set grp : Nat) (s : State) :
    exec (.mapItemFlush kind index col set grp) s = execMapItemFlush kind index col set grp s := rfl
theorem exec_gcVictimSelect (cls : Nat) (s : State) : exec (.gcVictimSelect cls) s = execGcVictimSelect cls s := rfl
theorem exec_pslcFoldStart (s : State) : exec .pslcFoldStart s = execPslcFoldStart s := rfl
theorem exec_journalCheckpoint (s : State) : exec .journalCheckpoint s = execJournalCheckpoint s := rfl
theorem exec_patrolZone (samples : List PatrolRead) (s : State) : exec (.patrolZone samples) s = execPatrolZone samples s := rfl
theorem exec_recoveryStart (copies torn : List Nat) (s : State) :
    exec (.recoveryStart copies torn) s = execRecoveryStart copies torn s := rfl
theorem exec_recoveryBlockTableLoad (s : State) : exec .recoveryBlockTableLoad s = execRecoveryBlockTableLoad s := rfl
theorem exec_recoveryComplete (us seqUs : Nat) (s : State) :
    exec (.recoveryComplete us seqUs) s = execRecoveryComplete us seqUs s := rfl

/-! ## The copies of the superblock (R182, R194, R195) -/

/-- A map in which every entry reads as the default reads as the default everywhere. -/
theorem fget_map_default {α β : Type} (m : FMap α) (e : β) (k : Nat) : fget (m.map fun p => (p.1, e)) e k = e := by
  induction m with
  | nil => rfl
  | cons p t ih => simp only [List.map_cons, fget, ih, ite_self]

/-- Where every copy has failed its CRC32C, no superblock is valid. -/
theorem Jrn.sbOk_allFailed (j : Jrn) (m : FMap Super) :
    Jrn.sbOk { j with supers := m.map fun p => (p.1, {}) } = false := by
  have faulty (c : Nat) : fget (m.map fun p => (p.1, ({} : Super))) {} c = {} := fget_map_default m _ c
  simp only [Jrn.sbOk, Jrn.current, faulty]
  rfl

/-- Where there are no copies but A and B, every one fails once both do. -/
theorem supers_bothFailed {m : FMap Super} (two : ∀ p ∈ m, p.1 ≤ 1) :
    (m.map fun p => if p.1 ∈ [0, 1] then (p.1, {}) else p) = m.map fun p => (p.1, {}) := by
  refine List.map_congr_left fun p listed => if_pos ?_
  have atMost : p.1 ≤ 1 := two p listed
  simp only [List.mem_cons, List.not_mem_nil, or_false]
  omega

/-- Settles O25: a clause's condition decides the tests of its row; no chunk counts as a miss of a leaf or directory, and a recovery
whose two copies both fail finds no valid superblock. One page and four codewords read per map item (log 92) and an image moved by
`mapItemFlush` 3 (log 61) are the model's choices. -/
theorem mapAndRecoveryMove : Obligations.MapAndRecoveryMove := by
  unfold Obligations.MapAndRecoveryMove
  intro index col set grp key k
  dsimp only
  refine ⟨fun e => does_of_act (exec_mapItemLoad 2 index) fun d ⟨uncached, there, noneFirst, reads, room⟩ => ?chunkLoaded,
    fun kind e pga isItem => does_of_act (exec_mapItemFlush kind index col set grp) fun d ⟨flushable, turn, placed⟩ => ?itemFlushed,
    does_of_act (exec_mapItemFlush 3 index col set grp) fun d _ => if_pos rfl,
    fun cls known => does_of_act (exec_gcVictimSelect cls) fun d ⟨below, victim, holds⟩ => ?victimMoved,
    fun cls known => does_of_act (exec_gcVictimSelect cls) fun d ⟨below, victim, empty⟩ => ?victimSwept,
    does_of_act exec_pslcFoldStart fun d ⟨due, oldest⟩ => ?folded,
    does_of_act exec_journalCheckpoint fun d ⟨ready, superblock⟩ => if_pos (by simp [ready, superblock]),
    fun samples => does_of_act (exec_patrolZone samples) fun d ⟨enabled, on, read⟩ => if_neg ?patrols,
    fun torn => does_of_act (exec_recoveryStart [] torn) fun d ⟨on, notReady, first, valid⟩ => ?ringRead,
    fun torn => does_of_act (exec_recoveryStart [0, 1] torn) fun d ⟨on, notReady, first, two⟩ => ?superblockLost,
    does_of_act exec_recoveryBlockTableLoad fun d met => if_pos met,
    fun us seqUs => does_of_act (exec_recoveryComplete us seqUs) fun d met => if_pos met⟩
  case chunkLoaded =>
    rw [if_neg (by simp [uncached, there, noneFirst, reads])]
    simp [room, b2n]
  case itemFlushed =>
    rw [if_neg (by omega), if_neg (by simp [isItem, flushable, turn])]
    simp only [placed]
  case victimMoved =>
    rw [if_neg (by simp [known, below])]
    simp only [victim, if_neg holds]
  case victimSwept =>
    rw [if_neg (by simp [known, below])]
    simp only [victim, if_pos empty]
  case folded =>
    rw [if_pos (by simpa using due)]
    simp only [oldest]
  case patrols => simpa [enabled, on] using read
  case ringRead =>
    rw [if_neg (by simp [on, notReady, first])]
    simp only [List.not_mem_nil, if_false, List.map_id']
    exact if_pos valid
  case superblockLost =>
    rw [if_neg (by simp [on, notReady, first])]
    simp only [supers_bothFailed two, Jrn.sbOk_allFailed, Bool.false_eq_true, if_false]

end Sys2Proof.Machine

/-! The data windows (R239, R269): O54. A store writes the memory of one of the two writable windows, and what a byte reads as
follows from what a byte of that memory reads as. -/

namespace Sys2Proof.Machine

/-! ## Windows and offsets (R239) -/

/-- Addresses below 2^40 that name the same byte of the same window are the same. -/
theorem eq_winOf_offOf {a : Nat} (low : a < 2 ^ 40) : a = 2 ^ 36 * winOf a + offOf a := by
  simp only [winOf, offOf]
  omega

/-- Bytes that follow an address stay in its window while their offset stays below 2^36. -/
theorem winOf_add {a k : Nat} (within : offOf a + k < 2 ^ 36) : winOf (a + k) = winOf a := by
  simp only [winOf, offOf] at *
  omega
theorem offOf_add {a k : Nat} (within : offOf a + k < 2 ^ 36) : offOf (a + k) = offOf a + k := by
  simp only [offOf] at *
  omega

namespace Ctx

variable {c : Ctx} {a x n : Nat} {b : Bytes}

/-- A writable window is at most 2^36 bytes long where the scratch is. -/
theorem winLen_writable_le (writable : winOf a = 1 ∨ winOf a = 2) (scratch : c.scratch ≤ 2 ^ 36) :
    c.winLen (winOf a) ≤ 2 ^ 36 := by
  rcases writable with one | two
  · simp [one, winLen]
  · simpa [two, winLen] using scratch

/-- A valid write is below 2^40, in W1 or W2, and ends within its window. -/
theorem valid_write (valid : c.valid a n true = true) :
    a < 2 ^ 40 ∧ (winOf a = 1 ∨ winOf a = 2) ∧ offOf a + n ≤ c.winLen (winOf a) := by
  simp only [Ctx.valid, Bool.not_true, Bool.false_or, Bool.and_eq_true, decide_eq_true_eq] at valid
  obtain ⟨⟨⟨low, ends⟩, writable⟩, _⟩ := valid
  exact ⟨low, writable, ends⟩

/-! ## What a byte reads as -/

theorem byteAt_of_w1 (one : winOf x = 1) : c.byteAt x = mget c.w1 (offOf x) := by simp only [byteAt, one]
theorem byteAt_of_w2 (two : winOf x = 2) : c.byteAt x = mget c.w2 (offOf x) := by simp only [byteAt, two]

/-- Bytes put into one window leave the bytes of every other window. -/
theorem byteAt_putBytes_otherWindow (writable : winOf a = 1 ∨ winOf a = 2) (other : winOf x ≠ winOf a) :
    (c.putBytes a b).byteAt x = c.byteAt x := by
  rcases writable with one | two
  · simp only [putBytes, if_pos one, byteAt]
    split
    case h_2 inOne => exact absurd (inOne.trans one.symm) other
    all_goals rfl
  · simp only [putBytes, if_neg (show winOf a ≠ 1 by omega), byteAt]
    split
    case h_3 inTwo => exact absurd (inTwo.trans two.symm) other
    all_goals rfl

/-- In the window written, a byte reads as that memory does. -/
theorem byteAt_putBytes_sameWindow (wf1 : Memory.wf c.w1 = true) (wf2 : Memory.wf c.w2 = true)
    (writable : winOf a = 1 ∨ winOf a = 2) (same : winOf x = winOf a) : (c.putBytes a b).byteAt x =
      if offOf a ≤ offOf x ∧ offOf x < offOf a + b.length then b.getD (offOf x - offOf a) 0 else c.byteAt x := by
  rcases writable with one | two
  · rw [byteAt_of_w1 (same.trans one), byteAt_of_w1 (same.trans one), putBytes, if_pos one]
    exact mget_mwrite _ _ _ _ wf1
  · rw [byteAt_of_w2 (same.trans two), byteAt_of_w2 (same.trans two), putBytes, if_neg (by omega)]
    exact mget_mwrite _ _ _ _ wf2

/-! ## What else bytes put into a window leave -/

theorem putBytes_wf1 (wf1 : Memory.wf c.w1 = true) : Memory.wf (c.putBytes a b).w1 = true := by
  unfold putBytes
  split
  · exact mwrite_wf _ _ _ wf1
  · exact wf1
theorem putBytes_wf2 (wf2 : Memory.wf c.w2 = true) : Memory.wf (c.putBytes a b).w2 = true := by
  unfold putBytes
  split
  · exact wf2
  · exact mwrite_wf _ _ _ wf2

/-- Bytes put into a window leave the registers, the program counter and the stacks. -/
theorem putBytes_frame : (c.putBytes a b).x = c.x ∧ (c.putBytes a b).v = c.v ∧ (c.putBytes a b).p = c.p ∧
    (c.putBytes a b).pc = c.pc ∧ (c.putBytes a b).ret = c.ret ∧ (c.putBytes a b).loops = c.loops := by
  unfold putBytes
  split <;> exact ⟨rfl, rfl, rfl, rfl, rfl, rfl⟩

/-! ## Stores -/

/-- A store only marks tickets beside the bytes that it puts into its window. -/
theorem byteAt_store : (c.store a b).byteAt x = (c.putBytes a b).byteAt x := rfl

/-- Each byte of a valid store reads as stored. -/
theorem byteAt_store_within {k : Nat} (wf1 : Memory.wf c.w1 = true) (wf2 : Memory.wf c.w2 = true) (scratch : c.scratch ≤ 2 ^ 36)
    (valid : c.valid a b.length true = true) (within : k < b.length) : (c.store a b).byteAt (a + k) = b.getD k 0 := by
  obtain ⟨_, writable, ends⟩ := valid_write valid
  have inWindow : offOf a + k < 2 ^ 36 := by
    have := winLen_writable_le writable scratch
    omega
  rw [byteAt_store, byteAt_putBytes_sameWindow wf1 wf2 writable (winOf_add inWindow), offOf_add inWindow,
    if_pos (by omega), Nat.add_sub_cancel_left]

/-- Every byte beside a valid store reads as before. -/
theorem byteAt_store_beside (wf1 : Memory.wf c.w1 = true) (wf2 : Memory.wf c.w2 = true)
    (valid : c.valid a b.length true = true) (beside : x < a ∨ a + b.length ≤ x) (low : x < 2 ^ 40) :
    (c.store a b).byteAt x = c.byteAt x := by
  obtain ⟨lowA, writable, _⟩ := valid_write valid
  rw [byteAt_store]
  by_cases same : winOf x = winOf a
  · have atX := eq_winOf_offOf low
    have atA := eq_winOf_offOf lowA
    rw [same] at atX
    rw [byteAt_putBytes_sameWindow wf1 wf2 writable same, if_neg (by omega)]
  · exact byteAt_putBytes_otherWindow writable same

end Ctx

/-- Settles O54: a valid store lies in one of the two writable windows, so that a byte reads as the memory of its window does. -/
theorem storesKeepOtherBytes : Obligations.StoresKeepOtherBytes := by
  unfold Obligations.StoresKeepOtherBytes
  intro c a b wf1 wf2 scratch valid
  obtain ⟨x, v, p, pc, ret, loops⟩ := c.putBytes_frame (a := a) (b := b)
  exact ⟨fun _ within => Ctx.byteAt_store_within wf1 wf2 scratch valid within,
    fun _ beside low => Ctx.byteAt_store_beside wf1 wf2 valid beside low,
    x, v, p, pc, ret, loops, Ctx.putBytes_wf1 wf1, Ctx.putBytes_wf2 wf2⟩

end Sys2Proof.Machine

/-! Service calls (R247 to R249, R252 to R257, R303, R305): O13, O14 and O15. A row runs one function of the device and of the call
at hand, so that a clause holds where that function and the clause's effect agree under the clause's condition. -/

namespace Sys2Proof.Machine

/-- A row that runs service `n` by `k` does `e` for a call at hand wherever `k` and `e` agree. -/
theorem does_of_svc {i : Instr} {n : Nat} {q : Call} {h : Dev → Prop} {k : Dev → Call → Dev} {e : Dev → Dev}
    (runs : ∀ s, exec i s = act s fun d => d.svc q.ctx n k) (agrees : ∀ d, h d → k d q = e d) :
    Does i (fun d => d.calls n q ∧ h d) e :=
  does_of_act runs fun d ⟨calls, met⟩ => (Dev.svc_at calls k).trans (agrees d met)

/-! ## The meanings that the rows of service calls run -/

theorem exec_svcYield (ctx : Nat) (s : State) : exec (.svcYield ctx) s = execSvcYield ctx s := rfl
theorem exec_svcProgramExit (ctx : Nat) (s : State) : exec (.svcProgramExit ctx) s = execSvcProgramExit ctx s := rfl
theorem exec_svcDelay (ctx : Nat) (s : State) : exec (.svcDelay ctx) s = execSvcDelay ctx s := rfl
theorem exec_svcLogRecord (ctx : Nat) (s : State) : exec (.svcLogRecord ctx) s = execSvcLogRecord ctx s := rfl
theorem exec_svcWaitTimeout (ctx : Nat) (s : State) : exec (.svcWaitTimeout ctx) s = execSvcWaitTimeout ctx s := rfl
theorem exec_svcNextInput (ctx : Nat) (s : State) : exec (.svcNextInput ctx) s = execSvcNextInput ctx s := rfl
theorem exec_svcEmitOutput (ctx : Nat) (s : State) : exec (.svcEmitOutput ctx) s = execSvcEmitOutput ctx s := rfl
theorem exec_svcTongsQuery (ctx : Nat) (s : State) : exec (.svcTongsQuery ctx) s = execSvcTongsQuery ctx s := rfl
theorem exec_svcDigest (ctx : Nat) (tagOk : Bool) (s : State) : exec (.svcDigest ctx tagOk) s = execSvcDigest ctx tagOk s := rfl
theorem exec_svcCompress (ctx : Nat) (s : State) : exec (.svcCompress ctx) s = execSvcCompress ctx s := rfl
theorem exec_svcDecompress (ctx : Nat) (s : State) : exec (.svcDecompress ctx) s = execSvcDecompress ctx s := rfl

/-! ## Yield, exit, delay, log record and wait (R252, R253, R257) -/

/-- Settles O13: a clause's condition decides the tests of its service. What a wait for ticket 0 returns (log 69), the widths of
the log record (log 26) and the free values that a record draws (log 4) are the model's choices. -/
theorem shortServices : Obligations.ShortServices := by
  unfold Obligations.ShortServices
  intro q
  dsimp only
  refine ⟨does_of_svc (exec_svcYield q.ctx) fun _ _ => rfl, does_of_svc (exec_svcProgramExit q.ctx) fun _ _ => rfl,
    does_of_svc (exec_svcDelay q.ctx) fun d outOfRange => if_pos outOfRange,
    does_of_svc (exec_svcDelay q.ctx) fun d ⟨least, most⟩ => if_neg (by omega),
    does_of_svc (exec_svcLogRecord q.ctx) fun d outOfRange => if_pos outOfRange,
    does_of_svc (exec_svcLogRecord q.ctx) fun d ⟨least, most, invalid⟩ => ?recordFaults,
    does_of_svc (exec_svcLogRecord q.ctx) fun d ⟨least, most, valid, spent⟩ => ?recordDropped,
    does_of_svc (exec_svcLogRecord q.ctx) fun d ⟨least, most, valid, left⟩ => ?recordLogged,
    does_of_svc (exec_svcWaitTimeout q.ctx) fun d refused => if_pos refused,
    fun ticket most outstanding => ?waits⟩
  case recordFaults => exact (if_neg (by omega)).trans (if_pos invalid)
  case recordDropped => exact (if_neg (by omega)).trans ((if_neg (by simp [valid])).trans (if_pos spent))
  case recordLogged => exact (if_neg (by omega)).trans ((if_neg (by simp [valid])).trans (if_neg (Nat.not_le.mpr left)))
  case waits =>
    have taken : ¬ (4 < q.c.arg 2 ∨ 60000000 < q.c.arg 3 ∨ q.c.outstanding (q.c.arg 2) = false) := by
      simp [ticket, most, outstanding]
    refine ⟨fun x ended => does_of_svc (exec_svcWaitTimeout q.ctx) fun d _ => (if_neg taken).trans ?_,
      fun pending atOnce => does_of_svc (exec_svcWaitTimeout q.ctx) fun d _ => (if_neg taken).trans ?_,
      fun pending later => does_of_svc (exec_svcWaitTimeout q.ctx) fun d _ => (if_neg taken).trans ?_⟩
    · simp only [ended]
    · simp only [pending, if_pos atOnce]
    · simp only [pending, if_neg (show q.c.arg 3 ≠ 0 by omega)]

/-! ## Input and output (R247, R248, R249) -/

/-- Settles O14: whether a chunk waits and whether a buffer stands decide the branches. That an emit past OUTPUT_LENGTH stops
the program at the call (log 128) is the model's choice. -/
theorem inputAndOutputServices : Obligations.InputAndOutputServices := by
  unfold Obligations.InputAndOutputServices
  intro q
  dsimp only
  refine ⟨fun i t waiting => does_of_svc (exec_svcNextInput q.ctx) fun d _ => ?mapped,
    fun noneWaits => does_of_svc (exec_svcNextInput q.ctx) fun d atEnd => ?ended,
    fun noneWaits => does_of_svc (exec_svcNextInput q.ctx) fun d ⟨goesOn, left⟩ => ?waits,
    does_of_svc (exec_svcEmitOutput q.ctx) fun d tooLong => if_pos tooLong,
    does_of_svc (exec_svcEmitOutput q.ctx) fun d empty => (if_neg (by omega)).trans (if_pos empty),
    fun least most buffer => ⟨does_of_svc (exec_svcEmitOutput q.ctx) fun d full => ?stops,
      fun x => does_of_svc (exec_svcEmitOutput q.ctx) fun d ⟨room, fresh⟩ => ?emits,
      does_of_svc (exec_svcEmitOutput q.ctx) fun d ⟨room, noFresh⟩ => ?waitsAfter⟩,
    fun least most noBuffer => does_of_svc (exec_svcEmitOutput q.ctx) fun d noFresh => ?waitsBefore⟩
  case mapped => cases q.w.cur <;> simp only [waiting]
  case ended =>
    simp only [noneWaits]
    exact if_pos (Bool.or_eq_true_iff.mpr atEnd)
  case waits =>
    simp only [noneWaits]
    exact if_neg (by simpa using ⟨goesOn, left⟩)
  all_goals rw [if_neg (by omega), if_neg (by omega)]
  case stops => simp [buffer, full]
  case emits =>
    simp only [buffer, if_true, room, Bool.false_eq_true, if_false]
    split at fresh
    next stands =>
      obtain ⟨i, stands⟩ := Option.isSome_iff_exists.mp stands
      cases fresh
      simp only [stands]
    next none => simp only [Option.not_isSome_iff_eq_none.mp none, fresh]
  case waitsAfter =>
    simp only [buffer, if_true, room, Bool.false_eq_true, if_false]
    split at noFresh
    next => cases noFresh
    next none => simp only [Option.not_isSome_iff_eq_none.mp none, noFresh]
  case waitsBefore => simp [noBuffer, noFresh]

/-! ## Tongs and the engines (R254, R255, R303, R305) -/

/-- Service 5 in the direction `op` is accepted with ticket `no`: it is asked for with lengths and a level in range, spans that are
valid and apart, a free ticket, and an engine of CXE alive (R256, R299). -/
def Dev.cxeAccepts (d : Dev) (q : Call) (op no : Nat) : Prop :=
  b2n (bit (q.c.arg 2) 0) = op ∧ (op = 0 → 1 ≤ bitsOf (q.c.arg 2) 4 4 ∧ bitsOf (q.c.arg 2) 4 4 ≤ 12) ∧
    q.c.arg 4 ≤ 2 ^ 26 ∧ q.c.arg 6 ≤ 2 ^ 26 ∧ ¬(q.c.arg 3 < q.c.arg 5 + q.c.arg 6 ∧ q.c.arg 5 < q.c.arg 3 + q.c.arg 4) ∧
    q.c.valid (q.c.arg 3) (q.c.arg 4) false = true ∧ q.c.valid (q.c.arg 5) (q.c.arg 6) true = true ∧
    q.c.newTicket (bit (q.c.arg 7) 0) = some no ∧ d.aliveEngs 0 ≠ []

/-- An accepted call of service 5 has asked for a unit of pool 25, and its job waits for the engine (R303). -/
def Dev.cxeStarted (d : Dev) (q : Call) (op no : Nat) : Dev :=
  let r := d.request 25 q.w.ref.fix 1 (.waybill q.w.id)
  let j : CJob := { op := op, level := if op = 0 then bitsOf (q.c.arg 2) 4 4 else 0, ticket := no, fix := q.w.ref.fix
                    epoch := q.w.epoch % 65536, caller := q.ctx, wb := q.w.id, state := b2n r.2, src := q.c.getX 3
                    srcLen := q.c.arg 4, dst := q.c.getX 5, dstCap := q.c.arg 6 }
  ({ r.1 with cxe := { r.1.cxe with waiting := r.1.cxe.waiting ++ [j] } }).startOp q
    { no := no, svc := 5, src := q.c.arg 3, srcLen := q.c.arg 4, dst := q.c.arg 5, dstLen := q.c.arg 6 }

theorem Dev.startCxe_accepted {d : Dev} {q : Call} {op no : Nat} (accepts : d.cxeAccepts q op no) :
    d.startCxe q op = d.cxeStarted q op no := by
  obtain ⟨way, level, short, fits, apart, reads, writes, ticket, alive⟩ := accepts
  simp only [Dev.startCxe]
  rw [if_neg (Classical.not_not.mpr way), if_neg (by omega), if_neg (by simp [reads, writes])]
  simp only [ticket]
  exact if_neg (by simpa using alive)

/-- The digest operation that an unkeyed START opens. -/
theorem Dev.digestOpen_unkeyed {d : Dev} {q : Call} {alg : Nat} (unkeyed : alg < 4) :
    d.digestOpen q alg true = .ok ({ alg := alg }, false) := by
  have known : alg % 8 < 4 ∧ alg < 12 := by omega
  simp [Dev.digestOpen, known, show alg < 8 by omega]

/-- Settles O15: a clause's condition decides each test of its service; an x6 of 0 asks Tongs for no stepping, and an
unkeyed START opens an operation without a key slot. -/
theorem engineServices : Obligations.EngineServices := by
  unfold Obligations.EngineServices
  intro q no
  dsimp only
  refine ⟨does_of_svc (exec_svcCompress q.ctx) fun d accepts => Dev.startCxe_accepted accepts,
    does_of_svc (exec_svcDecompress q.ctx) fun d accepts => Dev.startCxe_accepted accepts,
    does_of_svc (exec_svcTongsQuery q.ctx)
      fun d ⟨unit, least, most, plain, reads, writes, owned, kept, ticket, issues⟩ => ?searches,
    does_of_svc (exec_svcDigest q.ctx true)
      fun d ⟨idle, short, unkeyed, starts, goesOn, reads, unlocked, ticket, alive⟩ => ?digests⟩
  case searches =>
    have noStep : bit (q.c.arg 6) 0 = false := by simp [plain, bit]
    have noLimit : bitsOf (q.c.arg 6) 16 16 = 0 := by simp [plain, bitsOf]
    simp only [noStep, noLimit, Bool.false_eq_true, if_false]
    rw [if_neg (by simp [plain, bitsOf]; omega), if_neg (by simp [reads, writes]), if_neg (by simp [owned, kept])]
    simp only [ticket]
    exact if_neg (by simp [issues])
  case digests =>
    have notLong : ¬ 2 ^ 26 < q.c.arg 4 := by omega
    have noKey : decide (8 ≤ bitsOf (q.c.arg 2) 0 4) = false := by simp; omega
    simp only [idle, Bool.false_eq_true, if_false, if_neg notLong, starts, Dev.digestOpen_unkeyed unkeyed, goesOn]
    rw [if_neg (by simp [reads]), if_neg (by simp [unlocked])]
    simp only [ticket]
    rw [if_neg (by simpa using alive), if_neg (by simp)]
    simp only [noKey]

end Sys2Proof.Machine

/-! The start of a Waybill (R236, R240, R243): O16. -/

namespace Sys2Proof.Machine

/-! ## The meanings that the rows of a Waybill's start run -/

theorem exec_waybillAdmitted (wb : Nat) (s : State) : exec (.waybillAdmitted wb) s = execWaybillAdmitted wb s := rfl
theorem exec_imageFetch (slot : Nat) (s : State) : exec (.imageFetch slot) s = execImageFetch slot s := rfl
theorem exec_instanceStart (wb : Nat) (s : State) : exec (.instanceStart wb) s = execInstanceStart wb s := rfl

/-! ## The units of a Waybill (R238) -/

/-- A unit that a Waybill holds is not taken up again. -/
theorem Dev.collect_held {d : Dev} {id p : Nat} {w : Waybill} (stands : d.wb id = some w) (held : p ∈ w.got) :
    d.collect id p = d := by
  simp only [Dev.collect, stands, if_pos held]

/-- Settles O16: a clause's condition decides the tests of its row, and a Waybill that holds its units takes up none. An output
buffer taken at the start (log 66), four codewords counted per page of an image (log 92) and the Hearth chosen at the start
(log 124) are the model's choices. -/
theorem waybillStarts : Obligations.WaybillStarts := by
  unfold Obligations.WaybillStarts
  intro wb n h w im
  dsimp only
  refine ⟨does_of_act (exec_waybillAdmitted wb) fun d ⟨stands, image, admitting, admitted⟩ => ?requests,
    does_of_act (exec_imageFetch w.slot) fun d ⟨awaited, image, unread, reads⟩ => ?fetches,
    does_of_act (exec_instanceStart wb)
      fun d ⟨stands, image, fetched, waiting, has17, has21, has22, hearth, thread, room⟩ => ?starts⟩
  case requests =>
    simp only [stands, if_pos admitted, image]
    exact if_neg (Classical.not_not.mpr admitting)
  case fetches =>
    rw [if_pos (by simpa using awaited)]
    simp only [image]
    rw [if_neg (by simp [reads]), if_neg (by simp [unread])]
  case starts =>
    simp only [Dev.collect_held stands has21, Dev.collect_held stands has22, Dev.collect_held stands has17, stands, image,
      hearth, thread]
    rw [if_neg (by simp [waiting, has17, has21, has22, fetched]), if_neg (by simp [room])]
    cases Dev.takeBuf _ _ with
    | none => rfl
    | some r => rfl

end Sys2Proof.Machine

/-! Feresk words and registers (R261, R263): O52 and O53. -/

namespace Sys2Proof.Machine

/-! ## Fields of a number -/

theorem b2n_lt_two (b : Bool) : b2n b < 2 := by cases b <;> decide

theorem decide_b2n_eq_one (b : Bool) : decide (b2n b = 1) = b := by cases b <;> rfl

theorem bitsOf_lt (n lo w : Nat) : bitsOf n lo w < 2 ^ w := Nat.mod_lt _ (Nat.two_pow_pos w)

theorem b2n_bitsOf_one (n lo : Nat) : b2n (decide (bitsOf n lo 1 = 1)) = bitsOf n lo 1 := by
  have lt := bitsOf_lt n lo 1
  simp only [b2n, decide_eq_true_eq]
  split <;> omega

/-- The bits below `lo + w` of a number are those below `lo` and the field of `w` bits that stands there. -/
theorem mod_two_pow_add_width (n lo w : Nat) : n % 2 ^ (lo + w) = n % 2 ^ lo + 2 ^ lo * bitsOf n lo w := by
  rw [Nat.pow_add, Nat.mod_mul, bitsOf]

/-! ## The instruction word (R263) -/

theorem Fw.fits_iff {f : Fw} : f.fits = true ↔
    f.op < 256 ∧ f.dst < 32 ∧ f.a < 32 ∧ f.b < 32 ∧ f.pn < 8 ∧ f.esz < 4 ∧ f.imm < 2 ^ 32 := decide_eq_true_iff

theorem Fw.fits_decode (w : Nat) : (Fw.decode w).fits = true :=
  Fw.fits_iff.mpr ⟨bitsOf_lt w 56 8, bitsOf_lt w 51 5, bitsOf_lt w 46 5, bitsOf_lt w 41 5, bitsOf_lt w 37 3,
    bitsOf_lt w 35 2, bitsOf_lt w 0 32⟩

/-- The fields read from a word, put together from the lowest upward, are the whole of its 64 bits. -/
theorem Fw.encode_decode {w : Nat} (lt : w < 2 ^ 64) : (Fw.decode w).encode = w := by
  calc (Fw.decode w).encode = w % 2 ^ 64 := by
        simp only [Fw.encode, Fw.decode, b2n_bitsOf_one]
        rw [mod_two_pow_add_width w 56 8, mod_two_pow_add_width w 51 5, mod_two_pow_add_width w 46 5,
          mod_two_pow_add_width w 41 5, mod_two_pow_add_width w 40 1, mod_two_pow_add_width w 37 3,
          mod_two_pow_add_width w 35 2, mod_two_pow_add_width w 34 1, mod_two_pow_add_width w 33 1,
          mod_two_pow_add_width w 32 1, mod_two_pow_add_width w 0 32, Nat.pow_zero, Nat.mod_one, Nat.zero_add, Nat.one_mul]
    _ = w := Nat.mod_eq_of_lt lt

/-- Fields within their widths do not overlap in their word, so that each is read back from its place. -/
theorem Fw.decode_encode {f : Fw} (fits : f.fits = true) : f.encode < 2 ^ 64 ∧ Fw.decode f.encode = f := by
  obtain ⟨op, dst, a, b, pn, esz, imm⟩ := Fw.fits_iff.mp fits
  have pg := b2n_lt_two f.pg
  have idx := b2n_lt_two f.idx
  have zero := b2n_lt_two f.zero
  have sg := b2n_lt_two f.sg
  have atPg : bitsOf f.encode 40 1 = b2n f.pg := by simp only [bitsOf, Fw.encode]; omega
  have atIdx : bitsOf f.encode 34 1 = b2n f.idx := by simp only [bitsOf, Fw.encode]; omega
  have atZero : bitsOf f.encode 33 1 = b2n f.zero := by simp only [bitsOf, Fw.encode]; omega
  have atSg : bitsOf f.encode 32 1 = b2n f.sg := by simp only [bitsOf, Fw.encode]; omega
  refine ⟨by rw [Fw.encode]; omega, ?_⟩
  simp only [Fw.decode, atPg, atIdx, atZero, atSg, decide_b2n_eq_one]
  congr 1 <;> simp only [bitsOf, Fw.encode] <;> omega

/-- Settles O52: a word is the sum of its fields, each in its own place. -/
theorem fereskWordsRoundTrip : Obligations.FereskWordsRoundTrip := by
  unfold Obligations.FereskWordsRoundTrip
  exact ⟨fun _ fits => Fw.decode_encode fits, fun w lt => ⟨Fw.fits_decode w, Fw.encode_decode lt⟩⟩

/-! ## Registers (R261) -/

namespace Ctx

variable (c : Ctx) {n m : Nat} (v : BitVec 64) (u : BitVec 512) (p : Pred)

theorem getX_zero : c.getX 0 = 0 := rfl
theorem setX_zero : c.setX 0 v = c := rfl
theorem setX_of_ne (notZero : n ≠ 0) : c.setX n v = { c with x := fset c.x n v } := if_neg notZero

theorem getX_setX_same (notZero : n ≠ 0) : (c.setX n v).getX n = v := by
  simp only [setX_of_ne c v notZero, getX, if_neg notZero, fget_fset_same]
theorem getX_setX_other (other : m ≠ n) : (c.setX n v).getX m = c.getX m := by
  by_cases isZero : n = 0
  · rw [isZero, setX_zero]
  · simp only [setX_of_ne c v isZero, getX, fget_fset_other _ _ _ _ _ other]
theorem getV_setV_same : (c.setV n u).getV n = u := fget_fset_same ..
theorem getV_setV_other (other : m ≠ n) : (c.setV n u).getV m = c.getV m := fget_fset_other _ _ _ _ _ other
theorem getP_setP_same : (c.setP n p).getP n = p := fget_fset_same ..
theorem getP_setP_other (other : m ≠ n) : (c.setP n p).getP m = c.getP m := fget_fset_other _ _ _ _ _ other

/-- A write to a register leaves the program counter, the stacks and every byte of the windows. -/
theorem setX_frame : (c.setX n v).pc = c.pc ∧ (c.setX n v).ret = c.ret ∧ (c.setX n v).loops = c.loops ∧
    ∀ a, (c.setX n v).byteAt a = c.byteAt a := by
  by_cases isZero : n = 0
  · rw [isZero, setX_zero]
    exact ⟨rfl, rfl, rfl, fun _ => rfl⟩
  · rw [setX_of_ne c v isZero]
    exact ⟨rfl, rfl, rfl, fun _ => rfl⟩

end Ctx

/-- Settles O53: the registers are finite maps, which read back what was written under a key and keep the rest. -/
theorem registerWritesReadBack : Obligations.RegisterWritesReadBack := by
  unfold Obligations.RegisterWritesReadBack
  intro c n m v u p
  refine ⟨c.getX_zero, c.setX_zero v, c.getX_setX_same v, c.getX_setX_other v, c.getV_setV_same u, c.getV_setV_other u,
    c.getP_setP_same p, c.getP_setP_other p, ?frame⟩
  case frame =>
    simp only [List.forall_mem_cons, List.not_mem_nil, false_imp_iff, implies_true, and_true]
    exact ⟨c.setX_frame v, ⟨rfl, rfl, rfl, fun _ => rfl⟩, ⟨rfl, rfl, rfl, fun _ => rfl⟩⟩

end Sys2Proof.Machine

/-! Feresk instructions and graphs (R266 to R272, R274, R275, R361, R363): O1 to O10 and O12. An instruction runs one
function of its context and its fields, so that a row holds where that function's value is the row's. The first argument of a
row's lemma says which function exec runs for the row: it is exec unfolded, `fun _ => rfl`. -/

namespace Sys2Proof.Machine

/-! ## The rows of instructions (R277) -/

section

variable {i : Instr} {ctx op id code : Nat} {c x : Ctx} {f : Fw} {e : Image → Ctx → Fw → Except Nat Ctx}

theorem does_instr_ok (runs : ∀ s, exec i s = act s fun d => d.instr ctx op e) (ok : ∀ im, e im c f = .ok x) :
    Does i (fun d => d.at ctx op id c f) (fun d => d.leaves id x) :=
  does_of_act runs fun _ ⟨im, here⟩ => Dev.instr_ok here (ok im)

theorem does_instr_fault (runs : ∀ s, exec i s = act s fun d => d.instr ctx op e) (bad : ∀ im, e im c f = .error code) :
    Does i (fun d => d.at ctx op id c f) (fun d => d.faultInstance id code c.pc.toNat) :=
  does_of_act runs fun _ ⟨im, here⟩ => Dev.instr_fault here (bad im)

/-- An access completes where its bytes are valid, and else faults with cause code 1. -/
theorem does_access {valid : Prop} [Decidable valid] (runs : ∀ s, exec i s = act s fun d => d.instr ctx op e)
    (tests : ∀ im, e im c f = if valid then .ok x else .error 1) :
    (valid → Does i (fun d => d.at ctx op id c f) (fun d => d.leaves id x)) ∧
      (¬valid → Does i (fun d => d.at ctx op id c f) (fun d => d.faultInstance id 1 c.pc.toNat)) :=
  ⟨fun holds => does_instr_ok runs fun im => (tests im).trans (if_pos holds),
    fun fails => does_instr_fault runs fun im => (tests im).trans (if_neg fails)⟩

theorem does_plain {e : Ctx → Fw → Ctx} (runs : ∀ s, exec i s = act s fun d => d.plain ctx op e) (value : e c f = x) :
    Does i (fun d => d.at ctx op id c f) (fun d => d.leaves id x.next) :=
  does_of_act runs fun _ atHand => value ▸ Dev.plain_at atHand e

theorem does_alu {g : BitVec 64 → BitVec 64 → BitVec 64} {v : BitVec 64}
    (runs : ∀ s, exec i s = act s fun d => d.alu ctx op g) (value : g (c.getX f.a) (c.opB f) = v) :
    Does i (fun d => d.at ctx op id c f) (fun d => d.leaves id (c.setX f.dst v).next) :=
  does_plain runs (congrArg (c.setX f.dst) value)

theorem does_valu {g : Fw → Nat → Nat → Nat} {h : Nat → Nat} (runs : ∀ s, exec i s = act s fun d => d.valu ctx op g)
    (value : ∀ k, g f (c.laneA f k) (c.laneB f k) = h k) :
    Does i (fun d => d.at ctx op id c f) (fun d => d.leaves id (c.putLanes f h).next) :=
  does_plain runs (congrArg (c.putLanes f) (funext value))

theorem does_vcmp {g : Fw → Nat → Nat → Bool} {h : Nat → Bool} (runs : ∀ s, exec i s = act s fun d => d.vcmp ctx op g)
    (value : ∀ k, g f (c.laneA f k) (c.laneB f k) = h k) : Does i (fun d => d.at ctx op id c f)
      (fun d => d.leaves id (c.setP f.dst (Pred.of f.esz (fun k => c.activeLane f k && h k))).next) :=
  does_plain runs (congrArg (c.putPred f) (funext value))

/-- A branch leaves the context at PC + 8 × imm where it is taken, else at PC + 8. -/
theorem does_branch {taken : Ctx → Fw → Bool} {p : Prop} (runs : ∀ s, exec i s = act s fun d => d.branch ctx op taken)
    (cond : taken c f = true ↔ p) :
    (p → Does i (fun d => d.at ctx op id c f) (fun d => d.leaves id { c with pc := c.pc + BitVec.ofNat 64 (8 * f.imm) })) ∧
      (¬p → Does i (fun d => d.at ctx op id c f) (fun d => d.leaves id { c with pc := c.pc + 8 })) :=
  ⟨fun holds => does_instr_ok runs fun _ => congrArg Except.ok (if_pos (cond.mpr holds)),
    fun fails => does_instr_ok runs fun _ => congrArg Except.ok (if_neg (fails ∘ cond.mp))⟩

end

/-! ## Scalar instructions (R266, R267) -/

/-- A choice by one test is the choice by a test that says the same. -/
theorem ite_eq_of_iff {α : Type} {p q : Prop} [Decidable p] [Decidable q] {a b : α} (same : p ↔ q) :
    (if p then a else b) = if q then a else b := ite_congr (propext same) (fun _ => rfl) fun _ => rfl

/-- Settles O1: the model's comparisons of words are those of the numbers they stand for. -/
theorem scalarArithmeticWritesDst : Obligations.ScalarArithmeticWritesDst := by
  unfold Obligations.ScalarArithmeticWritesDst
  intro ctx id c f
  dsimp only
  refine ⟨?add, ?sub, ?and, ?or, ?xor, ?andn, ?min, ?max, ?minu, ?maxu, ?sll, ?srl, ?sra, ?ror, ?slt, ?sltu, ?seq⟩
  case min | max => exact does_alu (fun _ => rfl) (ite_eq_of_iff BitVec.sle_iff_toInt_le)
  case minu | maxu => exact does_alu (fun _ => rfl) (ite_eq_of_iff BitVec.ule_iff_toNat_le)
  case slt => exact does_alu (fun _ => rfl) (ite_eq_of_iff BitVec.slt_iff_toInt_lt)
  case sltu => exact does_alu (fun _ => rfl) (ite_eq_of_iff BitVec.ult_iff_toNat_lt)
  case seq => exact does_alu (fun _ => rfl) (ite_eq_of_iff beq_iff_eq)
  all_goals exact does_alu (fun _ => rfl) rfl

theorem sdiv_eq_ofInt_tdiv (a b : BitVec 64) : a.sdiv b = BitVec.ofInt 64 (a.toInt.tdiv b.toInt) :=
  BitVec.eq_of_toInt_eq (by rw [BitVec.toInt_sdiv, BitVec.toInt_ofInt])

theorem srem_eq_ofInt_tmod (a b : BitVec 64) : a.srem b = BitVec.ofInt 64 (a.toInt.tmod b.toInt) := by
  rw [← BitVec.toInt_srem, BitVec.ofInt_toInt]

/-- Settles O2: DIV and REM truncate toward zero, and the least number by -1 wraps to itself with remainder 0. -/
theorem multiplyDivideWriteDst : Obligations.MultiplyDivideWriteDst := by
  unfold Obligations.MultiplyDivideWriteDst
  intro ctx id c f
  dsimp only
  refine ⟨?mul, ?mulh, ?mulhu, ?div, ?divu, ?rem, ?remu, fun least minusOne => ⟨?divLeast, ?remLeast⟩⟩
  case div => exact does_alu (fun _ => rfl) (ite_congr rfl (fun _ => rfl) fun _ => sdiv_eq_ofInt_tdiv ..)
  case divu => exact does_alu (fun _ => rfl) (ite_congr rfl (fun _ => rfl) fun _ => BitVec.udiv_def)
  case rem => exact does_alu (fun _ => rfl) (ite_congr rfl (fun _ => rfl) fun _ => srem_eq_ofInt_tmod ..)
  case remu => exact does_alu (fun _ => rfl) (ite_congr rfl (fun _ => rfl) fun _ => BitVec.umod_def)
  case divLeast | remLeast => exact does_alu (fun _ => rfl) (by rw [least, minusOne]; decide)
  all_goals exact does_alu (fun _ => rfl) rfl

/-- Settles O3: the model counts set bits as those that pass a filter, and tests EXT's sign as a Bool. -/
theorem countsAndMovesWriteDst : Obligations.CountsAndMovesWriteDst := by
  unfold Obligations.CountsAndMovesWriteDst
  intro ctx id c f
  dsimp only
  refine ⟨?nop, ?clz, ?ctz, ?popc, ?bswap, ?ext, ?movi, ?movhi⟩
  case popc => exact does_alu (fun _ => rfl) (congrArg (BitVec.ofNat 64) List.countP_eq_length_filter.symm)
  case ext => exact does_plain (fun _ => rfl) (congrArg (c.setX f.dst) (ite_eq_of_iff Bool.and_eq_true_iff))
  all_goals exact does_plain (fun _ => rfl) rfl

/-! ## Branches (R268) -/

/-- Settles O4: the model's tests of words are those of the numbers they stand for. -/
theorem branchesMovePcOnly : Obligations.BranchesMovePcOnly := by
  unfold Obligations.BranchesMovePcOnly
  intro ctx id c f
  dsimp only
  refine ⟨?b, ?beq, ?bne, ?blt, ?bge, ?bltu, ?bgeu, ?bpany, ?bpnone⟩
  case b => exact does_branch (fun _ => rfl) (iff_of_true rfl trivial)
  case beq | bpnone => exact does_branch (fun _ => rfl) beq_iff_eq
  case bne | bpany => exact does_branch (fun _ => rfl) bne_iff_ne
  case blt => exact does_branch (fun _ => rfl) BitVec.slt_iff_toInt_lt
  case bge => exact does_branch (fun _ => rfl) BitVec.sle_iff_toInt_le
  case bltu => exact does_branch (fun _ => rfl) BitVec.ult_iff_toNat_lt
  case bgeu => exact does_branch (fun _ => rfl) BitVec.ule_iff_toNat_le

/-! ## Vectors (R271) -/

/-- Settles O5: the model compares signed lanes as a Bool. -/
theorem vectorLanesWritten : Obligations.VectorLanesWritten := by
  unfold Obligations.VectorLanesWritten
  intro ctx id c f
  dsimp only
  refine ⟨?vadd, ?vsub, ?vand, ?vor, ?vxor, ?vandn, ?vmin, ?vmax, ?vminu, ?vmaxu, ?vmul, ?vsll, ?vsrl, ?vsra, ?vmov, ?vsplat⟩
  case vmin | vmax => exact does_valu (fun _ => rfl) fun _ => ite_eq_of_iff decide_eq_true_iff
  all_goals exact does_plain (fun _ => rfl) rfl

/-- Settles O6: the model's tests of lanes are Bools. -/
theorem vectorComparesWritePredicate : Obligations.VectorComparesWritePredicate := by
  unfold Obligations.VectorComparesWritePredicate
  intro ctx id c f
  dsimp only
  refine ⟨?vcmpeq, ?vcmpne, ?vcmplt, ?vcmpltu, ?vcmple, ?vcmpleu⟩
  case vcmpeq => exact does_vcmp (fun _ => rfl) fun _ => Bool.eq_iff_iff.mpr (beq_iff_eq.trans decide_eq_true_iff.symm)
  case vcmpne => exact does_vcmp (fun _ => rfl) fun _ => Bool.eq_iff_iff.mpr (bne_iff_ne.trans decide_eq_true_iff.symm)
  all_goals exact does_vcmp (fun _ => rfl) fun _ => rfl

/-- Settles O7: each row's value is the one that its function gives. -/
theorem vectorRearranges : Obligations.VectorRearranges := by
  unfold Obligations.VectorRearranges
  intro ctx id c f
  dsimp only
  refine ⟨?vext, ?vins, ?vperm, ?valign, ?vpack, ?vredadd, ?vredmin, ?vredmax⟩
  all_goals exact does_plain (fun _ => rfl) rfl

/-! ## Predicates (R272) -/

theorem Pred.length_filter_bits (p : Pred) (esz : Nat) :
    ((p.bits esz).filter id).length = (List.range (laneCount esz)).countP (p.bitAt esz) := by
  rw [Pred.bits, ← List.countP_eq_length_filter, List.countP_map, Function.id_comp]

/-- Settles O8: the model counts the set lanes as those of the list of bits that pass a filter. -/
theorem predicateInstructions : Obligations.PredicateInstructions := by
  unfold Obligations.PredicateInstructions
  intro ctx id c f
  dsimp only
  refine ⟨?pand, ?por, ?pxor, ?pandn, ?prange, ?pcnt, ?pfirst, ?ptox, ?xtop⟩
  case pcnt =>
    exact does_plain (fun _ => rfl) (congrArg (fun n => c.setX f.dst (BitVec.ofNat 64 n)) (Pred.length_filter_bits ..))
  all_goals exact does_plain (fun _ => rfl) rfl

/-! ## Loads and stores (R269, R270) -/

namespace Ctx

variable (c : Ctx) (f : Fw)

theorem scaledAddr_eq : c.scaledAddr f = (c.getX f.a + f.val + if f.idx = true then c.getX f.b <<< f.esz else 0).toNat := by
  unfold scaledAddr
  split
  · rfl
  · exact congrArg BitVec.toNat (BitVec.add_zero _).symm

theorem plainAddr_eq : c.plainAddr f = (c.getX f.a + f.val + if f.idx = true then c.getX f.b else 0).toNat := by
  unfold plainAddr
  split
  · rfl
  · exact congrArg BitVec.toNat (BitVec.add_zero _).symm

/-- A vector load tests the bytes of its active lanes. -/
theorem vload_eq (addr : Nat → Nat) : c.vload f addr =
    if ∀ k ∈ c.activeLanes f, c.valid (addr k) f.size false = true then
      .ok (((c.activeLanes f).foldl (fun r k => if r.free = c.free then r.draw (addr k) f.size else r)
        (c.putLanes f fun k => c.readVal (addr k) f.size)).next)
    else .error 1 := by
  simp only [vload, List.all_eq_true]

/-- A vector store tests the bytes of its active lanes. -/
theorem vstore_eq (addr : Nat → Nat) : c.vstore f addr =
    if ∀ k ∈ c.activeLanes f, c.valid (addr k) f.size true = true then
      .ok (((c.activeLanes f).foldl (fun r k => r.store (addr k) (leBytes f.size (laneOf f.esz (c.getV f.dst) k))) c).next)
    else .error 1 := by
  simp only [vstore, List.all_eq_true]

end Ctx

/-- Settles O9: a row tests the bytes of its active lanes. The free values that a load draws (log 4) are the model's choice. -/
theorem loadsAndStores : Obligations.LoadsAndStores := by
  unfold Obligations.LoadsAndStores
  intro ctx id c f
  dsimp only
  simp only [← c.scaledAddr_eq f, ← c.plainAddr_eq f]
  refine ⟨?ld, ?st, ?vld, ?vldb, ?vgather, ?vst, ?vscatter⟩
  case ld | st => exact does_access (fun _ => rfl) fun _ => rfl
  case vld | vldb | vgather => exact does_access (fun _ => rfl) fun _ => c.vload_eq f _
  case vst | vscatter => exact does_access (fun _ => rfl) fun _ => c.vstore_eq f _

/-! ## Atomics (R275) -/

section

variable {i : Instr} {ctx op id : Nat} {c : Ctx} {f : Fw} {g : Ctx → Fw → Nat → Nat} {new : Nat}

/-- An atomic completes on an aligned valid word; alignment is tested first. -/
theorem does_atomic (runs : ∀ s, exec i s = act s fun d => d.instr ctx op fun _ c f => c.atomic f (g c f))
    (value : g c f (c.readVal (c.baseAddr f).toNat f.size) = new) :
    let n := f.size
    let a := (c.baseAddr f).toNat
    let old := c.readVal a n
    (a % n = 0 → c.valid a n true = true → Does i (fun d => d.at ctx op id c f) (fun d =>
      d.leaves id ((((c.draw a n).store a (leBytes n new)).setX f.dst (BitVec.ofNat 64 old)).next))) ∧
    (a % n ≠ 0 → Does i (fun d => d.at ctx op id c f) (fun d => d.faultInstance id 2 c.pc.toNat)) ∧
    (a % n = 0 → c.valid a n true = false →
      Does i (fun d => d.at ctx op id c f) (fun d => d.faultInstance id 1 c.pc.toNat)) :=
  ⟨fun aligned valid => does_instr_ok runs fun _ => value ▸ (if_neg (Classical.not_not.mpr aligned)).trans (if_pos valid),
    fun misaligned => does_instr_fault runs fun _ => if_pos misaligned,
    fun aligned invalid => does_instr_fault runs fun _ =>
      (if_neg (Classical.not_not.mpr aligned)).trans (if_neg (Bool.eq_false_iff.mp invalid))⟩

end

namespace Ctx

variable {c : Ctx} {f : Fw}

/-- The cause code that lane `k`'s word gives VAADD, if it is not aligned or not valid. -/
def wordCause (c : Ctx) (f : Fw) : Nat → Option Nat := fun k =>
  if c.laneAddr f k % f.size ≠ 0 then some 2 else if c.valid (c.laneAddr f k) f.size true then none else some 1

theorem wordCause_none {k : Nat} (aligned : c.laneAddr f k % f.size = 0) (valid : c.valid (c.laneAddr f k) f.size true = true) :
    c.wordCause f k = none := (if_neg (Classical.not_not.mpr aligned)).trans (if_pos valid)

/-- VAADD ends with the first cause among its active lanes; with none, each lane in turn adds to its word. -/
theorem vaadd_eq : c.vaadd f = ((c.activeLanes f).findSome? (c.wordCause f)).elim
    (.ok (((c.activeLanes f).foldl (fun r k => (r.draw (c.laneAddr f k) f.size).store (c.laneAddr f k)
      (leBytes f.size (r.readVal (c.laneAddr f k) f.size + laneOf f.esz (c.getV f.dst) k))) c).next)) .error := by
  unfold vaadd wordCause
  dsimp only
  cases List.findSome? _ (c.activeLanes f) <;> rfl

end Ctx

/-- Settles O10: alignment is tested before validity, and VAADD's lowest faulty lane decides the cause (log 68); the free values
that an atomic draws (log 4) are the model's choice. -/
theorem atomicsReadModifyWrite : Obligations.AtomicsReadModifyWrite := by
  unfold Obligations.AtomicsReadModifyWrite
  intro ctx id c f
  dsimp only
  refine ⟨?aadd, ?aand, ?aor, ?axor, ?aminu, ?amaxu, ?axchg, ?acas, fun good => ?vaaddGood, fun code bad => ?vaaddBad⟩
  case vaaddGood =>
    have noneBad : (c.activeLanes f).findSome? (c.wordCause f) = none := List.findSome?_eq_none_iff.mpr fun k on =>
      have ⟨aligned, valid⟩ := good k on
      Ctx.wordCause_none aligned valid
    exact does_instr_ok (fun _ => rfl) fun _ => Ctx.vaadd_eq.trans (by rw [noneBad]; rfl)
  case vaaddBad =>
    have first : (c.activeLanes f).findSome? (c.wordCause f) = some code := bad
    exact does_instr_fault (fun _ => rfl) fun _ => Ctx.vaadd_eq.trans (by rw [first]; rfl)
  all_goals exact does_atomic (fun _ => rfl) rfl

/-! ## Graphs (R274, R361, R363) -/

theorem exec_nodeFiring (ctx : Nat) (s : State) : exec (.nodeFiring ctx) s = execNodeFiring ctx s := rfl
theorem exec_graphQuiescent (ctx : Nat) (s : State) : exec (.graphQuiescent ctx) s = execGraphQuiescent ctx s := rfl
theorem exec_ret (ctx : Nat) (s : State) : exec (.ret ctx) s = execRet ctx s := rfl

/-- Settles O12: a clause's condition decides the tests of its row. -/
theorem graphFirings : Obligations.GraphFirings := by
  unfold Obligations.GraphFirings
  intro ctx id n c im
  dsimp only
  refine ⟨fun ⟨ready, good⟩ => does_of_act (exec_nodeFiring ctx)
      fun d ⟨⟨runs, stands, image, graph, between, goesOn, free⟩, w, waybill, running⟩ => ?fires,
    fun noneReady => does_of_act (exec_graphQuiescent ctx)
      fun d ⟨runs, stands, image, graph, between, goesOn, free⟩ => ?quiescent,
    fun f empty firing good => does_of_act (exec_ret ctx) fun d here => ?returns⟩
  case fires =>
    rw [waybill, Option.bind_some] at image
    simp only [runs, stands, waybill, Option.bind_some, image]
    rw [if_neg (by simp [graph, between, goesOn, free])]
    simp only [ready, if_neg running, if_pos good]
  case quiescent =>
    simp only [runs, stands, image]
    exact if_neg (by simp [graph, between, goesOn, noneReady, free])
  case returns =>
    simp only [here, empty, firing]
    exact if_pos good

end Sys2Proof.Machine

/-! The order of the matches of a Tongs key (R285): O59. -/

namespace Sys2Proof.Machine

/-! ## The order of matches -/

/-- Match `p` is reported before match `q`, or is `q` itself by priority and index: the higher priority first, of equal ones the
lower index (R285). -/
def RanksFirst (p q : Nat × TEntry) : Prop := q.2.prio < p.2.prio ∨ p.2.prio = q.2.prio ∧ p.1 ≤ q.1

theorem RanksFirst.refl (p : Nat × TEntry) : RanksFirst p p := .inr ⟨rfl, Nat.le_refl _⟩

theorem RanksFirst.trans {p q r : Nat × TEntry} (pq : RanksFirst p q) (qr : RanksFirst q r) : RanksFirst p r := by
  unfold RanksFirst at *
  omega

/-- A match goes into the list just before the first one that does not rank before it. -/
theorem insMatch_cons (x e : Nat × TEntry) (t : List (Nat × TEntry)) :
    RanksFirst e x ∧ insMatch (x :: t) e = e :: x :: t ∨ RanksFirst x e ∧ insMatch (x :: t) e = x :: insMatch t e := by
  unfold RanksFirst
  rw [insMatch]
  split
  next before => exact .inl ⟨by omega, rfl⟩
  next after => exact .inr ⟨by omega, rfl⟩

theorem insMatch_perm (l : List (Nat × TEntry)) (e : Nat × TEntry) : (insMatch l e).Perm (e :: l) := by
  induction l with
  | nil => exact .refl _
  | cons x t ih =>
    obtain ⟨-, placed⟩ | ⟨-, placed⟩ := insMatch_cons x e t
    · rw [placed]
    · rw [placed]
      exact (ih.cons x).trans (.swap e x t)

theorem insMatch_ranked {l : List (Nat × TEntry)} (e : Nat × TEntry) (ranked : l.Pairwise RanksFirst) :
    (insMatch l e).Pairwise RanksFirst := by
  induction l with
  | nil => exact List.pairwise_singleton _ _
  | cons x t ih =>
    obtain ⟨first, rest⟩ := List.pairwise_cons.mp ranked
    obtain ⟨before, placed⟩ | ⟨before, placed⟩ := insMatch_cons x e t
    · rw [placed, List.pairwise_cons, List.forall_mem_cons]
      exact ⟨⟨before, fun q mem => before.trans (first q mem)⟩, ranked⟩
    · rw [placed, List.pairwise_cons]
      refine ⟨fun q mem => ?_, ih rest⟩
      obtain rfl | mem := List.mem_cons.mp ((insMatch_perm t e).mem_iff.mp mem)
      · exact before
      · exact first q mem

/-- Inserting matches one after another keeps them all, and keeps them ranked. -/
theorem foldl_insMatch (l : List (Nat × TEntry)) {done : List (Nat × TEntry)} (ranked : done.Pairwise RanksFirst) :
    (l.foldl insMatch done).Perm (l ++ done) ∧ (l.foldl insMatch done).Pairwise RanksFirst := by
  induction l generalizing done with
  | nil => exact ⟨.refl _, ranked⟩
  | cons e t ih =>
    obtain ⟨same, inOrder⟩ := ih (insMatch_ranked e ranked)
    exact ⟨same.trans (((insMatch_perm done e).append_left t).trans List.perm_middle), inOrder⟩

theorem tRanked_perm (t : TTable) (key : BitVec 160) : (tRanked t key).Perm (tHits t key) :=
  (foldl_insMatch (tHits t key) .nil).1.trans (.of_eq (List.append_nil _))

theorem tRanked_ranked (t : TTable) (key : BitVec 160) : (tRanked t key).Pairwise RanksFirst :=
  (foldl_insMatch (tHits t key) .nil).2

/-- The primary result ranks before every match of the key, wherever it stands in the table. -/
theorem ranksFirst_of_head {t : TTable} {key : BitVec 160} {p : Nat × TEntry} (primary : (tRanked t key).head? = some p) :
    p ∈ tHits t key ∧ ∀ q ∈ tHits t key, RanksFirst p q := by
  obtain ⟨rest, ranked⟩ := List.head?_eq_some_iff.mp primary
  have inOrder := tRanked_ranked t key
  have same (q) : q ∈ tHits t key ↔ q = p ∨ q ∈ rest := by
    rw [← (tRanked_perm t key).mem_iff, ranked, List.mem_cons]
  rw [ranked, List.pairwise_cons] at inOrder
  refine ⟨(same p).mpr (.inl rfl), fun q hit => ?_⟩
  obtain rfl | later := (same q).mp hit
  · exact .refl q
  · exact inOrder.1 q later

/-! ## The result record (R286) -/

/-- A field of a byte string reads back what was written there. -/
theorem fieldAt_leBytes (before after : Bytes) (n k : Nat) :
    fieldAt (before ++ (leBytes n k ++ after)) before.length n = k % 256 ^ n := by
  have field := slice_append_left (leBytes n k) after
  rw [leBytes_length] at field
  have there := slice_append_right before (leBytes n k ++ after) 0 n
  rw [Nat.add_zero] at there
  rw [fieldAt, there, field, ofLe_leBytes]

/-- FLAGS of a primary result: MATCH, and MULTI when more than one entry matches. -/
theorem tRecord_flags (p : Nat × TEntry) (total seq : Nat) :
    fieldAt (tRecord (some p) total seq false) 6 2 = if 1 < total then 3 else 1 := by
  have flags : fieldAt (tRecord (some p) total seq false) 6 2 = (1 + 2 * b2n (decide (1 < total))) % 256 ^ 2 := by
    simpa [tRecord, fields, leBytes_length, b2n] using fieldAt_leBytes (leBytes 4 p.1 ++ leBytes 2 p.2.prio)
      (leBytes 4 p.2.tag ++ (leBytes 2 (min total 0xFFFF) ++ leBytes 2 (seq % 65536))) 2 (1 + 2 * b2n (decide (1 < total)))
  rw [flags]
  by_cases multi : 1 < total <;> simp [multi, b2n]

/-- Settles O59: the ranked matches are the matches of the key in the order of R285, so that the first ranks before all. -/
theorem primaryResultRanksFirst : Obligations.PrimaryResultRanksFirst := by
  unfold Obligations.PrimaryResultRanksFirst
  intro t key
  have sameLength := (tRanked_perm t key).length_eq
  refine ⟨sameLength, fun i e primary => ?_⟩
  obtain ⟨hit, first⟩ := ranksFirst_of_head primary
  refine ⟨hit, fun q other => ?highest, fun q other equal => ?lowest, fun seq => ?flags⟩
  case highest =>
    obtain higher | ⟨equal, -⟩ := first q other
    · exact Nat.le_of_lt higher
    · exact Nat.le_of_eq equal.symm
  case lowest =>
    obtain higher | ⟨-, index⟩ := first q other
    · exact absurd equal (Nat.ne_of_lt higher)
    · exact index
  case flags => rw [primary, tRecord_flags, sameLength]

end Sys2Proof.Machine

/-! The Tongs units (R285, R287, R289, R291, R293, R295, R297): O26. A table write passes the checks of R292, and a slot makes one
change of its unit, so that a clause holds by the branch of its condition. -/

namespace Sys2Proof.Machine

/-! ## The meanings that the rows of the units run -/

theorem exec_tongsInsertByPriority (ref : CmdRef) (unit count len : Nat) (ptr : DataPtr) (data : Option Bytes) (s : State) :
    exec (.tongsInsertByPriority ref unit count len ptr data) s =
      execTongsInsertByPriority ref unit count len ptr data s := rfl
theorem exec_tongsWriteAt (ref : CmdRef) (unit first count len : Nat) (ptr : DataPtr) (data : Option Bytes) (s : State) :
    exec (.tongsWriteAt ref unit first count len ptr data) s = execTongsWriteAt ref unit first count len ptr data s := rfl
theorem exec_tongsDelete (ref : CmdRef) (unit first count len : Nat) (s : State) :
    exec (.tongsDelete ref unit first count len) s = execTongsDelete ref unit first count len s := rfl
theorem exec_tongsReleaseUnit (ref : CmdRef) (unit count len : Nat) (s : State) :
    exec (.tongsReleaseUnit ref unit count len) s = execTongsReleaseUnit ref unit count len s := rfl
theorem exec_tongsReleaseComplete (unit : Nat) (s : State) :
    exec (.tongsReleaseComplete unit) s = execTongsReleaseComplete unit s := rfl
theorem exec_tongsTableRead (ref : CmdRef) (unit first count len : Nat) (ptr : DataPtr) (s : State) :
    exec (.tongsTableRead ref unit first count len ptr) s = execTongsTableRead ref unit first count len ptr s := rfl
theorem exec_tongsEntryUpdate (unit : Nat) (s : State) : exec (.tongsEntryUpdate unit) s = execTongsEntryUpdate unit s := rfl
theorem exec_tongsSearch (unit : Nat) (bad : Bool) (s : State) :
    exec (.tongsSearch unit bad) s = execTongsSearch unit bad s := rfl
theorem exec_tongsStep (unit : Nat) (bad : Bool) (s : State) : exec (.tongsStep unit bad) s = execTongsStep unit bad s := rfl
theorem exec_tongsScrub (unit : Nat) (bad : Bool) (s : State) : exec (.tongsScrub unit bad) s = execTongsScrub unit bad s := rfl

/-! ## Changes of one unit -/

/-- The later of two writes under one key stands. -/
theorem fset_fset {α : Type} (m : FMap α) (k : Nat) (v w : α) : fset (fset m k v) k w = fset m k w := by
  induction m with
  | nil => simp [fset]
  | cons x t ih =>
    obtain ⟨j, u⟩ := x
    simp only [fset]
    split
    · simp [fset]
    next notBefore =>
      split
      · simp [fset]
      next other => rw [fset, if_neg notBefore, if_neg other, ih]

/-- A change of a unit is what it makes of the unit as it stands. -/
theorem Dev.modTu_congr {d : Dev} {unit : Nat} {f g : TUnit → TUnit} (same : f (d.tu unit) = g (d.tu unit)) :
    d.modTu unit f = d.modTu unit g := by
  rw [Dev.tu] at same
  simp only [Dev.modTu, fmod, same]

/-- Two changes of a unit, one after the other, are one change. -/
theorem Dev.modTu_modTu (d : Dev) (unit : Nat) (f g : TUnit → TUnit) :
    (d.modTu unit f).modTu unit g = d.modTu unit (fun u => g (f u)) := by
  simp [Dev.modTu, fmod, fset_fset]

theorem TUnit.modFront_cons {u : TUnit} {q : TSearch} {t : List TSearch} (front : u.searches = q :: t) (f : TSearch → TSearch) :
    u.modFront f = { u with searches := f q :: t } := by
  simp only [TUnit.modFront, front]

/-- A stepping that has begun is not changed as its slot marks it begun and keeps its matches (R287). -/
theorem TSearch.begun_again {q : TSearch} {l : List Nat} (begun : q.begun = true) (left : q.set = l) :
    { q with begun := true, set := l } = q := by
  rw [← begun, ← left]

/-! ## Table writes and reads (R292) -/

section
variable {unit first count len mode : Nat} {ptr : DataPtr}

theorem tFieldsBad_eq_false (first mode : Nat) (bounded : Bool) (known : unit < 16) (inMode : mode < 4)
    (inside : first + count ≤ 65535) (few : count < 32768) : tFieldsBad unit first count mode bounded = false := by
  have counted : ¬ 32768 < count + 1 := by omega
  simp only [tFieldsBad, decide_eq_false (Nat.not_le.mpr known), decide_eq_false (Nat.not_le.mpr inMode),
    decide_eq_false (Nat.not_lt.mpr inside), decide_eq_false counted, Bool.and_false, Bool.or_false]

/-- Data of `count + 1` entries that pass the checks of R292 reach the meaning of their mode. -/
theorem Dev.tongsWriteData_good {d : Dev} {ref : CmdRef} {b : Bytes} (k : Dev → TUnit → List Bytes → Dev)
    (fieldsGood : tFieldsBad unit first count mode (decide (mode = 1)) = false)
    (data : len = 64 * (count + 1) ∧ b.length = len ∧ ptrWalk ptr .toDevice = none ∧ ptrLengthBad ptr len = false ∧
      tFirstFaulty b (count + 1) = none) (own : (d.tu unit).foreign ref.fix = false) :
    d.tongsWriteData ref unit first count mode len ptr (some b) k =
      k d (d.tu unit) ((List.range (count + 1)).map (tData b)) := by
  obtain ⟨rfl, sent, walked, whole, noFault⟩ := data
  have all : min (count + 1) (b.length / 64) = count + 1 := by omega
  simp [Dev.tongsWriteData, fieldsGood, walked, all, noFault, whole, own]

variable {i : Instr} {ref : CmdRef} {h : Dev → Prop} {f e : Dev → Dev}

/-- The frame of the commands of a unit: the unit is free for the next of them, and no other function's. -/
theorem runsCmd_of_tongs (runs : ∀ s, exec i s = act s (fun d => if d.tongsWaits ref unit then d else d.io ref f))
    (agrees : ∀ d, (d.tu unit).foreign ref.fix = false → h d → f d = e d) :
    RunsCmd Dev.ioMay i ref (fun d => d.tongsWaits ref unit = false ∧ (d.tu unit).foreign ref.fix = false ∧ h d) e :=
  does_of_act runs fun d ⟨waits, may, ready, own, met⟩ => by
    have free : d.tongsWaits ref unit = false := ready
    rw [free, Dev.io_at waits may]
    exact agrees _ own met

end

/-- Settles O26: a clause's condition passes the checks of its row, or gives its unit the slot. That MODE 0 inserts an entry sent
with VALID 0 (log 100) is the model's choice. -/
theorem tongsUnitsWork : Obligations.TongsUnitsWork := by
  unfold Obligations.TongsUnitsWork
  intro ref unit first count len ptr b
  dsimp only
  refine ⟨fun known data few => runsCmd_of_tongs (exec_tongsInsertByPriority ref unit count len ptr (some b))
      fun d own ⟨room, sorted⟩ => ?inserts,
    fun known data inside few => runsCmd_of_tongs (exec_tongsWriteAt ref unit first count len ptr (some b))
      fun d own _ => ?writes,
    fun known inside few => ⟨runsCmd_of_tongs (exec_tongsDelete ref unit first count 0) fun d own _ => ?deletes,
      fun walked size whole => runsCmd_of_tongs (exec_tongsTableRead ref unit first count len ptr) fun d own _ => ?reads⟩,
    fun known few => ⟨runsCmd_of_tongs (exec_tongsReleaseUnit ref unit count 0) fun d own claimed => ?releases,
      runsCmd_of_tongs (exec_tongsReleaseUnit ref unit count 0) fun d own unclaimed => ?releasesFree⟩,
    fun c => does_of_act (exec_tongsReleaseComplete unit) fun d ⟨releasing, noneLeft, waits⟩ => ?released,
    fun i e x t => does_of_act (exec_tongsEntryUpdate unit) fun d ⟨changes, turn⟩ => ?entryWrite,
    fun src dst x t => does_of_act (exec_tongsEntryUpdate unit) fun d ⟨changes, turn⟩ => ?entryMove,
    fun q key k2 rest t keys plain => does_of_act (exec_tongsSearch unit false) fun d ⟨front, turn⟩ => ?search,
    fun q t steps begun noneLeft => does_of_act (exec_tongsStep unit false) fun d ⟨front, turn⟩ => ?stepEnds,
    fun q i j r t steps begun left few => does_of_act (exec_tongsStep unit false) fun d ⟨front, turn⟩ => ?step,
    fun known => does_of_act (exec_tongsScrub unit false) fun d ⟨on, inside⟩ => ?scrub⟩
  case inserts =>
    rw [Dev.tongsWriteData_good _ (tFieldsBad_eq_false 0 0 _ known (by decide) (by omega) few) data own,
      if_neg (Nat.not_lt.mpr room), if_neg (by simp [sorted])]
  case writes => exact Dev.tongsWriteData_good _ (tFieldsBad_eq_false first 1 _ known (by decide) inside few) data own
  case deletes => simp [tFieldsBad_eq_false first 2 true known (by decide) inside few, own]
  case reads =>
    subst size
    simp [tFieldsBad_eq_false first 0 true known (by decide) inside few, walked, whole, own]
  case releases => simp [tFieldsBad_eq_false 0 3 false known (by decide) (by omega) few, own, claimed]
  case releasesFree => simp [tFieldsBad_eq_false 0 3 false known (by decide) (by omega) few, own, unclaimed]
  case released =>
    rw [if_pos ⟨releasing, noneLeft⟩]
    simp only [waits]
  case entryWrite | entryMove =>
    simp only [changes, turn]
    exact Dev.modTu_congr (by simp [tChange])
  case search =>
    simp only [front, keys]
    rw [if_neg (by simp [plain, turn]), if_neg (by simp)]
    exact congrArg (Dev.putInst · _ _ _) (Dev.modTu_congr (TUnit.modFront_cons (by simp [front]) _))
  case stepEnds =>
    simp only [front]
    rw [if_neg (by simp [steps, turn])]
    simp only [begun, noneLeft, if_true, Dev.modTu_modTu]
    exact congrArg (Dev.searchOver · unit) (Dev.modTu_congr (by
      simp [TUnit.modFront_cons (t := t), front, TSearch.begun_again begun noneLeft]))
  case step =>
    simp only [front]
    rw [if_neg (by simp [steps, turn])]
    simp only [begun, left, if_true, decide_eq_false (Nat.ne_of_lt few)]
    rw [if_neg (by decide), if_neg (by simp)]
    simp only [Dev.modTu_modTu]
    exact congrArg (Dev.putInst · _ _ _) (Dev.modTu_congr (by simp [TUnit.modFront_cons (t := t), front]))
  case scrub =>
    rw [if_neg (by simp [on, known])]
    dsimp only
    rw [if_neg (Nat.ne_of_lt inside)]
    exact Dev.modTu_congr (by simp only [Nat.mod_eq_of_lt inside])

end Sys2Proof.Machine

/-! The engines CXE, DGE and AEE (R300, R301, R309, R312, R316, R317, R320, R339, R340): O33. Each row guards its meaning by the
state of the instance or of the job, and a clause's condition picks the branch that acts. -/

namespace Sys2Proof.Machine

/-! ## The meanings that the rows of the engines run -/

theorem exec_cxeContextPlace (s : State) : exec .cxeContextPlace s = execCxeContextPlace s := rfl
theorem exec_cxeSegment (inst : Nat) (s : State) : exec (.cxeSegment inst) s = execCxeSegment inst s := rfl
theorem exec_cxeJobEnd (job : Nat) (s : State) : exec (.cxeJobEnd job) s = execCxeJobEnd job s := rfl
theorem exec_engineEccRetire (engine inst : Nat) (s : State) :
    exec (.engineEccRetire engine inst) s = execEngineEccRetire engine inst s := rfl
theorem exec_dgeSegment (inst : Nat) (s : State) : exec (.dgeSegment inst) s = execDgeSegment inst s := rfl
theorem exec_dgeStatePark (ctx : Nat) (s : State) : exec (.dgeStatePark ctx) s = execDgeStatePark ctx s := rfl
theorem exec_aeeSegment (inst : Nat) (first second : Bool) (s : State) :
    exec (.aeeSegment inst first second) s = execAeeSegment inst first second s := rfl
theorem exec_aeeJobEnd (job : Nat) (s : State) : exec (.aeeJobEnd job) s = execAeeJobEnd job s := rfl
theorem exec_contextBusError (engine ctx : Nat) (s : State) :
    exec (.contextBusError engine ctx) s = execContextBusError engine ctx s := rfl

/-- An instance that exists and is not retired passes the guard of the rows of instances (R301, R312). -/
theorem Dev.engine_serves {d : Dev} {engine inst : Nat} (known : inst < 8) (alive : (d.eng engine inst).retired = false) :
    ¬ (8 ≤ inst ∨ (d.eng engine inst).retired = true) := by
  simp [alive, known]

/-- Settles O33: a condition names an instance that serves, and the context that its round robin serves next, or a job whose
work is done. What a segment of CXE takes of its trace (`segmentWork`) is the accounting of log 72, the model's choice. -/
theorem engineJobsRun : Obligations.EngineJobsRun := by
  unfold Obligations.EngineJobsRun
  intro inst k c j g a
  dsimp only
  refine ⟨fun e t => does_of_act exec_cxeContextPlace fun d ⟨free, issued⟩ => ?places,
    fun known => does_of_act (exec_cxeSegment inst) fun d ⟨alive, turn, planned⟩ => ?cxeSegment,
    fun runs done good => does_of_act (exec_cxeJobEnd k) fun d job => ?cxeEnds,
    fun known more => does_of_act (exec_dgeSegment inst) fun d ⟨alive, call, turn⟩ => ?dgeSegment,
    fun runs more done => does_of_act (exec_dgeStatePark k) fun d call => ?parks,
    fun known owner => does_of_act (exec_aeeSegment inst true true) fun d ⟨alive, job, turn⟩ => ?aeeSegment,
    fun owner runs done tagGood => does_of_act (exec_aeeJobEnd k) fun d job => ?aeeEnds,
    fun busy => does_of_act (exec_contextBusError 1 k) fun d call => ?busError,
    fun known => ⟨does_of_act (exec_engineEccRetire 0 inst) fun d alive => ?cxeRetires,
      does_of_act (exec_engineEccRetire 1 inst) fun d alive => ?dgeRetires,
      does_of_act (exec_engineEccRetire 2 inst) fun d alive => ?aeeRetires⟩⟩
  case places => simp only [free, issued]
  case cxeSegment =>
    rw [if_neg (Dev.engine_serves known alive)]
    simp only [turn, planned]
  case cxeEnds =>
    simp only [job]
    rw [if_neg (by simp [runs, done])]
    simp [good]
  case dgeSegment =>
    rw [if_neg (Dev.engine_serves known alive)]
    simp only [turn, call, more, Bool.false_and, Bool.false_eq_true, if_false]
  case parks =>
    simp only [call]
    rw [if_pos ⟨runs, more, done⟩]
  case aeeSegment =>
    rw [if_neg (Dev.engine_serves known alive)]
    simp only [turn, Nat.ne_of_lt owner, job, if_true, if_false, Bool.not_true, Bool.false_and, Bool.false_eq_true]
  case aeeEnds =>
    simp only [job, decide_eq_false (Nat.not_le.mpr owner)]
    rw [if_neg (by simp [runs, done])]
    simp [tagGood]
  case busError =>
    simp only [call]
    rw [if_neg busy]
  case cxeRetires | dgeRetires | aeeRetires => exact if_neg (Dev.engine_serves known alive)

end Sys2Proof.Machine

/-! The block as a whole (log 1, log 2): O47 and O48. -/

namespace Sys2Proof.Machine

/-- Settles O47: the two lemmas of a step, which follow the queue. -/
theorem stepTakesTheFront : Obligations.StepTakesTheFront := by
  unfold Obligations.StepTakesTheFront
  exact ⟨step_cons, step_nil⟩

/-- Settles O48: each row runs one function of the device, which answers the next device; the queue is no part of it (log 1). -/
theorem everyRowAnswers : Obligations.EveryRowAnswers := by
  unfold Obligations.EveryRowAnswers
  intro i s
  cases i <;> exact ⟨_, rfl⟩

end Sys2Proof.Machine

/-! The order of presented interrupts (R371): O58. -/

namespace Sys2Proof.Machine

/-- Presented ID `p` comes before `q`, or is `q` itself by priority and ID: the higher priority first, of equal ones the lower
ID (R371). -/
def ComesFirst (p q : Nat × Nat) : Prop := q.2 < p.2 ∨ p.2 = q.2 ∧ p.1 ≤ q.1

theorem ComesFirst.refl (p : Nat × Nat) : ComesFirst p p := .inr ⟨rfl, Nat.le_refl _⟩

theorem ComesFirst.trans {p q r : Nat × Nat} (pq : ComesFirst p q) (qr : ComesFirst q r) : ComesFirst p r := by
  unfold ComesFirst at *
  omega

/-- What stands first once `p` is compared with what stood first before. -/
def firstOf (a : Option (Nat × Nat)) (p : Nat × Nat) : Option (Nat × Nat) :=
  match a with
  | none => some p
  | some q => if q.2 < p.2 ∨ (q.2 = p.2 ∧ p.1 < q.1) then some p else a

theorem Dev.firstPresented_eq (d : Dev) (bank : Nat) :
    d.firstPresented bank = ((d.presented bank).foldl firstOf none).map (·.1) := rfl

/-- Of two IDs the one that stays comes before both. -/
theorem firstOf_some (q p : Nat × Nat) :
    ∃ f, firstOf (some q) p = some f ∧ (f = q ∨ f = p) ∧ ComesFirst f q ∧ ComesFirst f p := by
  rw [firstOf]
  split
  next before => exact ⟨p, rfl, .inr rfl, by unfold ComesFirst; omega, .refl p⟩
  next after => exact ⟨q, rfl, .inl rfl, .refl q, by unfold ComesFirst; omega⟩

theorem foldl_firstOf (l : List (Nat × Nat)) (q : Nat × Nat) :
    ∃ f, l.foldl firstOf (some q) = some f ∧ f ∈ q :: l ∧ ∀ r ∈ q :: l, ComesFirst f r := by
  induction l generalizing q with
  | nil => exact ⟨q, rfl, List.mem_singleton_self q, fun r mem => List.mem_singleton.mp mem ▸ .refl q⟩
  | cons p l ih =>
    obtain ⟨m, stays, among, beforeQ, beforeP⟩ := firstOf_some q p
    obtain ⟨f, first, mem, before⟩ := ih m
    obtain ⟨beforeM, beforeRest⟩ := List.forall_mem_cons.mp before
    refine ⟨f, by rw [List.foldl_cons, stays, first], ?_, List.forall_mem_cons.mpr
      ⟨beforeM.trans beforeQ, List.forall_mem_cons.mpr ⟨beforeM.trans beforeP, beforeRest⟩⟩⟩
    obtain rfl | rest := List.mem_cons.mp mem
    · obtain rfl | rfl := among <;> simp
    · simp [rest]

/-- Where an ID is presented, one of them comes before all. -/
theorem Dev.firstPresented_cases (d : Dev) (bank : Nat) :
    d.presented bank = [] ∧ d.firstPresented bank = none ∨
      ∃ p ∈ d.presented bank, d.firstPresented bank = some p.1 ∧ ∀ q ∈ d.presented bank, ComesFirst p q := by
  rw [Dev.firstPresented_eq]
  cases d.presented bank with
  | nil => exact .inl ⟨rfl, rfl⟩
  | cons q l =>
    obtain ⟨f, first, mem, before⟩ := foldl_firstOf l q
    have stands : (q :: l).foldl firstOf none = some f := first
    exact .inr ⟨f, mem, by rw [stands]; rfl, before⟩

/-- Settles O58: the first presented ID comes before all, so that one below 64 precedes every shared ID of its priority. -/
theorem firstPresentedIsLowest : Obligations.FirstPresentedIsLowest := by
  unfold Obligations.FirstPresentedIsLowest
  intro d bank
  obtain ⟨empty, noneFirst⟩ | ⟨p, mem, first, before⟩ := d.firstPresented_cases bank
  · exact ⟨by simp [empty, noneFirst], fun i some' => by simp [noneFirst] at some'⟩
  · refine ⟨⟨fun noneFirst => by simp [first] at noneFirst, fun empty => by simp [empty] at mem⟩, fun i same => ?_⟩
    obtain rfl : p.1 = i := by simpa [first] using same
    have lowest (q) (other : q ∈ d.presented bank) (equal : q.2 = p.2) : p.1 ≤ q.1 := by
      obtain higher | ⟨-, lower⟩ := before q other
      · omega
      · exact lower
    refine ⟨p.2, mem, fun q other => ?_, lowest, fun q other equal isPrivate => (lowest q other equal).trans_lt isPrivate⟩
    obtain higher | ⟨equal, -⟩ := before q other <;> omega

end Sys2Proof.Machine

/-! What interrupts, the watchdog, mailboxes and links leave alone (R17, R47, R48, R365 to R382, R403): O55. -/

namespace Sys2Proof.Machine

/-- The blocks that the statement of O55 lists. -/
def Dev.storedBlocks (d : Dev) : Nvm × Wrp × Rdp × Mch × Map × Jrn × Par × Key × Hrt × Drv × Tng × Cfl × Clock :=
  (d.nvm, d.wrp, d.rdp, d.mch, d.map, d.jrn, d.par, d.key, d.hrt, d.drv, d.tng, d.cfl, d.clk)

/-! ## Operations that keep the data -/

@[simp] theorem Dev.storedBlocks_ite (c : Prop) [Decidable c] (d e : Dev) :
    (if c then d else e).storedBlocks = if c then d.storedBlocks else e.storedBlocks := apply_ite Dev.storedBlocks c d e

@[simp] theorem Dev.emit_storedBlocks (d : Dev) (o : Output) : (d.emit o).storedBlocks = d.storedBlocks := rfl
@[simp] theorem Dev.modSrc_storedBlocks (d : Dev) (n : Nat) (f : Src → Src) :
    (d.modSrc n f).storedBlocks = d.storedBlocks := rfl
@[simp] theorem Dev.modBank_storedBlocks (d : Dev) (n : Nat) (f : Bank → Bank) :
    (d.modBank n f).storedBlocks = d.storedBlocks := rfl
@[simp] theorem Dev.modPort_storedBlocks (d : Dev) (n : Nat) (f : Port → Port) :
    (d.modPort n f).storedBlocks = d.storedBlocks := rfl
@[simp] theorem Dev.modRing_storedBlocks (d : Dev) (n : Nat) (f : MRing → MRing) :
    (d.modRing n f).storedBlocks = d.storedBlocks := rfl
@[simp] theorem Dev.giveBack_storedBlocks (d : Dev) (p fix n : Nat) :
    (d.giveBack p fix n).storedBlocks = d.storedBlocks := rfl

@[simp] theorem Dev.emb_storedBlocks (d : Dev) (e : Emb) : { d with emb := e }.storedBlocks = d.storedBlocks := rfl
@[simp] theorem Dev.wdt_storedBlocks (d : Dev) (w : Wdt) : { d with wdt := w }.storedBlocks = d.storedBlocks := rfl

@[simp] theorem Dev.presentId_storedBlocks (d : Dev) (b id : Nat) : (d.presentId b id).storedBlocks = d.storedBlocks := by
  simp [Dev.presentId]

@[simp] theorem Dev.srcEvent_storedBlocks (d : Dev) (n : Nat) : (d.srcEvent n).storedBlocks = d.storedBlocks := by
  simp [Dev.srcEvent]

@[simp] theorem Dev.privEvent_storedBlocks (d : Dev) (b i : Nat) : (d.privEvent b i).storedBlocks = d.storedBlocks := by
  simp [Dev.privEvent]

@[simp] theorem Dev.requestWake_storedBlocks (d : Dev) (cause : Nat) : (d.requestWake cause).storedBlocks = d.storedBlocks := by
  unfold Dev.requestWake
  split <;> rfl

@[simp] theorem Dev.claim_storedBlocks (d : Dev) (bank : Nat) : (d.claim bank).1.storedBlocks = d.storedBlocks := by
  unfold Dev.claim
  split
  · rfl
  · split <;> simp

@[simp] theorem Dev.completeId_storedBlocks (d : Dev) (bank id : Nat) :
    (d.completeId bank id).storedBlocks = d.storedBlocks := by
  unfold Dev.completeId
  by_cases isPrivate : id < 64
  all_goals
    simp only [isPrivate, if_true, if_false]
    repeat' split
    all_goals simp

theorem Dev.presentNew_storedBlocks (d old : Dev) (b : Nat) : (d.presentNew old b).storedBlocks = d.storedBlocks := by
  unfold Dev.presentNew
  split <;> simp

theorem Dev.forEach_storedBlocks {α : Type} (d : Dev) (l : List α) {f : Dev → α → Dev}
    (keeps : ∀ d a, (f d a).storedBlocks = d.storedBlocks) : (d.forEach l f).storedBlocks = d.storedBlocks := by
  induction l generalizing d with
  | nil => rfl
  | cons a l ih => rw [Dev.forEach_cons, ih, keeps]

@[simp] theorem Dev.commitIcu_storedBlocks (d : Dev) : d.commitIcu.storedBlocks = d.storedBlocks := by
  unfold Dev.commitIcu
  split
  · rfl
  · exact Dev.forEach_storedBlocks _ _ fun e b => e.presentNew_storedBlocks d b

@[simp] theorem Dev.kick_storedBlocks (d : Dev) (key : Nat) : (d.kick key).storedBlocks = d.storedBlocks := by
  unfold Dev.kick
  split <;> rfl

/-! ## The meanings that the rows of interrupts and the watchdog run -/

theorem exec_interruptSourceEvent (bank id : Nat) (s : State) :
    exec (.interruptSourceEvent bank id) s = execInterruptSourceEvent bank id s := rfl
theorem exec_levelRequestWithdraw (bank id : Nat) (s : State) :
    exec (.levelRequestWithdraw bank id) s = execLevelRequestWithdraw bank id s := rfl
theorem exec_icuNudge (nudge bank : Nat) (s : State) : exec (.icuNudge nudge bank) s = execIcuNudge nudge bank s := rfl
theorem exec_icuRaise (id : Nat) (s : State) : exec (.icuRaise id) s = execIcuRaise id s := rfl
theorem exec_icuClaim (bank : Nat) (s : State) : exec (.icuClaim bank) s = execIcuClaim bank s := rfl
theorem exec_icuComplete (bank id : Nat) (s : State) : exec (.icuComplete bank id) s = execIcuComplete bank id s := rfl
theorem exec_icuCommit (s : State) : exec .icuCommit s = execIcuCommit s := rfl
theorem exec_wdtKick (key : Nat) (s : State) : exec (.wdtKick key) s = execWdtKick key s := rfl
theorem exec_wdtStage1Expiry (s : State) : exec .wdtStage1Expiry s = execWdtStage1Expiry s := rfl

/-! ## Rows that keep the data -/

/-- A row keeps the data wherever the function it runs does. -/
theorem exec_keeps_stored {i : Instr} {f : Dev → Dev} {s t : State} (runs : exec i s = act s f)
    (keeps : ∀ d, (f d).storedBlocks = d.storedBlocks) (next : exec i s = .next t) :
    t.dev.nvm = s.dev.nvm ∧ t.dev.wrp = s.dev.wrp ∧ t.dev.rdp = s.dev.rdp ∧ t.dev.mch = s.dev.mch ∧
      t.dev.map = s.dev.map ∧ t.dev.jrn = s.dev.jrn ∧ t.dev.par = s.dev.par ∧ t.dev.key = s.dev.key ∧
      t.dev.hrt = s.dev.hrt ∧ t.dev.drv = s.dev.drv ∧ t.dev.tng = s.dev.tng ∧ t.dev.cfl = s.dev.cfl ∧
      t.dev.clk = s.dev.clk := by
  cases runs.symm.trans next
  have same := keeps s.dev0
  simp only [Dev.storedBlocks, Prod.mk.injEq] at same
  exact same

/-- Settles O55: each row runs operations that keep the data, whichever branch it takes. -/
theorem interruptRowsKeepTheData : Obligations.InterruptRowsKeepTheData := by
  unfold Obligations.InterruptRowsKeepTheData
  intro bank id n us key s t keeps
  refine ⟨exec_keeps_stored (exec_icuClaim bank s) fun d => ?claim,
    exec_keeps_stored (exec_icuComplete bank id s) fun d => d.completeId_storedBlocks bank id,
    exec_keeps_stored (exec_icuNudge n bank s) fun d => ?nudge, exec_keeps_stored (exec_icuRaise id s) fun d => ?raise,
    exec_keeps_stored (exec_icuCommit s) fun d => d.commitIcu_storedBlocks,
    exec_keeps_stored (exec_interruptSourceEvent bank id s) fun d => ?event,
    exec_keeps_stored (exec_levelRequestWithdraw bank id s) fun d => ?withdraw,
    exec_keeps_stored (exec_wdtKick key s) fun d => d.kick_storedBlocks key,
    exec_keeps_stored (exec_wdtStage1Expiry s) fun d => ?stage1, exec_keeps_stored (exec_mailboxReceive n s) fun d => ?receive,
    exec_keeps_stored (exec_linkRecoveryEntry n us s) fun d => ?recovery,
    exec_keeps_stored (exec_fecUncorrectableFlit n us s) fun d => ?flitError,
    exec_keeps_stored (exec_retrainLink n id s) fun d => ?retrain,
    exec_keeps_stored (exec_l0pWidthChange n id s) fun d => ?width, exec_keeps_stored (exec_xtalSwitch s) fun _ => rfl,
    exec_keeps_stored (exec_perstDeassert n s) fun d => ?release⟩
  case claim => simp
  case nudge => simp [Dev.nudge]
  case raise => simp [Dev.raise]
  case event => simp
  case withdraw => simp
  case stage1 => simp
  case receive =>
    dsimp only
    split <;> simp
  case recovery => simp
  case flitError => simp
  case retrain => simp
  case width => simp
  case release =>
    split
    · rfl
    · have kept := Dev.srcEvent_storedBlocks (d.modPort n fun p => { p with perst := false }) (80 + n)
      generalize (d.modPort n fun p => { p with perst := false }).srcEvent (80 + n) = e at kept ⊢
      simp [kept]

end Sys2Proof.Machine

/-! The interrupt controller (R366, R369, R372 to R374, R376, R380, R381): O38. -/

namespace Sys2Proof.Machine

theorem exec_wakeWatcherFire (s : State) : exec .wakeWatcherFire s = execWakeWatcherFire s := rfl

/-! ## Claims and commits (R372, R376) -/

theorem Dev.claim_shared {d : Dev} {bank id : Nat} (on : d.bankOn bank = true) (first : d.firstPresented bank = some id)
    (shared : 64 ≤ id) : d.claim bank =
      ((d.modSrc id (fun x => { x with count := x.count - 1, claimedBy := some bank })).modBank bank (fun k =>
        { k with claims := satAdd 32 k.claims 1 }), id) := by
  simp [Dev.claim, on, first, Nat.not_lt.mpr shared]

theorem Dev.claim_spurious {d : Dev} {bank : Nat} (on : d.bankOn bank = true) (empty : d.firstPresented bank = none) :
    d.claim bank = (d.modBank bank (fun k => { k with spurious := satAdd 32 k.spurious 1 }), 1023) := by
  simp [Dev.claim, on, empty]

/-- Where every staged target is allowed, the search of a commit finds none to refuse (R376). -/
theorem Dev.find_badTarget_eq_none {d : Dev} (allowed : ∀ n, 64 ≤ n → n ≤ 1022 → d.targetOk n (d.src n).target = true) :
    ((List.range 959).map (· + 64)).find? (fun n => !d.targetOk n (d.src n).target) = none := by
  rw [List.find?_eq_none]
  intro n mem
  simp only [List.mem_map, List.mem_range] at mem
  obtain ⟨k, inRange, rfl⟩ := mem
  simp [allowed (k + 64) (by omega) (by omega)]

/-! ## The statement -/

/-- Settles O38: a clause's condition decides each test of its row. -/
theorem interruptsMove : Obligations.InterruptsMove := by
  unfold Obligations.InterruptsMove
  intro bank id w
  dsimp only
  refine ⟨fun shared last pends hard edge => does_of_act (exec_interruptSourceEvent bank id) fun d powered => ?event,
    fun known isCore => does_of_act (exec_interruptSourceEvent bank id) fun d on => ?privateEvent,
    fun shared => does_of_act (exec_levelRequestWithdraw bank id) fun d _ => if_neg (Nat.not_lt.mpr shared),
    fun inRange known => does_of_act (exec_icuNudge id bank) fun d on => if_pos ⟨inRange, known, on⟩,
    fun soft => does_of_act (exec_icuRaise id) fun d _ => if_pos soft,
    fun shared => does_of_act (exec_icuClaim bank) fun d ⟨on, first⟩ => ?claims,
    does_of_act (exec_icuClaim bank) fun d ⟨on, empty⟩ => ?spurious,
    fun shared isId => does_of_act (exec_icuComplete bank id) fun d ⟨on, foreign⟩ => ?foreign,
    fun shared isId => does_of_act (exec_icuComplete bank id) fun d ⟨on, own, empty, target⟩ => ?completes,
    does_of_act exec_icuCommit fun d allowed => ?commits,
    fun t => does_of_act exec_wakeWatcherFire fun d ⟨fires, asleep⟩ => ?fires⟩
  case event =>
    have takes : ¬ (1022 < id ∨ neverPends id = true ∨ isSoft id = true ∨ (isEmber id || d.fastOn) = false) := by
      simpa [pends, hard, Nat.not_lt.mpr last, or_iff_not_imp_left] using powered
    rw [if_neg (Nat.not_lt.mpr shared), if_neg takes]
    simp only [Dev.srcEvent, edge, Bool.false_and, Bool.false_eq_true, if_false]
    rfl
  case privateEvent => rw [if_pos (by omega), if_pos ⟨known, isCore, on⟩]
  case claims => simp [on, Dev.claim_shared on first shared]
  case spurious => simp [on, Dev.claim_spurious on empty]
  case foreign => simp [Dev.completeId, on, isId, Nat.not_lt.mpr shared, foreign]
  case completes =>
    have mine : ¬ decide ((d.src id).claimedBy = some bank) = false := by simp [own]
    simp only [Dev.completeId]
    rw [if_neg (by simp [on, isId])]
    simp only [if_neg (Nat.not_lt.mpr shared), if_neg mine, target, empty]
  case commits =>
    unfold Dev.commitIcu
    rw [Dev.find_badTarget_eq_none allowed]
  case fires => simp only [fires, if_pos asleep]

end Sys2Proof.Machine

/-! The Drover (R346 to R348, R351 to R353, R356, R357): O18 and O19. A row acts on its Hearth or its thread where the tests of
its guard hold. -/

namespace Sys2Proof.Machine

/-! ## The meanings that the rows of the Drover run -/

theorem exec_threadCreate (hearth level flow : Nat) (s : State) :
    exec (.threadCreate hearth level flow) s = execThreadCreate hearth level flow s := rfl
theorem exec_threadDispatch (ctx : Nat) (s : State) : exec (.threadDispatch ctx) s = execThreadDispatch ctx s := rfl
theorem exec_threadPreempt (hearth : Nat) (s : State) : exec (.threadPreempt hearth) s = execThreadPreempt hearth s := rfl
theorem exec_flowRelease (thread : Nat) (s : State) : exec (.flowRelease thread) s = execFlowRelease thread s := rfl
theorem exec_orderedRelease (thread : Nat) (s : State) : exec (.orderedRelease thread) s = execOrderedRelease thread s := rfl
theorem exec_threadEnd (thread : Nat) (s : State) : exec (.threadEnd thread) s = execThreadEnd thread s := rfl
theorem exec_flowModeChange (hearth : Nat) (s : State) : exec (.flowModeChange hearth) s = execFlowModeChange hearth s := rfl
theorem exec_drvTickBoundary (hearth now : Nat) (s : State) :
    exec (.drvTickBoundary hearth now) s = execDrvTickBoundary hearth now s := rfl
theorem exec_delayEntryExpiry (hearth : Nat) (s : State) :
    exec (.delayEntryExpiry hearth) s = execDelayEntryExpiry hearth s := rfl
theorem exec_threadWake (thread : Nat) (s : State) : exec (.threadWake thread) s = execThreadWake thread s := rfl
theorem exec_threadCancel (thread : Nat) (s : State) : exec (.threadCancel thread) s = execThreadCancel thread s := rfl

/-! ## Scheduling -/

/-- A create with operands in range reaches its Hearth while the control domain is on. -/
theorem Dev.create_serves {d : Dev} {h level flow : Nat} (known : h < 6) (isLevel : level < 64) (isFlow : flow < 2 ^ 20)
    (on : d.domOn .control = true) : ¬ (6 ≤ h ∨ 64 ≤ level ∨ 2 ^ 20 ≤ flow ∨ d.domOn .control = false) := by
  simp only [on, Bool.true_eq_false, or_false]
  omega

/-- Settles O18: a clause's condition decides each test of its row. -/
theorem droverSchedules : Obligations.DroverSchedules := by
  unfold Obligations.DroverSchedules
  intro h level flow ctx n lv
  dsimp only
  refine ⟨fun known isLevel isFlow => ⟨does_of_act (exec_threadCreate h level flow) fun d ⟨on, room⟩ => ?creates,
      does_of_act (exec_threadCreate h level flow) fun d ⟨on, full⟩ => ?held⟩,
    fun known => does_of_act (exec_threadDispatch ctx) fun d ⟨free, on, top⟩ => ?dispatches,
    fun known m => does_of_act (exec_threadPreempt h) fun d ⟨top, victim, firmware, full, urgent, own⟩ => ?preempts,
    does_of_act (exec_flowRelease n) fun d runs => if_pos runs,
    does_of_act (exec_orderedRelease n) fun d runs => if_pos runs,
    does_of_act (exec_threadEnd n) fun d runs => if_pos runs,
    fun m => does_of_act (exec_flowModeChange h) fun d ⟨next, empty⟩ => ?changes⟩
  case creates =>
    rw [if_neg (Dev.create_serves known isLevel isFlow on), if_pos room]
  case held =>
    rw [if_neg (Dev.create_serves known isLevel isFlow on)]
    exact if_neg (by simp [full])
  case dispatches =>
    dsimp only
    rw [if_neg (by simp [known, free, on])]
    simp only [top]
  case preempts =>
    have allBusy : (ctxsOf h).all (fun c => (d.busyOf c).isSome) = true := List.all_eq_true.mpr full
    simp only [top, victim]
    exact if_pos ⟨firmware, allBusy, urgent, known, own⟩
  case changes =>
    have noFlow : ¬ d.drv.threads.any (fun p => decide (p.2.state ≠ .free ∧ p.2.hearth = h ∧ p.2.flow ≠ 0)) = true := by
      rw [List.any_eq_true]
      rintro ⟨p, mem, holds⟩
      obtain ⟨alive, here, flow⟩ := of_decide_eq_true holds
      obtain gone | elsewhere | none' := empty p mem
      · exact alive gone
      · exact elsewhere here
      · exact flow none'
    simp only [next]
    exact if_neg noFlow

/-! ## Delays, wakes and cancels -/

/-- Settles O19: a clause's condition decides each test of its row. -/
theorem wakesAndCancels : Obligations.WakesAndCancels := by
  unfold Obligations.WakesAndCancels
  intro h now n id c w
  dsimp only
  refine ⟨fun known => does_of_act (exec_drvTickBoundary h now) fun d ⟨later, ticks, on⟩ => ?tick,
    fun e t => does_of_act (exec_delayEntryExpiry h) fun d ⟨first, due, room⟩ => ?expires,
    does_of_act (exec_threadWake n) fun d ⟨waits, notReleased, owner, inst, wb⟩ => ?wakesCall,
    does_of_act (exec_threadWake n) fun d ⟨waits, notReleased, firmware⟩ => ?wakes,
    does_of_act (exec_threadCancel n) fun d free => ?noThread,
    does_of_act (exec_threadCancel n) fun d ⟨state, owner⟩ => ?cancelsWaiting,
    does_of_act (exec_threadCancel n) fun d ⟨state, owner⟩ => ?cancelsRunning,
    does_of_act (exec_threadCancel n) fun d ⟨state, owner⟩ => ?cancelsReady⟩
  case tick => exact if_neg (by simp [known, Nat.not_lt.mpr later, ticks, on])
  case expires =>
    simp only [first]
    exact if_pos ⟨due, room⟩
  case wakesCall => simp [waits, notReleased, owner, inst, wb]
  case wakes => simp [waits, notReleased, firmware]
  case noThread => simp only [free]
  case cancelsWaiting => simp only [state, owner]
  case cancelsRunning => simp only [state, owner]
  case cancelsReady => simp only [state, owner]

end Sys2Proof.Machine

/-! The code flash (R386, R387, R389, R391 to R394): O36. -/

namespace Sys2Proof.Machine

/-! ## The meanings that the rows of the code flash run -/

theorem exec_flashProgram (sector offset : Nat) (data : Bytes) (s : State) :
    exec (.flashProgram sector offset data) s = execFlashProgram sector offset data s := rfl
theorem exec_flashErase (sector : Nat) (s : State) : exec (.flashErase sector) s = execFlashErase sector s := rfl
theorem exec_flashReadInfo (sector : Nat) (s : State) : exec (.flashReadInfo sector) s = execFlashReadInfo sector s := rfl
theorem exec_flashStatus (s : State) : exec .flashStatus s = execFlashStatus s := rfl
theorem exec_flashReadCal (offset len : Nat) (s : State) :
    exec (.flashReadCal offset len) s = execFlashReadCal offset len s := rfl
theorem exec_flashSuspend (ran : Nat) (s : State) : exec (.flashSuspend ran) s = execFlashSuspend ran s := rfl
theorem exec_flashResume (us : Nat) (s : State) : exec (.flashResume us) s = execFlashResume us s := rfl
theorem exec_flashAutoResume (us : Nat) (s : State) : exec (.flashAutoResume us) s = execFlashAutoResume us s := rfl
theorem exec_flashOperationDone (failed : Option Nat) (pulses us : Nat) (s : State) :
    exec (.flashOperationDone failed pulses us) s = execFlashOperationDone failed pulses us s := rfl
theorem exec_flashOperationAbandoned (unit : Nat) (s : State) :
    exec (.flashOperationAbandoned unit) s = execFlashOperationAbandoned unit s := rfl
theorem exec_codeFlashReadFault (offset : Nat) (fetch : Bool) (ecc : Nat) (s : State) :
    exec (.codeFlashReadFault offset fetch ecc) s = execCodeFlashReadFault offset fetch ecc s := rfl
theorem exec_xoUnlock (fromRom : Bool) (s : State) : exec (.xoUnlock fromRom) s = execXoUnlock fromRom s := rfl

/-! ## Refusals (R390) -/

/-- Arguments out of range are refused before anything else (log 41). -/
theorem Dev.flashRefusal_badArg (d : Dev) (n : Nat) : d.flashRefusal true n = some 2 := rfl

/-- An idle service with no watchdog reset at hand takes an operation on a sector that is not protected. -/
theorem Dev.flashRefusal_free {d : Dev} {n : Nat} (quiet : d.wdt.state = 0) (idle : d.cfl.op = none)
    (writable : d.isProtected n = false) : d.flashRefusal false n = none := by
  simp [Dev.flashRefusal, quiet, idle, writable]

/-- A read in the view is served while the control domain is on. -/
theorem Dev.read_serves {d : Dev} {off : Nat} (on : d.domOn .control = true) (inView : off < 0x1000000) :
    ¬ (!d.domOn .control || decide (0x1000000 ≤ off)) = true := by
  simpa [on] using inView

/-- Settles O36: a clause's condition decides each test of its row. That the arguments are looked at before the watchdog and the
operation at hand (log 41), that a program or erase spoils its slot's image (log 43) and that a cut pulse is not counted
(log 130) are the model's choices. -/
theorem codeFlashOperates : Obligations.CodeFlashOperates := by
  unfold Obligations.CodeFlashOperates
  intro n off len us pulses data o
  dsimp only
  refine ⟨fun r good => does_of_act (exec_flashProgram n off data)
      fun d ⟨on, ⟨quiet, idle, writable⟩, words⟩ => ?program,
    fun bad => does_of_act (exec_flashProgram n off data) fun d on => ?programBad,
    fun isSector => does_of_act (exec_flashErase n) fun d ⟨on, quiet, idle, writable⟩ => ?erase,
    fun isSector => does_of_act (exec_flashReadInfo n) fun d on => ?info,
    fun noSector => ⟨does_of_act (exec_flashReadInfo n) fun d on => ?infoBad,
      does_of_act (exec_flashErase n) fun d on => ?eraseBad⟩,
    does_of_act exec_flashStatus fun d on => ?status,
    fun least most => does_of_act (exec_flashReadCal off len) fun d on => ?calibration,
    fun erases runs few ran => does_of_act (exec_flashSuspend us) fun d ⟨on, op⟩ => ?suspend,
    does_of_act (exec_flashResume us) fun d ⟨on, suspended⟩ => ?resume,
    fun erases suspended long => does_of_act (exec_flashAutoResume us) fun d op => ?autoResume,
    fun runs => does_of_act (exec_flashOperationDone none pulses us) fun d op => ?done,
    fun erases => does_of_act (exec_flashOperationAbandoned len) fun d op => ?abandoned,
    fun inView fetch st => does_of_act (exec_codeFlashReadFault off fetch 0) fun d ⟨on, faults, noXo⟩ => ?readFault,
    fun inView => does_of_act (exec_codeFlashReadFault off false 0) fun d ⟨on, clean⟩ => ?read,
    does_of_act (exec_xoUnlock true) fun d inRom => ?unlocks, does_of_act (exec_xoUnlock false) fun d _ => rfl⟩
  case program =>
    rw [if_neg (by simp [on])]
    dsimp only
    rw [good, Dev.flashRefusal_free quiet idle writable, Option.none_or, words]
    cases r <;> rfl
  case programBad =>
    rw [if_neg (by simp [on])]
    dsimp only
    rw [bad, Dev.flashRefusal_badArg]
    rfl
  case erase =>
    rw [if_neg (by simp [on]), isSector, Bool.not_true]
    rw [Dev.flashRefusal_free quiet idle writable]
    rfl
  case info =>
    rw [if_neg (by simp [on]), if_neg (by simp [isSector])]
    rfl
  case infoBad =>
    rw [if_neg (by simp [on]), if_pos (by simp [noSector])]
    rfl
  case eraseBad =>
    rw [if_neg (by simp [on]), noSector]
    rfl
  case status => exact if_neg (by simp [on])
  case calibration =>
    rw [if_neg (by simp [on])]
    exact if_neg (by omega)
  case suspend =>
    rw [if_neg (by simp [on])]
    simp only [op]
    exact if_pos ⟨erases, runs, few, ran⟩
  case resume =>
    rw [if_neg (by simp [on])]
    exact if_pos suspended
  case autoResume =>
    simp only [op]
    exact if_pos ⟨erases, suspended, long⟩
  case done => simp only [op, runs, Bool.false_eq_true, if_false]
  case abandoned => simp only [op, erases, if_true]
  case readFault =>
    have uncorrected : d.readFault (sectorAt off) fetch (decide (0 = 2)) = some st := faults
    rw [if_neg (Dev.read_serves on inView)]
    simp only [uncorrected, if_neg noXo]
  case read =>
    have passes : d.readFault (sectorAt off) false (decide (0 = 2)) = none := clean
    rw [if_neg (Dev.read_serves on inView)]
    simp only [passes]
    rfl
  case unlocks => exact if_pos (by simp [inRom])

end Sys2Proof.Machine

/-! The boot ROM, trials and the watchdog (R397, R398, R403): O37. -/

namespace Sys2Proof.Machine

/-! ## The meanings that the rows of the boot and the watchdog run -/

theorem exec_boot (us : Nat) (s : State) : exec (.boot us) s = execBoot us s := rfl
theorem exec_trialConfirm (s : State) : exec .trialConfirm s = execTrialConfirm s := rfl
theorem exec_wdtStage2Expiry (failed : List Nat) (s : State) :
    exec (.wdtStage2Expiry failed) s = execWdtStage2Expiry failed s := rfl
theorem exec_wdtDeferredReset (us : Nat) (failed : List Nat) (s : State) :
    exec (.wdtDeferredReset us failed) s = execWdtDeferredReset us failed s := rfl

/-- Settles O37: a clause's condition decides each test of its row. That an expiry falls with up to `epochTicksMax` ticks left
(log 83) is the model's choice. -/
theorem bootAndWatchdog : Obligations.BootAndWatchdog := by
  unfold Obligations.BootAndWatchdog
  intro us key failed i
  dsimp only
  refine ⟨does_of_act (exec_boot us) fun d ⟨⟨stage, on⟩, good⟩ => ?boots,
    does_of_act (exec_boot us) fun d ⟨⟨stage, on⟩, bad, otherBad⟩ => ?fails,
    fun keepsFloor => does_of_act exec_trialConfirm fun d ⟨stage, trial, image⟩ => ?confirms,
    fun good => does_of_act (exec_wdtKick key) fun d _ => if_pos good,
    fun bad => does_of_act (exec_wdtKick key) fun d _ => if_neg bad,
    does_of_act exec_wdtStage1Expiry fun d ⟨on, stage, due⟩ => ?stage1,
    does_of_act (exec_wdtStage2Expiry failed) fun d ⟨on, stage, due, idle⟩ => ?stage2,
    does_of_act (exec_wdtStage2Expiry failed) fun d ⟨on, stage, due, works, runs⟩ => ?defers,
    does_of_act (exec_wdtDeferredReset us failed) fun d ended => if_pos ended⟩
  case boots =>
    rw [if_neg (by simp [stage, on])]
    exact if_pos good
  case fails =>
    rw [if_neg (by simp [stage, on])]
    dsimp only
    rw [if_neg (Bool.eq_false_iff.mp bad)]
    exact if_neg (Bool.eq_false_iff.mp otherBad)
  case confirms =>
    rw [if_neg (by simp [stage, trial])]
    rw [Dev.fwSlotImage] at image
    simp only [Dev.fwSlotImage, image, keepsFloor, Bool.false_eq_true, if_false]
  case stage1 => exact if_pos (by simp [on, stage, due])
  case stage2 =>
    rw [if_pos (by simp [on, stage, due])]
    exact if_neg (by simp [idle])
  case defers =>
    rw [if_pos (by simp [on, stage, due]), if_pos works]
    exact if_neg (by simp [runs])

end Sys2Proof.Machine

/-! Firmware Image Download, Firmware Commit and activation (R402, R405): O31. -/

namespace Sys2Proof.Machine

/-! ## The meanings that the rows of firmware run -/

theorem exec_firmwareImageDownload (ref : CmdRef) (offset : Nat) (data : Option Bytes) (s : State) :
    exec (.firmwareImageDownload ref offset data) s = execFirmwareImageDownload ref offset data s := rfl
theorem exec_firmwareCommitReplace (ref : CmdRef) (action fs : Nat) (cert : Option Bytes) (profiles : List DieProfile)
    (s : State) :
    exec (.firmwareCommitReplace ref action fs cert profiles) s = execFirmwareCommitReplace ref action fs cert profiles s := rfl
theorem exec_firmwareCommitReplaceActivate (ref : CmdRef) (fs : Nat) (cert : Option Bytes) (profiles : List DieProfile)
    (s : State) :
    exec (.firmwareCommitReplaceActivate ref fs cert profiles) s = execFirmwareCommitReplaceActivate ref fs cert profiles s := rfl
theorem exec_firmwareCommitActivate (ref : CmdRef) (fs : Nat) (s : State) :
    exec (.firmwareCommitActivate ref fs) s = execFirmwareCommitActivate ref fs s := rfl
theorem exec_firmwareCommitActivateNow (ref : CmdRef) (fs us : Nat) (cert : Option Bytes) (profiles : List DieProfile)
    (s : State) :
    exec (.firmwareCommitActivateNow ref fs us cert profiles) s = execFirmwareCommitActivateNow ref fs us cert profiles s := rfl
theorem exec_firmwareSlotWritten (ok : Bool) (s : State) :
    exec (.firmwareSlotWritten ok) s = execFirmwareSlotWritten ok s := rfl
theorem exec_activationTimeout (failed : List Nat) (s : State) :
    exec (.activationTimeout failed) s = execActivationTimeout failed s := rfl

/-! ## Checks (R402) -/

/-- The device as the checks of a commit find it: the download buffer is empty. -/
def Dev.noDownload (d : Dev) : Dev := { d with nvm := { d.nvm with fwBuf := {} } }

/-- A commit of an action that is supported empties the buffer and checks what stood there. -/
theorem Dev.fwCommit_eq (d : Dev) (ref : CmdRef) {action : Nat} (known : action ≤ 3) (fs : Nat) (cert : Option Bytes)
    (profiles : List DieProfile) : d.fwCommit ref action fs cert profiles =
      d.pfAdmin ref (fun d => d.noDownload.commitChecked ref action fs d.nvm.fwBuf cert profiles) := by
  simp only [Dev.fwCommit, if_pos known]
  rfl

section
variable {d : Dev} {ref : CmdRef} {fs slot : Nat} {i : FwImage} (idle : d.nvm.fwBusy = none) (noSanitize : d.nvm.sanitize = 0)
  (names : d.fsSlot fs = some slot)
include idle noSanitize names

/-- A commit that replaces the image of a slot that does not run, with a downloaded image that passes, begins to write it. -/
theorem Dev.commitChecked_writes {b : FwBuf} {cert : Option Bytes} {profiles : List DieProfile} {action : Nat}
    (replaces : action < 2) (downloaded : b.pieces ≠ []) (spare : slot ≠ d.bot.slot)
    (parsed : fwParse b.image cert profiles = some i) (passes : i.passes d.bootRec.minSvn = true) :
    d.commitChecked ref action fs b cert profiles =
      { d.modCmd ref (fun c => { c with job := .fwSlot, started := true }) with
        bot := { d.bot with slots := fset d.bot.slots slot none }
        nvm := { (d.modCmd ref (fun c => { c with job := .fwSlot, started := true })).nvm with
          fwBusy := some ref, fwAction := action, fwSlot := slot, fwImage := some i } } := by
  have notActivate : action ≠ 2 := by omega
  have isDownloaded : b.pieces.isEmpty = false := by simpa using downloaded
  rw [Dev.commitChecked, if_neg (by simp [idle, noSanitize])]
  simp [names, notActivate, isDownloaded, spare, parsed, passes, Dev.modCmd]

/-- A commit that only activates takes the image that its slot holds. -/
theorem Dev.commitChecked_activates {b : FwBuf} {cert : Option Bytes} {profiles : List DieProfile}
    (stored : d.fwSlotImage slot = some i) (passes : i.passes d.bootRec.minSvn = true) :
    d.commitChecked ref 2 fs b cert profiles = d.afterImage ref 2 slot i := by
  rw [Dev.commitChecked, if_neg (by simp [idle, noSanitize])]
  simp [names, stored, passes]
end

/-- A Firmware Commit of a supported action does what its checks do on an empty buffer. -/
theorem runsCmd_of_commit {row : Instr} {ref : CmdRef} {action fs : Nat} {cert : Option Bytes} {profiles : List DieProfile}
    {h : Dev → Prop} {e : Dev → Dev} (known : action ≤ 3)
    (runs : ∀ s, exec row s = act s (fun d => d.fwCommit ref action fs cert profiles))
    (agrees : ∀ d, h d → d.noDownload.commitChecked ref action fs d.nvm.fwBuf cert profiles = e d) :
    RunsCmd Dev.pfMay row ref h e :=
  runsCmd_of_pfAdmin (fun s => by simp only [runs, Dev.fwCommit_eq _ ref known]) agrees

/-- Settles O31: a clause's condition decides each test of its row. -/
theorem firmwareCommands : Obligations.FirmwareCommands := by
  unfold Obligations.FirmwareCommands
  intro ref fs slot us cert profiles i
  dsimp only
  refine ⟨fun offset b pages nonempty aligned fits => runsCmd_of_pfAdmin (exec_firmwareImageDownload ref offset (some b))
      fun d apart => ?download,
    runsCmd_of_commit (action := 0) (Nat.zero_le 3) (exec_firmwareCommitReplace ref 0 fs cert profiles)
      fun d ⟨⟨idle, noSanitize, names⟩, downloaded, spare, parsed, passes⟩ => Dev.commitChecked_writes (d := d.noDownload)
        idle noSanitize names Nat.zero_lt_two downloaded spare parsed passes,
    runsCmd_of_commit (Nat.le_add_right 1 2) (exec_firmwareCommitReplaceActivate ref fs cert profiles)
      fun d ⟨⟨idle, noSanitize, names⟩, downloaded, spare, parsed, passes⟩ => Dev.commitChecked_writes (d := d.noDownload)
        idle noSanitize names Nat.one_lt_two downloaded spare parsed passes,
    runsCmd_of_commit (Nat.le_succ 2) (exec_firmwareCommitActivate ref fs)
      fun d ⟨⟨idle, noSanitize, names⟩, stored, passes⟩ => Dev.commitChecked_activates (d := d.noDownload)
        idle noSanitize names stored passes,
    fun c begun quick => does_of_act (exec_firmwareCommitActivateNow ref fs us cert profiles)
      fun d ⟨fetched, stage, quiet, good⟩ => ?activated,
    does_of_act (exec_firmwareSlotWritten true) fun d ⟨busy, image⟩ => ?written,
    fun failed => does_of_act (exec_activationTimeout failed) fun d stage => if_pos stage⟩
  case download =>
    have inRange : ¬ (b.length = 0 ∨ b.length % 4096 ≠ 0 ∨ offset % 4096 ≠ 0 ∨ slotBytes < offset + b.length) := by
      have := List.length_pos_iff.mpr nonempty
      omega
    have noOverlap : ¬ d.nvm.fwBuf.pieces.any (fun p => decide (p.1 < offset + b.length ∧ offset < p.1 + p.2)) = true := by
      simp only [List.any_eq_true, decide_eq_true_eq, not_exists, not_and]
      intro p mem _
      have := apart p mem
      omega
    dsimp only
    rw [if_neg inRange, if_neg noOverlap]
  case activated =>
    simp only [fetched, begun, if_true, stage]
    exact if_neg (by simp [quiet, good, Nat.not_lt.mpr quick])
  case written => simp only [busy, image, if_true]

end Sys2Proof.Machine

/-! Key slots (R325, R327, R331, R332, R336): O32. -/

namespace Sys2Proof.Machine

/-! ## The meanings that the rows of key slots run -/

theorem exec_keySlotQuery (ref : CmdRef) (slot len : Nat) (s : State) :
    exec (.keySlotQuery ref slot len) s = execKeySlotQuery ref slot len s := rfl
theorem exec_keySlotGenerate (ref : CmdRef) (len cdw15 : Nat) (s : State) :
    exec (.keySlotGenerate ref len cdw15) s = execKeySlotGenerate ref len cdw15 s := rfl
theorem exec_keySlotImport (ref : CmdRef) (len cdw15 : Nat) (data : Option Bytes) (s : State) :
    exec (.keySlotImport ref len cdw15 data) s = execKeySlotImport ref len cdw15 data s := rfl
theorem exec_keySlotRekey (ref : CmdRef) (slot len cdw15 : Nat) (data : Option Bytes) (s : State) :
    exec (.keySlotRekey ref slot len cdw15 data) s = execKeySlotRekey ref slot len cdw15 data s := rfl
theorem exec_keySlotBind (ref : CmdRef) (slot nsid tag : Nat) (s : State) :
    exec (.keySlotBind ref slot nsid tag) s = execKeySlotBind ref slot nsid tag s := rfl
theorem exec_keySlotUnbind (ref : CmdRef) (slot nsid tag : Nat) (s : State) :
    exec (.keySlotUnbind ref slot nsid tag) s = execKeySlotUnbind ref slot nsid tag s := rfl
theorem exec_keySlotDestroy (ref : CmdRef) (slot : Nat) (s : State) :
    exec (.keySlotDestroy ref slot) s = execKeySlotDestroy ref slot s := rfl
theorem exec_keyReleaseComplete (ref : CmdRef) (s : State) :
    exec (.keyReleaseComplete ref) s = execKeyReleaseComplete ref s := rfl
theorem exec_keyAlarm (source : Nat) (s : State) : exec (.keyAlarm source) s = execKeyAlarm source s := rfl
theorem exec_drbgReseed (s : State) : exec .drbgReseed s = execDrbgReseed s := rfl

/-! ## Commands that run -/

/-- A command that has not run is live, and begins nothing before. -/
theorem Dev.waits.live {d : Dev} {ref : CmdRef} (waits : d.waits ref) : ∃ c, d.live ref = some c ∧ c.job = .plain := by
  obtain ⟨c, live, -, plain⟩ := waits
  exact ⟨c, live, plain⟩

/-- Key Slot Manage runs while the key store is not locked by an alarm (R336). -/
theorem Dev.unlocked_at {d : Dev} {ref : CmdRef} (free : d.key.locked = false) (f : Dev → Dev) : d.unlocked ref f = f d := by
  simp [Dev.unlocked, free]

/-- A release that has been noted in its command is looked at as the command then stands. -/
theorem Dev.releaseDone_fetched (d : Dev) (ref : CmdRef) :
    (match d.cmd ref with
      | some c => d.releaseDone c
      | none => d) = ((d.cmd ref).map d.releaseDone).getD d := by
  cases d.cmd ref <;> rfl

/-- Settles O32: a clause's condition decides each test of its row. -/
theorem keyCommands : Obligations.KeyCommands := by
  unfold Obligations.KeyCommands
  intro ref slot nsid tag cdw15 lim
  dsimp only
  refine ⟨runsCmd_of_admin (exec_keySlotQuery ref slot 64) fun d ⟨⟨known, own⟩, length⟩ => ?query,
    runsCmd_of_admin (exec_keySlotQuery ref slot 64) fun d ⟨known, foreign⟩ => ?queryForeign,
    fun limited xts e => does_of_act (exec_keySlotGenerate ref 0 cdw15) fun d ⟨waits, _, free, issued⟩ => ?generate,
    fun limited len b e e2 => does_of_act (exec_keySlotImport ref len cdw15 (some b))
      fun d ⟨waits, _, free, checked, issued⟩ => ?imports,
    fun limited => runsCmd_of_admin (exec_keySlotRekey ref slot 0 cdw15 none)
      fun d ⟨free, ⟨known, own⟩, sameType, ktype⟩ => ?rekey,
    runsCmd_of_admin (exec_keySlotBind ref slot nsid tag)
      fun d ⟨⟨known, own⟩, isTag, ktype, usable, unbound, n, ns, kpio, attached⟩ => ?bind,
    runsCmd_of_admin (exec_keySlotUnbind ref slot nsid tag) fun d ⟨⟨known, own⟩, bound⟩ => ?unbind,
    runsCmd_of_admin (exec_keySlotDestroy ref slot) fun d ⟨known, own⟩ => ?destroy,
    fun c k releases => does_of_act (exec_keyReleaseComplete ref) fun d fetched => ?released,
    fun src known => does_of_act (exec_keyAlarm src) fun d on => if_neg (by simp [known, on]),
    does_of_act exec_drbgReseed fun d due => if_pos due⟩
  case query =>
    rw [if_neg (by omega), if_neg (Nat.not_le.mpr known)]
    simp only [own, if_true]
    exact if_pos length.symm
  case queryForeign =>
    rw [if_neg (by omega), if_neg (Nat.not_le.mpr known)]
    simp only [foreign, Bool.false_eq_true, if_false]
    refine if_pos ?_
    rw [List.length_append, leBytes_length]
    rfl
  case generate =>
    obtain ⟨c, live, plain⟩ := waits.live
    simp only [live, plain, reduceCtorEq, if_false, Dev.admin_at waits, Dev.unlocked_at free, limited, xts, if_true]
    rw [if_neg (by decide)]
    simp only [issued, if_true]
  case imports =>
    obtain ⟨c, live, plain⟩ := waits.live
    simp only [live, plain, reduceCtorEq, if_false, Dev.admin_at waits, Dev.unlocked_at free, limited, checked, issued, if_true]
  case rekey =>
    have notPair : (d.kslot slot).ktype ≠ 4 := by omega
    have notXts : (d.kslot slot).ktype ≠ 1 := by omega
    simp only [Dev.unlocked_at free, limited]
    rw [if_neg (by simp [known, own, notPair, notXts]), if_pos trivial, if_neg (not_not_intro sameType.symm)]
  case bind =>
    simp only [ns]
    rw [if_neg (by simp [known, isTag, own, ktype, kpio, attached, unbound])]
    exact if_neg usable
  case unbind =>
    rw [if_neg (by simp [own, bound])]
    exact Dev.releaseDone_fetched _ ref
  case destroy =>
    rw [if_neg (by simp [own, known])]
    exact Dev.releaseDone_fetched _ ref
  case released => simp only [fetched, releases]

end Sys2Proof.Machine

/-! The SPDM exchange over DOE (R400, R401): O42. -/

namespace Sys2Proof.Machine

/-! ## The meanings that the rows of SPDM run -/

theorem exec_spdmGetVersion (bus : Nat) (s : State) : exec (.spdmGetVersion bus) s = execSpdmGetVersion bus s := rfl
theorem exec_spdmGetCapabilities (bus : Nat) (s : State) :
    exec (.spdmGetCapabilities bus) s = execSpdmGetCapabilities bus s := rfl
theorem exec_spdmNegotiateAlgorithms (bus : Nat) (offered : Bool) (s : State) :
    exec (.spdmNegotiateAlgorithms bus offered) s = execSpdmNegotiateAlgorithms bus offered s := rfl
theorem exec_spdmGetDigests (bus : Nat) (s : State) : exec (.spdmGetDigests bus) s = execSpdmGetDigests bus s := rfl
theorem exec_spdmGetCertificate (bus slot offset len : Nat) (s : State) :
    exec (.spdmGetCertificate bus slot offset len) s = execSpdmGetCertificate bus slot offset len s := rfl
theorem exec_spdmChallenge (bus slot : Nat) (s : State) : exec (.spdmChallenge bus slot) s = execSpdmChallenge bus slot s := rfl
theorem exec_spdmGetMeasurements (bus index : Nat) (signed : Bool) (s : State) :
    exec (.spdmGetMeasurements bus index signed) s = execSpdmGetMeasurements bus index signed s := rfl
theorem exec_spdmKeyExchange (bus ident : Nat) (s : State) :
    exec (.spdmKeyExchange bus ident) s = execSpdmKeyExchange bus ident s := rfl
theorem exec_spdmFinish (bus : Nat) (ok : Bool) (s : State) : exec (.spdmFinish bus ok) s = execSpdmFinish bus ok s := rfl
theorem exec_spdmHeartbeat (bus : Nat) (s : State) : exec (.spdmHeartbeat bus) s = execSpdmHeartbeat bus s := rfl
theorem exec_spdmKeyUpdate (bus : Nat) (s : State) : exec (.spdmKeyUpdate bus) s = execSpdmKeyUpdate bus s := rfl
theorem exec_spdmEndSession (bus : Nat) (s : State) : exec (.spdmEndSession bus) s = execSpdmEndSession bus s := rfl

/-! ## Requests over DOE -/

/-- A row of a request over DOE does `e` wherever the responder's function and `e` agree, while the host domain is on. -/
theorem does_of_spdm {i : Instr} {h : Dev → Prop} {f e : Dev → Dev} (runs : ∀ s, exec i s = act s (fun d => d.spdmIn 3 f))
    (agrees : ∀ d, h d → f d = e d) : Does i (fun d => d.domOn .host = true ∧ h d) e :=
  does_of_act runs fun d ⟨on, met⟩ => by
    rw [Dev.spdmIn, if_pos rfl, if_pos on]
    exact agrees d met

theorem Dev.negotiated_at {d : Dev} (done : d.spdm.algs = true) (f : Dev → Dev) : d.negotiated f = f d := if_pos done

theorem Dev.inSession_at {d : Dev} {n : Nat} (session : d.spdm.session = n ∧ d.spdmKeys = true) (f : Dev → Dev) :
    d.inSession n f = f d := if_pos session

/-- Settles O42: a clause's condition decides each test of its row. That a new GET_VERSION ends the session and that there is
one session at a time (log 62) are the model's choices, as are the free bytes of the responses (log 3). -/
theorem spdmExchange : Obligations.SpdmExchange := by
  unfold Obligations.SpdmExchange
  intro v off len
  dsimp only
  refine ⟨does_of_spdm (exec_spdmGetVersion 3) fun _ _ => rfl,
    does_of_spdm (exec_spdmGetCapabilities 3) fun d version => ?capabilities,
    does_of_spdm (exec_spdmGetCapabilities 3) fun d tooEarly => ?noVersion,
    does_of_spdm (exec_spdmNegotiateAlgorithms 3 true) fun d caps => ?algorithms,
    does_of_spdm (exec_spdmGetDigests 3) fun d done => Dev.negotiated_at done _,
    fun known => does_of_spdm (exec_spdmGetCertificate 3 v off len) fun d done => ?certificate,
    does_of_spdm (exec_spdmChallenge 3 0) fun d done => Dev.negotiated_at done _,
    does_of_spdm (exec_spdmGetMeasurements 3 0 false) fun d done => Dev.negotiated_at done _,
    does_of_spdm (exec_spdmGetMeasurements 3 255 true) fun d done => Dev.negotiated_at done _,
    does_of_spdm (exec_spdmKeyExchange 3 v) fun d ⟨done, idle, keys⟩ => ?keyExchange,
    does_of_spdm (exec_spdmFinish 3 true) fun d session => Dev.inSession_at session _,
    does_of_spdm (exec_spdmFinish 3 false) fun d session => Dev.inSession_at session _,
    does_of_spdm (exec_spdmHeartbeat 3) fun d session => Dev.inSession_at session _,
    does_of_spdm (exec_spdmKeyUpdate 3) fun d session => Dev.inSession_at session _,
    does_of_spdm (exec_spdmEndSession 3) fun d session => Dev.inSession_at session _,
    does_of_spdm (exec_spdmEndSession 3) fun d idle => if_neg fun session => idle session.1⟩
  case capabilities => exact if_neg (by simp [version])
  case noVersion => exact if_pos (by simp [tooEarly])
  case algorithms => exact if_neg (by simp [caps])
  case certificate => exact (Dev.negotiated_at done _).trans (if_neg (Nat.not_le.mpr known))
  case keyExchange => exact (Dev.negotiated_at done _).trans (if_neg (by simp [idle, keys]))

end Sys2Proof.Machine

/-! Sleep and wakes (R415, R416, R418, R420, R427): O44. -/

namespace Sys2Proof.Machine

/-! ## The meanings that the rows of sleep and wakes run -/

theorem exec_sleepEntry (us : Nat) (s : State) : exec (.sleepEntry us) s = execSleepEntry us s := rfl
theorem exec_deviceResetOrderly (us : Nat) (s : State) : exec (.deviceResetOrderly us) s = execDeviceResetOrderly us s := rfl
theorem exec_deepAfterExpiry (s : State) : exec .deepAfterExpiry s = execDeepAfterExpiry s := rfl
theorem exec_wakeFromDormant (crcOk : Bool) (us : Nat) (failed : List Nat) (s : State) :
    exec (.wakeFromDormant crcOk us failed) s = execWakeFromDormant crcOk us failed s := rfl
theorem exec_wakeFromDeep (failed : List Nat) (s : State) : exec (.wakeFromDeep failed) s = execWakeFromDeep failed s := rfl

/-! ## Entries and wakes -/

/-- A device that is awake is not on its way into a sleep mode. -/
theorem Dev.awake_notEntering {d : Dev} (awake : d.emb.mode = .active ∨ d.emb.mode = .idleReady) :
    d.emb.mode ≠ .entering := by
  rcases awake with mode | mode <;> simp [mode]

/-- Settles O44: a clause's condition decides each test of its row. That the rows of an entry are run again until the work has
drained (log 53) is the model's choice. -/
theorem sleepAndWake : Obligations.SleepAndWake := by
  unfold Obligations.SleepAndWake
  intro us cause failed
  dsimp only
  refine ⟨does_of_act (exec_sleepEntry us) fun d entering => if_pos entering,
    does_of_act (exec_sleepEntry us) fun d ⟨⟨awake, ready⟩, may, idle⟩ => ?enters,
    does_of_act (exec_deviceResetOrderly us) fun d entering => if_pos entering,
    does_of_act (exec_deviceResetOrderly us) fun d ⟨⟨awake, ready⟩, linksDown⟩ => ?resets,
    does_of_act exec_deepAfterExpiry fun d expired => if_pos expired,
    does_of_act (exec_wakeFromDormant true us failed) fun d ⟨mode, wake, good, resumes, image⟩ => ?resumes,
    does_of_act (exec_wakeFromDormant false us failed) fun d ⟨mode, wake, good⟩ => ?fullWake,
    does_of_act (exec_wakeFromDeep failed) fun d ⟨mode, wake, notTripped, good⟩ => ?wakesFromDeep⟩
  case enters =>
    rw [if_neg (Dev.awake_notEntering awake)]
    exact if_pos ⟨awake, ready, may, idle⟩
  case resets =>
    rw [if_neg (Dev.awake_notEntering awake)]
    exact if_pos ⟨awake, ready, List.all_eq_true.mpr fun p used => decide_eq_true (linksDown p used)⟩
  case resumes =>
    simp only [mode, wake]
    rw [if_neg (not_not_intro good)]
    exact if_pos (by simp [resumes, image])
  case fullWake =>
    simp only [mode, wake]
    rw [if_neg (not_not_intro good)]
    rfl
  case wakesFromDeep =>
    simp only [mode, wake]
    exact if_neg (by simp [notTripped, good])

end Sys2Proof.Machine

/-! The management endpoint (R431 to R434, R457): O41. A message that the endpoint hears is counted, and the meaning of its row
runs on the device that has counted it. -/

namespace Sys2Proof.Machine

/-! ## The meanings that the rows of management run -/

theorem exec_setEndpointId (bus eid : Nat) (s : State) : exec (.setEndpointId bus eid) s = execSetEndpointId bus eid s := rfl
theorem exec_getEndpointId (bus : Nat) (s : State) : exec (.getEndpointId bus) s = execGetEndpointId bus s := rfl
theorem exec_getMctpVersionSupport (bus : Nat) (s : State) :
    exec (.getMctpVersionSupport bus) s = execGetMctpVersionSupport bus s := rfl
theorem exec_getMessageTypeSupport (bus : Nat) (s : State) :
    exec (.getMessageTypeSupport bus) s = execGetMessageTypeSupport bus s := rfl
theorem exec_mctpMessageDiscarded (len : Nat) (checkOk : Bool) (s : State) :
    exec (.mctpMessageDiscarded len checkOk) s = execMctpMessageDiscarded len checkOk s := rfl
theorem exec_i3cModeSwitch (da : Nat) (s : State) : exec (.i3cModeSwitch da) s = execI3cModeSwitch da s := rfl
theorem exec_smbusArp (cmd addr : Nat) (udidOk : Bool) (s : State) :
    exec (.smbusArp cmd addr udidOk) s = execSmbusArp cmd addr udidOk s := rfl
theorem exec_miEndpointBusy (bus slot : Nat) (s : State) :
    exec (.miEndpointBusy bus slot) s = execMiEndpointBusy bus slot s := rfl
theorem exec_miUnsupportedCommand (bus slot : Nat) (s : State) :
    exec (.miUnsupportedCommand bus slot) s = execMiUnsupportedCommand bus slot s := rfl
theorem exec_readNvmeMiDataStructure (bus slot dtype : Nat) (s : State) :
    exec (.readNvmeMiDataStructure bus slot dtype) s = execReadNvmeMiDataStructure bus slot dtype s := rfl
theorem exec_nvmSubsystemHealthStatusPoll (bus slot : Nat) (s : State) :
    exec (.nvmSubsystemHealthStatusPoll bus slot) s = execNvmSubsystemHealthStatusPoll bus slot s := rfl
theorem exec_controllerHealthStatusPoll (bus slot ctrl : Nat) (s : State) :
    exec (.controllerHealthStatusPoll bus slot ctrl) s = execControllerHealthStatusPoll bus slot ctrl s := rfl
theorem exec_configurationSet (bus slot ident value : Nat) (s : State) :
    exec (.configurationSet bus slot ident value) s = execConfigurationSet bus slot ident value s := rfl
theorem exec_configurationGet (bus slot ident : Nat) (s : State) :
    exec (.configurationGet bus slot ident) s = execConfigurationGet bus slot ident s := rfl
theorem exec_vpdRead (bus slot offset len : Nat) (s : State) :
    exec (.vpdRead bus slot offset len) s = execVpdRead bus slot offset len s := rfl
theorem exec_vpdWrite (bus slot offset : Nat) (data : Bytes) (s : State) :
    exec (.vpdWrite bus slot offset data) s = execVpdWrite bus slot offset data s := rfl
theorem exec_nvmeMiReset (bus slot : Nat) (failed : List Nat) (s : State) :
    exec (.nvmeMiReset bus slot failed) s = execNvmeMiReset bus slot failed s := rfl
theorem exec_tunnelledAdminCommand (bus slot opcode ctrl : Nat) (s : State) :
    exec (.tunnelledAdminCommand bus slot opcode ctrl) s = execTunnelledAdminCommand bus slot opcode ctrl s := rfl
theorem exec_recoveryImageWrite (bus slot offset : Nat) (data : Bytes) (s : State) :
    exec (.recoveryImageWrite bus slot offset data) s = execRecoveryImageWrite bus slot offset data s := rfl

/-! ## Messages (R431, R457) -/

/-- The endpoint listens to a binding: SMBus or I3C, whichever bus mode is in force, or PCIe VDM while the host domain is on. -/
def Dev.hears (d : Dev) (bus : Nat) : Prop :=
  (bus = 0 ∧ d.mgt.i3c = false) ∨ (bus = 1 ∧ d.mgt.i3c = true) ∨ (bus = 2 ∧ d.domOn .host = true)

/-- The device once a message over a binding is counted. -/
def Dev.received (d : Dev) (bus : Nat) : Dev := { d with mgt := { d.mgt with
  smbusUsed := d.mgt.smbusUsed || decide (bus = 0), vdm := d.mgt.vdm || decide (bus = 2), rx := d.mgt.rx + 1 } }

@[simp] theorem Dev.received_bot (d : Dev) (bus : Nat) : (d.received bus).bot = d.bot := rfl
@[simp] theorem Dev.received_fnExists (d : Dev) (bus n : Nat) : (d.received bus).fnExists n = d.fnExists n := rfl

theorem Dev.onBus_heard {d : Dev} {bus : Nat} (heard : d.hears bus) (f : Dev → Dev) : d.onBus bus f = f (d.received bus) := by
  rcases heard with ⟨rfl, smbus⟩ | ⟨rfl, i3c⟩ | ⟨rfl, on⟩
  · exact if_neg (by simp [smbus])
  · exact if_neg (by simp [i3c])
  · exact if_neg (by simp [on])

/-- A request for a command slot that is free runs; one for a slot that is busy is answered so. -/
theorem Dev.mi_heard {d : Dev} {bus slot : Nat} (heard : d.hears bus) (known : slot < 2) (f : Dev → Dev) :
    d.mi bus slot f = if slot ∈ d.mgt.busySlots then (d.received bus).miBusy else f (d.received bus) := by
  rw [Dev.mi, if_neg (Nat.not_le.mpr known), Dev.onBus_heard heard]
  rfl

section
variable {i : Instr} {bus slot : Nat} {f e : Dev → Dev}

/-- A row of an MCTP control message. -/
theorem does_of_bus (runs : ∀ s, exec i s = act s (fun d => d.onBus bus f)) (agrees : ∀ d, f (d.received bus) = e d) :
    Does i (fun d => d.hears bus) e :=
  does_of_act runs fun _ heard => (Dev.onBus_heard heard f).trans (agrees _)

/-- A row of an NVMe-MI command whose slot is free. -/
theorem does_of_mi {h : Dev → Prop} (runs : ∀ s, exec i s = act s (fun d => d.mi bus slot f))
    (agrees : ∀ d, h d → f (d.received bus) = e d) :
    Does i (fun d => d.hears bus ∧ slot < 2 ∧ slot ∉ d.mgt.busySlots ∧ h d) e :=
  does_of_act runs fun d ⟨heard, known, free, met⟩ => by
    rw [Dev.mi_heard heard known, if_neg free]
    exact agrees d met
end

/-- Settles O41: a clause's condition decides each test of its row. Answers that the rules leave to MCTP, SMBus ARP and NVMe-MI
(log 46) and the free bytes of a health poll (log 36) are the model's choices. -/
theorem managementCommands : Obligations.ManagementCommands := by
  unfold Obligations.ManagementCommands
  intro bus slot v off len data heard got tells ctl mi ok bad
  refine ⟨fun least most => does_of_bus (exec_setEndpointId bus v) fun d => if_pos ⟨least, most⟩,
    does_of_bus (exec_getEndpointId bus) fun _ => rfl, does_of_bus (exec_getMctpVersionSupport bus) fun _ => rfl,
    does_of_bus (exec_getMessageTypeSupport bus) fun _ => rfl,
    fun long c => does_of_act (exec_mctpMessageDiscarded len c) fun d _ => ?tooLong,
    does_of_act (exec_mctpMessageDiscarded len false) fun _ _ => rfl,
    does_of_act (exec_i3cModeSwitch v) fun d smbus => if_neg (by simp [smbus]),
    fun smbus => ?assigns, does_of_act (exec_miEndpointBusy bus slot) fun d ⟨heard, known, busy⟩ => ?busy,
    does_of_mi (exec_miUnsupportedCommand bus slot) fun _ _ => rfl,
    does_of_mi (exec_readNvmeMiDataStructure bus slot 2) fun _ _ => rfl,
    fun unknown => does_of_mi (exec_readNvmeMiDataStructure bus slot v) fun _ _ => if_pos unknown,
    does_of_mi (exec_nvmSubsystemHealthStatusPoll bus slot) fun _ _ => rfl,
    does_of_mi (exec_controllerHealthStatusPoll bus slot v) fun d stands => ?controllerHealth,
    does_of_mi (exec_configurationSet bus slot 2 v) fun _ _ => rfl,
    fun least most => does_of_mi (exec_configurationSet bus slot 3 v) fun _ _ => if_pos ⟨least, most⟩,
    does_of_mi (exec_configurationGet bus slot 1) fun _ _ => rfl, does_of_mi (exec_configurationGet bus slot 2) fun _ _ => rfl,
    does_of_mi (exec_configurationGet bus slot 3) fun _ _ => rfl,
    fun inside => does_of_mi (exec_vpdRead bus slot off len) fun _ _ => if_neg (Nat.not_lt.mpr inside),
    fun outside => does_of_mi (exec_vpdRead bus slot off len) fun _ _ => if_pos outside,
    fun inside => does_of_mi (exec_vpdWrite bus slot off data) fun _ _ => if_neg (Nat.not_lt.mpr inside),
    fun failed => does_of_mi (exec_nvmeMiReset bus slot failed) fun _ _ => rfl,
    fun op ctrl tunnels => ?tunnel,
    fun nonempty most fits => does_of_mi (exec_recoveryImageWrite bus slot off data) fun d failed => ?recoveryWrite,
    does_of_mi (exec_recoveryImageWrite bus slot off data) fun d running => if_pos running,
    fun known cert profiles failed i => does_of_mi (exec_recoveryCommit bus slot v cert profiles failed)
      fun d ⟨stage, parsed, passes⟩ => ?recoveryCommit⟩
  case tooLong => exact if_neg (by simp [long])
  case assigns =>
    subst smbus
    exact does_of_bus (exec_smbusArp 3 v true) fun _ => rfl
  case busy =>
    rw [Dev.mi_heard heard known, if_pos busy]
    rfl
  case controllerHealth => exact if_neg (by simp [stands])
  case tunnel =>
    refine does_of_act (exec_tunnelledAdminCommand bus slot op ctrl) fun d ⟨heard, known, free, new, stage, mode, there⟩ => ?_
    have awake : ¬ (d.emb.mode ≠ .active ∧ d.emb.mode ≠ .idleReady) := by rwa [← not_or, not_not]
    rw [if_neg new, Dev.mi_heard heard known, if_neg free, if_neg (not_not_intro tunnels)]
    exact (if_neg stage).trans ((if_neg awake).trans (if_neg (by simp [there])))
  case recoveryWrite =>
    have inRange : ¬ (data.length = 0 ∨ 4096 < data.length ∨ slotBytes < off + data.length) := by omega
    exact (if_neg (not_not_intro failed)).trans (if_neg inRange)
  case recoveryCommit =>
    refine (if_neg (not_not_intro stage)).trans ((if_neg (Nat.not_le.mpr known)).trans ?_)
    have counted : got d = d.received bus := rfl
    rw [counted] at passes ⊢
    simp only [Dev.received_bot, parsed]
    exact if_pos passes

end Sys2Proof.Machine
